-- ==== Sys2Proof/Word.lean ====
section
/-! DEFINITION. Word.lean: the words the manual treats as bits, the index types for its numbered items, and fixed-length
tables over them. Items the manual numbers from 1 are indexed from 0 here: group n is the index n - 1, and so on. -/

namespace Sys2Proof

/-- One byte of a frame, a maintenance transaction or the image (00_scope, convention 8). -/
abbrev Byte := BitVec 8

/-- Groups and lamp channels 1 to 16 (00_scope, convention 1). -/
abbrev Group := Fin 16
/-- Stages 1 to 8. -/
abbrev Stage := Fin 8
/-- Detectors 1 to 24. -/
abbrev Detector := Fin 24
/-- Plans 1 to 4. -/
abbrev Plan := Fin 4
/-- Places 1 to 8 of the neighbor table. -/
abbrev Place := Fin 8

/-- The table whose entry at `i` is `f i`. -/
def tab {α : Type} (n : Nat) (f : Fin n → α) : Vector α n := ⟨⟨List.ofFn f⟩, by simp⟩

/-- The table `v` with entry `i` replaced by `x`. -/
def put {α : Type} {n : Nat} (v : Vector α n) (i : Fin n) (x : α) : Vector α n := v.set i x

@[simp] theorem tab_get {α : Type} {n : Nat} (f : Fin n → α) (i : Fin n) : (tab n f)[i] = f i := by
  simp [tab]

@[simp] theorem put_get {α : Type} {n : Nat} (v : Vector α n) (i j : Fin n) (x : α) :
    (put v i x)[j] = if i = j then x else v[j] := by
  simp [put, Vector.getElem_set, Fin.ext_iff]

/-- A count that goes up by one and stops at its stated maximum (00_scope, convention 9). -/
def satInc (limit n : Nat) : Nat := min (n + 1) limit

end Sys2Proof
end

