-- ==== Sys2Proof/Syntax.lean ====
section
/-! DEFINITION. Syntax.lean: the commands the controller takes, one constructor for each row of spec/opcode_table.json. An
operand names the item the row's event concerns, or the bytes and levels that the event brings in from outside. -/

namespace Sys2Proof

/-- The three lamps of a channel. -/
inductive Lamp where
  | red
  | amber
  | green
  deriving DecidableEq, Repr

/-- The preemption classes, highest first (00_scope, convention 6). -/
inductive PreClass where
  | rail
  | emergency
  | transit
  deriving DecidableEq, Repr

/-- The commands. -/
inductive Instr where
  /-- POWER_ON (R164). -/
  | powerOn
  /-- RESET_PIN (R164). -/
  | resetPin
  /-- HEADER_READ (R178): the 18 header bytes, as the memory delivered them. -/
  | headerRead (header : Vector Byte 18)
  /-- MEMORY_NO_ACKNOWLEDGE (R178): the bytes delivered since the last loader event, before the byte that was refused. -/
  | memoryNoAcknowledge (delivered : List Byte)
  /-- LOAD_END (R179): the bytes from address 18 up to the declared length. -/
  | loadEnd (body : List Byte)
  /-- TICK (R66): the levels that stand at the tick on the detector inputs, the request inputs and the lamp sense inputs. -/
  | tick (detectors : BitVec 24) (requests : BitVec 3) (sense : BitVec 48)
  /-- PREP_END (R11). -/
  | prepEnd (g : Group)
  /-- MIN_GREEN_END (R12). -/
  | minGreenEnd (g : Group)
  /-- CLEARANCE_END (R14). -/
  | clearanceEnd (g : Group)
  /-- PASSAGE_TIMER_EXPIRY (R31). -/
  | passageTimerExpiry
  /-- MAX_TIMER_EXPIRY (R32). -/
  | maxTimerExpiry
  /-- HOLD_EXTENSION_EXPIRY (R35). -/
  | holdExtensionExpiry
  /-- STAGE_CHANGE_COMPLETE (R39). -/
  | stageChangeComplete
  /-- PE_COMMAND (R43): the commanded stage and the truncating mark. -/
  | peCommand (target : Stage) (truncating : Bool)
  /-- PE_COMMAND_RELEASE (R44): `downgrade` replaces the truncating command by a non-truncating one; otherwise it is released. -/
  | peCommandRelease (downgrade : Bool)
  /-- HALT (R45). -/
  | halt
  /-- HALT_DONE (R169). -/
  | haltDone
  /-- ON_EDGE (R52). -/
  | onEdge (d : Detector)
  /-- OFF_EDGE (R52). -/
  | offEdge (d : Detector)
  /-- FAILED_ON (R57). -/
  | failedOn (d : Detector)
  /-- FAILED_QUIET (R59). -/
  | failedQuiet (d : Detector)
  /-- UNSYNC_GIVE_UP (R79). -/
  | unsyncGiveUp
  /-- HOLD_END (R72). -/
  | holdEnd
  /-- PLAN_ADOPTION (R77). -/
  | planAdoption
  /-- BEACON_DUE (R81). -/
  | beaconDue
  /-- PLAN_HOLD_EXPIRY (R131). -/
  | planHoldExpiry
  /-- LINE_FREE (R100). -/
  | lineFree
  /-- BACKOFF_SLOT_END (R108). -/
  | backoffSlotEnd
  /-- BYTE_RECEIVED (R112): the data bits, and whether the stop bit was sampled at the start-bit level (R99). -/
  | byteReceived (b : Byte) (framingError : Bool)
  /-- INTRA_FRAME_GAP (R112). -/
  | intraFrameGap
  /-- FRAME_RECEIVED (R113): the last byte of the frame being assembled. -/
  | frameReceived (last : Byte)
  /-- ENTRY_STALE (R124). -/
  | entryStale (p : Place)
  /-- ENTRY_LOST (R124). -/
  | entryLost (p : Place)
  /-- NOTICE_FORMED (R137): the pinned place whose link reaches its threshold. -/
  | noticeFormed (p : Place)
  /-- NOTICE_ACTIVATION (R142): the notice's sender and link serial. -/
  | noticeActivation (sender serial : Nat)
  /-- NOTICE_END (R141): the notice's sender and link serial. -/
  | noticeEnd (sender serial : Nat)
  /-- REQUEST_INPUT_ON (R148). -/
  | requestInputOn (c : PreClass)
  /-- DWELL_ENTRY (R152). -/
  | dwellEntry
  /-- MIN_DWELL_EXPIRY (R153). -/
  | minDwellExpiry
  /-- MAX_DWELL_EXPIRY (R153). -/
  | maxDwellExpiry
  /-- SERVICE_END (R154). -/
  | serviceEnd
  /-- LINE_ALERT_COUNTDOWN_EXPIRY (R159). -/
  | lineAlertCountdownExpiry
  /-- LINE_DWELL_EXPIRY (R149). -/
  | lineDwellExpiry
  /-- INHIBIT_EXPIRY (R149). -/
  | inhibitExpiry
  /-- MODE_TIMER_EXPIRY (R164). -/
  | modeTimerExpiry
  /-- CONFLICT (R172): the pair, the lower group first. -/
  | conflict (a b : Group)
  /-- MISMATCH (R173): the channel and its lamp. -/
  | mismatch (ch : Group) (lamp : Lamp)
  /-- SELECT_FALL (R182). -/
  | selectFall
  /-- SELECT_RISE (R182). -/
  | selectRise
  /-- STATUS (R176), delivered. -/
  | status
  /-- READ_GROUPS (R20), delivered. -/
  | readGroups
  /-- READ_NEIGHBORS (R133), delivered. -/
  | readNeighbors
  /-- READ_PLATOONS (R146), delivered. -/
  | readPlatoons
  /-- READ_PREEMPTION (R162), delivered. -/
  | readPreemption
  /-- EXCHANGE_PENDING (R56), delivered with its mask; detector 1 is bit 0. -/
  | exchangePending (mask : BitVec 24)
  /-- PLACE_CALL (R25), delivered with its argument byte. -/
  | placeCall (arg : Byte)
  /-- SELECT_PLAN (R132), delivered with its argument byte. -/
  | selectPlan (arg : Byte)
  /-- MANUAL_FLASH_ON (R168), delivered. -/
  | manualFlashOn
  /-- MANUAL_FLASH_OFF (R168), delivered. -/
  | manualFlashOff
  /-- RESTART (R170), delivered. -/
  | restart
  /-- RELOAD (R170), delivered. -/
  | reload
  /-- BLOCK_RESTART_LINE (R117), delivered. -/
  | blockRestartLine
  /-- BLOCK_RESTART_NEIGHBORS (R128), delivered. -/
  | blockRestartNeighbors
  /-- BLOCK_RESTART_DETECTORS (R63), delivered. -/
  | blockRestartDetectors
  /-- UNKNOWN_COMMAND (R183): a command code that Table 11.3 does not hold, delivered. -/
  | unknownCommand (code : Byte)
  /-- LINE_BUSY (R100). -/
  | lineBusy
  /-- BYTE_NOT_RECEIVED_BACK (R110). -/
  | byteNotReceivedBack
  /-- SPI_BYTE_TRANSFER (R182): the byte the maintenance processor shifts in. -/
  | spiByteTransfer (mosi : Byte)
  deriving DecidableEq, Repr

end Sys2Proof
end

