-- ==== Sys2Proof/Config.lean ====
section
/-! DEFINITION. Config.lean: the free values, each left open by the manual. They are constants without a body, so no proof can
see what they are; each is applied to the counter `State.free`, which every tick and every decision of the Preemption Unit advances. -/

namespace Sys2Proof.Config

/-- The rank of block work number `w` at the tick whose free counter is `n`. The manual lets the works of several blocks at one
tick be taken in either order (R4, R24, R54, R87, R125, R151, R183 and others); the works of a tick are taken in the order of
these ranks. Log entry 1. -/
opaque workRank : Nat → Nat → Nat

/-- R154: a service whose exit stage is its target stage ends at the evaluation after the one that enters EXIT, or at that
evaluation itself. Log entry 2. -/
opaque exitSeenAtOnce : Nat → Bool

/-- R152 to R155 give no order between the end of a DWELL and the push by a higher class when both fall due at one evaluation.
Log entry 3. -/
opaque higherClassFirst : Nat → Bool

/-- R125: of a BEACON received between two ticks, whether it belongs to the coming tick and is taken there before the ageing,
which then passes its entry over. The second argument is the sender. Log entry 49. -/
opaque beaconBeforeAgeing : Nat → Nat → Bool

/-- R174: whether the Output Supervisor's evaluation of the monitor comes before its count of the mode timer at this tick. Log
entry 50. -/
opaque monitorFirst : Nat → Bool

end Sys2Proof.Config
end

