-- ==== Sys2Proof/Machine/Records.lean ====
section
/-! DEFINITION. Machine/Records.lean: the records of the configuration image, as chapters 1 to 9 name their fields. Durations and
points are held in the unit the image stores them in. -/

namespace Sys2Proof.Machine

/-- Kind of a group (Table 1.1). -/
inductive GroupKind where
  | vehicle
  | pedestrian
  deriving DecidableEq, Repr

/-- Aspect shown in FLASHING (Table 1.1). -/
inductive FlashPattern where
  | flashAmber
  | flashRed
  | dark
  deriving DecidableEq, Repr

/-- A phase of the flash generator (R166). -/
inductive Phase where
  | a
  | b
  deriving DecidableEq, Repr

/-- Group record (Table 1.1), durations in tenths. -/
structure GroupRecord where
  enabled : Bool
  kind : GroupKind
  prep : Nat
  minGreen : Nat
  clearance : Nat
  flash : FlashPattern
  phase : Phase
  deriving DecidableEq, Repr

/-- Stage record (R21): passage time in tenths, max green in seconds. -/
structure StageRecord where
  groups : Vector Bool 16
  passage : Nat
  maxGreen : Nat
  enabled : Bool
  deriving DecidableEq, Repr

/-- The per-stage fields of a plan (R22), points in tenths. -/
structure PlanStage where
  recalled : Bool
  permStart : Nat
  permEnd : Nat
  forceOff : Option Nat
  deriving DecidableEq, Repr

/-- Plan record (R22, Table 4.1): cycle length and hold cap in seconds, points in tenths. -/
structure PlanRecord where
  cycle : Nat
  offset : Nat
  coordinated : Option Stage
  yieldStart : Nat
  yieldEnd : Nat
  holdCap : Nat
  stages : Vector PlanStage 8
  deriving DecidableEq, Repr

/-- Kind of a detector (R48). -/
inductive DetectorKind where
  | presence
  | pulse
  | count
  deriving DecidableEq, Repr

/-- Detector record (Table 3.1): filters in tenths, max presence in seconds, no-activity limit in minutes. -/
structure DetectorRecord where
  kind : DetectorKind
  activeHigh : Bool
  onFilter : Nat
  offFilter : Nat
  callGroup : Option Group
  locking : Bool
  extStage : Option Stage
  maxPresence : Nat
  noActivity : Nat
  deriving DecidableEq, Repr

/-- Neighbor record (Tables 7.1, 7.2, 11.9): travel time and headway in tenths. -/
structure NeighborRecord where
  address : Nat
  weight : Nat
  inStage : Option Stage
  travel : Nat
  exitDetector : Option Detector
  outStage : Option Stage
  threshold : Nat
  headway : Nat
  deriving DecidableEq, Repr

/-- Class record (Table 9.1): on-delay and alert ETA in tenths, the other times in seconds; exit stage absent is "continue",
alert target 0 is absent. -/
structure ClassRecord where
  onDelay : Nat
  target : Option Stage
  exit : Option Stage
  minDwell : Nat
  maxDwell : Nat
  inhibit : Nat
  alertTarget : Nat
  alertEta : Nat
  acceptAlerts : Bool
  lineLead : Nat
  lineDwell : Nat
  deriving DecidableEq, Repr

/-- The configuration image (Table 11.9). `intergreen[a][g]` is I(a,g) in tenths, or absent for "no conflict". -/
structure Image where
  address : Nat
  beaconPeriod : Nat
  defaultWeight : Nat
  gainShift : Nat
  deadband : Nat
  slew : Nat
  quorum : Nat
  planHold : Nat
  startFlash : Nat
  startRed : Nat
  startStage : Option Stage
  groups : Vector GroupRecord 16
  intergreen : Vector (Vector (Option Nat) 16) 16
  stages : Vector StageRecord 8
  plans : Vector PlanRecord 4
  detectors : Vector DetectorRecord 24
  neighbors : List NeighborRecord
  classes : Vector ClassRecord 3
  deriving DecidableEq, Repr

/-- Load causes (Table 11.2), in the order of their codes. -/
inductive LoadCause where
  | none
  | overrun
  | mark
  | format
  | length
  | crc
  | address
  | asymmetry
  | intergreen
  | stageConflict
  | stageGroup
  | noStage
  | stageReference
  | cycleLength
  | cyclePoint
  deriving DecidableEq, Repr

end Sys2Proof.Machine
end

