-- ==== Sys2Proof/Machine/State.lean ====
section
/-! DEFINITION. Machine/State.lean: the state of the controller as plain data, block by block (Table 0.1), its values after
power-on, and the reasons a step could stop. Every timer and count is in the unit its chapter gives. -/

namespace Sys2Proof.Machine

/-- Why a step faults. No rule of the manual stops the part: a lamp fault is a mode (R174), a bad image is NO-PLAN FLASH
(R181), a refused maintenance command is answered (R184). So there is no reason, and no command faults (safe). -/
inductive Fault where
  deriving DecidableEq, Repr

/-- Why a step is refused. -/
inductive Refusal where
  /-- Raised by `exec` alone, for a row that has no meaning yet; no row is in that case. Safe. -/
  | notModelled (mnemonic : String)
  deriving DecidableEq, Repr

/-! ## Pins and Time Base -/

/-- The input pins, at the levels of the last sample: detector inputs (bit 0 is detector 1, set is high), request inputs (bit 0
RAIL, set is asserted), lamp sense inputs (bit 0 channel 1 red, then amber, green, channel 2; set is current present), and the
select input of the maintenance port (`selectLow` when a transaction is selected). -/
structure Pins where
  detectors : BitVec 24
  requests : BitVec 3
  sense : BitVec 48
  selectLow : Bool
  deriving DecidableEq, Repr

/-- Time Base (R66): the crystal divider, which stands at 0 whenever it has just produced a tick, and the mark counter M. -/
structure TimeBase where
  divider : Nat
  m : Nat
  deriving DecidableEq, Repr

/-! ## Output Supervisor -/

/-- Station modes (R163), in the order of their codes. -/
inductive Mode where
  | loading
  | noPlanFlash
  | startFlash
  | startRed
  | run
  | flashEntry
  | manualFlash
  | faultFlash
  deriving DecidableEq, Repr

/-- Lamp source of a channel (R167). -/
inductive LampSource where
  | sequencer
  | flash
  | dark
  | noPlanRedFlash
  deriving DecidableEq, Repr

/-- The cause of a latched fault (Table 10.1): a CONFLICT pair, or a MISMATCH lamp of a group's channel. -/
inductive FaultCause where
  | conflict (a b : Group)
  | mismatch (a : Group) (lamp : Lamp)
  deriving DecidableEq, Repr

/-- The fault record (Table 10.1). -/
structure FaultRecord where
  cause : FaultCause
  mode : Mode
  deriving DecidableEq, Repr

/-- Output Supervisor state (Table 10.1). `conflict[a][b]` is used for a < b; `mismatch[ch]` holds red, amber, green. -/
structure OsState where
  mode : Mode
  timer : Nat
  source : Vector LampSource 16
  conflict : Vector (Vector Nat 16) 16
  mismatch : Vector (Vector Nat 3) 16
  fault : Option FaultRecord
  additional : Nat
  deriving DecidableEq, Repr

/-! ## Configuration Loader -/

/-- Load state (Table 11.1). -/
inductive LoadState where
  | readingHeader
  | readingBody
  | ended
  deriving DecidableEq, Repr

/-- Configuration Loader state (Table 11.1), and the bytes read so far of the load in progress. -/
structure CfState where
  image : Option Image
  load : LoadState
  valid : Bool
  overrun : Bool
  cause : LoadCause
  clamped : Nat
  position : Nat
  buffer : List Byte
  deriving DecidableEq, Repr

/-! ## Group Engine -/

/-- Group states (Table 1.2). -/
inductive GroupPhase where
  | off
  | red
  | prep
  | green
  | clearance
  | flashing
  deriving DecidableEq, Repr

/-- The two kinds of leave request (R8). -/
inductive Leave where
  | ordinary
  | truncating
  deriving DecidableEq, Repr

/-- What GE keeps of one group (R3). -/
structure GroupState where
  phase : GroupPhase
  timer : Nat
  minGreenDone : Bool
  e : Nat
  entry : Bool
  leave : Option Leave
  deriving DecidableEq, Repr

/-! ## Stage Sequencer -/

/-- Stage phase (R23). -/
inductive StagePhase where
  | changing
  | complete
  deriving DecidableEq, Repr

/-- Termination causes (R23). -/
inductive TermCause where
  | gap
  | max
  | force
  | yield
  | preempt
  | flash
  deriving DecidableEq, Repr

/-- What the Preemption Unit hands the Stage Sequencer (R43, R44). -/
inductive PeMessage where
  | place (target : Stage) (truncating : Bool)
  | release
  deriving DecidableEq, Repr

/-- Stage Sequencer state (R23). The model's own fields: `entering` (the entering groups of the change in flight, R37),
`changeTruncating` (the kind of the change's leave requests, R37, R38), `yieldWasOpen` (the yield window at the last evaluation,
R35), `arrivals` (what PE has placed and SQ has not yet taken, R24 (3)). -/
structure SqState where
  current : Option Stage
  target : Option Stage
  phase : StagePhase
  latch : Option TermCause
  lastCause : Option TermCause
  passage : Nat
  passageRunning : Bool
  maxTimer : Nat
  maxRunning : Bool
  forceOff : Bool
  hold : Nat
  holdRunning : Bool
  command : Option (Stage × Bool)
  haltRequest : Bool
  calls : Vector Bool 16
  entering : Vector Bool 16
  changeTruncating : Bool
  yieldWasOpen : Bool
  arrivals : List PeMessage
  deriving DecidableEq, Repr

/-! ## Detector Unit -/

/-- Detector states (Table 3.2). -/
inductive DetState where
  | idle
  | occupied
  | failedOn
  | failedQuiet
  deriving DecidableEq, Repr

/-- Running state of one detector (Table 3.2). -/
structure Det where
  filtered : Bool
  count : Nat
  state : DetState
  presence : Nat
  noActivity : Nat
  pending : Bool
  deriving DecidableEq, Repr

/-! ## Cycle Clock -/

/-- Outcome of the last discipline evaluation (R97). -/
inductive EvalOutcome where
  | none
  | noNeighbor
  | zeroed
  | applied
  deriving DecidableEq, Repr

/-- The evaluation record (R97). -/
structure EvalRecord where
  outcome : EvalOutcome
  contributors : Nat
  weight : Nat
  average : Int
  correction : Int
  marks : Nat
  deriving DecidableEq, Repr

/-- What CK hands the Stage Sequencer at a tick (R75). -/
structure WindowReport where
  yieldOpen : Bool
  permissive : Vector Bool 8
  crossed : Vector Bool 8
  deriving DecidableEq, Repr

/-- Cycle Clock state (Table 4.2), the evaluation record (R97) and the report of the last tick (R75). -/
structure CkState where
  active : Option Plan
  pendingPlan : Option Plan
  c : Nat
  o : Nat
  p : Nat
  hold : Nat
  b : Int
  unsync : Bool
  unsyncCount : Nat
  planHold : Nat
  beaconCount : Nat
  record : EvalRecord
  report : WindowReport
  deriving DecidableEq, Repr

/-! ## Line Unit -/

/-- Cause of a FLASH-ALERT (R101). -/
inductive AlertCause where
  | manual
  | fault
  deriving DecidableEq, Repr

/-- A frame offered to the Line Unit, with the fields its sender supplies (R103); a BEACON's fields are sampled later (R111). -/
inductive TxFrame where
  | flashAlert (cause : AlertCause)
  | preemptAlert (target serial eta : Nat)
  | platoon (target serial elapsed duration : Nat)
  | beacon
  deriving DecidableEq, Repr

/-- A queued frame with its time of entry, a number that rises with each placing (R103). -/
structure Queued where
  frame : TxFrame
  entered : Nat
  deriving DecidableEq, Repr

/-- The frame in hand with its attempt count (R106). -/
structure InHand where
  frame : TxFrame
  attempts : Nat
  deriving DecidableEq, Repr

/-- An attempt on the line: the bytes of the frame and the index of the byte whose readback is awaited (R110). -/
structure Sending where
  bytes : List Byte
  next : Nat
  deriving DecidableEq, Repr

/-- Access states (Table 6.3). -/
inductive Access where
  | disabled
  | idle
  | defer
  | backoff
  | sending
  deriving DecidableEq, Repr

/-- Receive assembler (R112); ASSEMBLING holds the bytes so far, from which the kind and the length are read. -/
inductive Assembler where
  | waitFree
  | ready
  | assembling (bytes : List Byte)
  deriving DecidableEq, Repr

/-- The eight counters of the Line Unit (R116). -/
structure LineCounters where
  sent : Nat
  collisions : Nat
  dropped : Nat
  received : Nat
  crcErrors : Nat
  fragments : Nat
  malformed : Nat
  clashes : Nat
  deriving DecidableEq, Repr

/-- Line Unit state (Table 6.5). `busy` is the line state; `nextEntry` numbers the times of entry. -/
structure LuState where
  access : Access
  busy : Bool
  driverEnable : Bool
  inHand : Option InHand
  queue : List Queued
  exponent : Nat
  slots : Nat
  sequence : BitVec 16
  assembler : Assembler
  sending : Option Sending
  counters : LineCounters
  clash : Bool
  nextEntry : Nat
  deriving DecidableEq, Repr

/-! ## Neighbor Table -/

/-- Beacon modes (R101), in the order of their codes. -/
inductive BeaconMode where
  | runCoord
  | runFree
  | preempt
  | flash
  deriving DecidableEq, Repr

/-- The beacon fields of an entry (Table 7.1): all present in HEARD and STALE, all absent in ABSENT. Cycle length and
reference position in ticks. -/
structure LastBeacon where
  mode : BeaconMode
  plan : Plan
  cycle : Nat
  reference : Nat
  period : Nat
  accepting : Bool
  unsync : Bool
  planHold : Bool
  fault : Bool
  cls : Option PreClass
  deriving DecidableEq, Repr

/-- Entry states (Table 7.1). -/
inductive EntryState where
  | absent
  | heard
  | stale
  deriving DecidableEq, Repr

/-- A link record (Table 7.2). -/
structure Link where
  inStage : Option Stage
  travel : Nat
  exitDetector : Option Detector
  outStage : Option Stage
  threshold : Nat
  headway : Nat
  alert : Bool
  deriving DecidableEq, Repr

/-- A neighbor entry (Table 7.1). -/
structure Entry where
  address : Nat
  pinned : Bool
  state : EntryState
  last : Option LastBeacon
  age : Nat
  weight : Nat
  link : Option Link
  deriving DecidableEq, Repr

/-- The Neighbor Table (R119). The model's own field: `passOver` marks the places whose entry the next ageing passes over
(R125). -/
structure NtState where
  places : Vector (Option Entry) 8
  refused : Nat
  passOver : Vector Bool 8
  deriving DecidableEq, Repr

/-! ## Platoon Unit -/

/-- A notice of the platoon queue (R139); `arrival` is the order of its arrival. -/
structure Notice where
  sender : Nat
  serial : Nat
  stage : Stage
  t : Nat
  remaining : Nat
  active : Bool
  arrival : Nat
  deriving DecidableEq, Repr

/-- Send state of a link with an outbound part (R134). -/
structure LinkSend where
  green : Bool
  greenTimer : Nat
  exitCount : Nat
  sent : Bool
  serial : Nat
  deriving DecidableEq, Repr

/-- Platoon Unit state (R134, R139, R143, R145); `links` by the place of the pinned entry, `nextArrival` numbers the arrivals. -/
structure PlState where
  queue : List Notice
  accepting : Bool
  links : Vector (Option LinkSend) 8
  withheld : Nat
  unlinked : Nat
  stale : Nat
  overflow : Nat
  nextArrival : Nat
  deriving DecidableEq, Repr

/-! ## Preemption Unit -/

/-- Request states (R149). -/
inductive Request where
  | none
  | requestedLocal
  | requestedLine
  | lockedOut
  | inhibited
  deriving DecidableEq, Repr

/-- Service phases (R152). -/
inductive ServicePhase where
  | entry
  | dwell
  | exit
  deriving DecidableEq, Repr

/-- A class's request state and its request input's filter (R148, R149). -/
structure ClassState where
  request : Request
  filtered : Bool
  count : Nat
  deriving DecidableEq, Repr

/-- The active service (R152); `fromLine` is its origin; `byMax` says that it left DWELL at max dwell (R154). -/
structure Service where
  cls : PreClass
  phase : ServicePhase
  elapsed : Nat
  remaining : Nat
  fromLine : Bool
  alertSent : Bool
  byMax : Bool
  deriving DecidableEq, Repr

/-- A record of the service stack (R155). -/
structure Stacked where
  cls : PreClass
  remaining : Nat
  phase : ServicePhase
  fromLine : Bool
  deriving DecidableEq, Repr

/-- The pending line alert (R159). -/
structure LineAlert where
  sender : Nat
  serial : Nat
  countdown : Nat
  deriving DecidableEq, Repr

/-- Preemption Unit state (Table 9.3). -/
structure PeState where
  classes : Vector ClassState 3
  inhibit : Nat
  lineDwell : Nat
  service : Option Service
  stack : List Stacked
  command : Option (Stage × Bool)
  alert : Option LineAlert
  alertSerial : Nat
  withheld : Nat
  ignored : Nat
  deriving DecidableEq, Repr

/-! ## Maintenance Port -/

/-- Transaction states (R182). -/
inductive MpPhase where
  | idle
  | code
  | arguments
  | pending
  | answer
  deriving DecidableEq, Repr

/-- Maintenance Port state (R182, R183): the transaction, the bytes still to shift out, the byte last shifted out, whether a
reset makes it ignore the rest of the select period, and the answer of the last delivered command. -/
structure MpState where
  phase : MpPhase
  code : Byte
  args : List Byte
  shift : List Byte
  miso : Byte
  ignoring : Bool
  response : List Byte
  deriving DecidableEq, Repr

/-! ## The whole machine -/

/-- The controller: the model's counter of free values, the pins, the twelve blocks of Table 0.1 and the commands waiting. -/
structure State where
  free : Nat
  pins : Pins
  tb : TimeBase
  os : OsState
  cf : CfState
  ge : Vector GroupState 16
  sq : SqState
  du : Vector Det 24
  ck : CkState
  lu : LuState
  nt : NtState
  pl : PlState
  pe : PeState
  mp : MpState
  pending : List Instr
  deriving DecidableEq, Repr

/-! ## Values after power-on -/

/-- R163: Output Supervisor after power-on. -/
def OsState.reset : OsState :=
  { mode := .loading, timer := 0, source := tab 16 fun _ => .noPlanRedFlash,
    conflict := tab 16 fun _ => tab 16 fun _ => 0, mismatch := tab 16 fun _ => tab 3 fun _ => 0,
    fault := none, additional := 0 }

/-- R177: Configuration Loader at the start of a load. -/
def CfState.reset : CfState :=
  { image := none, load := .readingHeader, valid := false, overrun := false, cause := .none, clamped := 0, position := 0,
    buffer := [] }

/-- R18: a group after power-on. -/
def GroupState.reset : GroupState :=
  { phase := .off, timer := 0, minGreenDone := false, e := 255, entry := false, leave := none }

/-- R23: Stage Sequencer after power-on. -/
def SqState.reset : SqState :=
  { current := none, target := none, phase := .changing, latch := none, lastCause := none, passage := 0,
    passageRunning := false, maxTimer := 0, maxRunning := false, forceOff := false, hold := 0, holdRunning := false,
    command := none, haltRequest := false, calls := tab 16 fun _ => false, entering := tab 16 fun _ => false,
    changeTruncating := false, yieldWasOpen := false, arrivals := [] }

/-- R64: a detector after power-on. -/
def Det.reset : Det :=
  { filtered := false, count := 0, state := .idle, presence := 0, noActivity := 0, pending := false }

/-- R97: the evaluation record after power-on. -/
def EvalRecord.reset : EvalRecord :=
  { outcome := .none, contributors := 0, weight := 0, average := 0, correction := 0, marks := 0 }

/-- R75: the report while no coordinated plan is active. -/
def WindowReport.closed : WindowReport :=
  { yieldOpen := false, permissive := tab 8 fun _ => false, crossed := tab 8 fun _ => false }

/-- Table 4.3, first column. -/
def CkState.reset : CkState :=
  { active := none, pendingPlan := none, c := 0, o := 0, p := 0, hold := 0, b := 0, unsync := false, unsyncCount := 0,
    planHold := 0, beaconCount := 0, record := EvalRecord.reset, report := WindowReport.closed }

/-- R116: the counters after power-on. -/
def LineCounters.reset : LineCounters :=
  { sent := 0, collisions := 0, dropped := 0, received := 0, crcErrors := 0, fragments := 0, malformed := 0, clashes := 0 }

/-- Table 6.5, first column. The slot count, which the table does not name, is 0 (log entry 54). -/
def LuState.reset : LuState :=
  { access := .disabled, busy := true, driverEnable := false, inHand := none, queue := [], exponent := 2, slots := 0,
    sequence := 0, assembler := .waitFree, sending := none, counters := LineCounters.reset, clash := false, nextEntry := 0 }

/-- Table 7.3: an empty table. -/
def NtState.reset : NtState := { places := tab 8 fun _ => none, refused := 0, passOver := tab 8 fun _ => false }

/-- Table 8.1, first row. -/
def PlState.reset : PlState :=
  { queue := [], accepting := true, links := tab 8 fun _ => none, withheld := 0, unlinked := 0, stale := 0, overflow := 0,
    nextArrival := 0 }

/-- Table 9.3: one class after power-on. -/
def ClassState.reset : ClassState := { request := .none, filtered := false, count := 0 }

/-- Table 9.3, first column. -/
def PeState.reset : PeState :=
  { classes := tab 3 fun _ => ClassState.reset, inhibit := 0, lineDwell := 0, service := none, stack := [], command := none,
    alert := none, alertSerial := 0, withheld := 0, ignored := 0 }

/-- R182: no transaction. -/
def MpState.reset : MpState :=
  { phase := .idle, code := 0, args := [], shift := [], miso := 0, ignoring := false, response := [] }

/-- The machine right after reset: each block at the values its chapter gives for power-on, a load just begun (R177), every
input pin at its inactive level (log entry 5) and no command waiting. -/
def State.reset : State :=
  { free := 0, pins := { detectors := 0, requests := 0, sense := 0, selectLow := false }, tb := { divider := 0, m := 0 },
    os := OsState.reset, cf := CfState.reset, ge := tab 16 fun _ => GroupState.reset, sq := SqState.reset,
    du := tab 24 fun _ => Det.reset, ck := CkState.reset, lu := LuState.reset, nt := NtState.reset, pl := PlState.reset,
    pe := PeState.reset, mp := MpState.reset, pending := [] }

/-! ## One update per block -/

def State.withFree (s : State) (x : Nat) : State := { s with free := x }
def State.withPins (s : State) (x : Pins) : State := { s with pins := x }
def State.withTb (s : State) (x : TimeBase) : State := { s with tb := x }
def State.withOs (s : State) (x : OsState) : State := { s with os := x }
def State.withCf (s : State) (x : CfState) : State := { s with cf := x }
def State.withGe (s : State) (x : Vector GroupState 16) : State := { s with ge := x }
def State.withSq (s : State) (x : SqState) : State := { s with sq := x }
def State.withDu (s : State) (x : Vector Det 24) : State := { s with du := x }
def State.withCk (s : State) (x : CkState) : State := { s with ck := x }
def State.withLu (s : State) (x : LuState) : State := { s with lu := x }
def State.withNt (s : State) (x : NtState) : State := { s with nt := x }
def State.withPl (s : State) (x : PlState) : State := { s with pl := x }
def State.withPe (s : State) (x : PeState) : State := { s with pe := x }
def State.withMp (s : State) (x : MpState) : State := { s with mp := x }
def State.withPending (s : State) (x : List Instr) : State := { s with pending := x }

end Sys2Proof.Machine
end

