-- ==== Sys2Proof/Machine/Ops.lean ====
section
/-! DEFINITION. Machine/Ops.lean: the operations every block shares: bytes and check sequences, what the blocks read of the
image and of each other, and the requests and calls that other blocks place. -/

namespace Sys2Proof.Machine

/-! ## Events and their conditions -/

/-- The state after an event whose condition is `c`: where the condition does not stand the event does not take place and
nothing changes (log entry 4). -/
def whenDue (c : Bool) (after s : State) : State := if c then after else s

/-! ## Bytes (R186) -/

/-- A number as `k` bytes, high byte first. -/
def beBytes : Nat → Nat → List Byte
  | 0, _ => []
  | k + 1, v => beBytes k (v / 256) ++ [BitVec.ofNat 8 v]

/-- Two bytes, high byte first, as a number. -/
def u16 (hi lo : Byte) : Nat := hi.toNat * 256 + lo.toNat

/-- A signed number in 16 bits of two's complement. -/
def signed16 (x : Int) : Nat := (x % 65536).toNat

/-- Items of `w` bits packed with item 1 lowest. -/
def packItems (w : Nat) : List Nat → Nat
  | [] => 0
  | x :: rest => x + 2 ^ w * packItems w rest

/-- A flag as a bit. -/
def bit (b : Bool) : Nat := if b then 1 else 0

/-- The number of an optional item, 0 when absent (R186). -/
def optNum {n : Nat} (x : Option (Fin n)) : Nat :=
  match x with
  | some i => i.val + 1
  | none => 0

/-- The item a structural code names, absent outside 1 to n (R180). -/
def codeItem (n code : Nat) : Option (Fin n) :=
  if h : 0 < code ∧ code ≤ n then some ⟨code - 1, by omega⟩ else none

/-! ## Check sequence (R102) -/

/-- One bit into the check register: a shift toward the high end, and 8005h where the bit shifted out differs from the data. -/
def crcBit (reg : BitVec 16) (bit : Bool) : BitVec 16 :=
  if (reg.getLsbD 15) != bit then (reg <<< 1) ^^^ 0x8005#16 else reg <<< 1

/-- One byte, most significant bit first. -/
def crcByte (reg : BitVec 16) (b : Byte) : BitVec 16 :=
  [7, 6, 5, 4, 3, 2, 1, 0].foldl (fun r i => crcBit r (b.getLsbD i)) reg

/-- The check sequence of a run of bytes. -/
def crc (bytes : List Byte) : BitVec 16 := bytes.foldl crcByte 0xFFFF#16

/-- The check sequence as its two bytes. -/
def crcBytes (bytes : List Byte) : List Byte := beBytes 2 (crc bytes).toNat

/-! ## Reading the image -/

/-- Rank of a class, 0 the highest (R149). -/
def classIndex : PreClass → Fin 3
  | .rail => 0
  | .emergency => 1
  | .transit => 2

/-- `c` is of a higher class than `d`. -/
def higherClass (c d : PreClass) : Bool := (classIndex c).val < (classIndex d).val

/-- The class record of `c`. -/
def Image.cls (img : Image) (c : PreClass) : ClassRecord := img.classes[classIndex c]

/-- R2: the intergreen time of the ordered pair, absent for "no conflict" and on the diagonal. -/
def Image.inter (img : Image) (a g : Group) : Option Nat := if a = g then none else img.intergreen[a][g]

/-- R2: `a` and `g` are conflicting. -/
def Image.conflicts (img : Image) (a g : Group) : Bool := (img.inter a g).isSome

/-- A plan is coordinated when its cycle length is not 0. -/
def PlanRecord.isCoordinated (r : PlanRecord) : Bool := r.cycle != 0

/-- The record of the active plan, absent while none is active. -/
def activePlan (s : State) : Option PlanRecord :=
  match s.cf.image, s.ck.active with
  | some img, some p => some img.plans[p]
  | _, _ => none

/-- The active plan is coordinated. -/
def coordinatedActive (s : State) : Bool :=
  match activePlan s with
  | some r => r.isCoordinated
  | none => false

/-- The coordinated stage of a coordinated active plan. -/
def coordinatedStage (s : State) : Option Stage :=
  match activePlan s with
  | some r => if r.isCoordinated then r.coordinated else none
  | none => none

/-- `g` belongs to stage `st` of the image in use. -/
def inStage (s : State) (st : Stage) (g : Group) : Bool :=
  match s.cf.image with
  | some img => img.stages[st].groups[g]
  | none => false

/-- Group `g` is enabled in the image in use. -/
def groupEnabled (s : State) (g : Group) : Bool :=
  match s.cf.image with
  | some img => img.groups[g].enabled
  | none => false

/-! ## Marks (R66) -/

/-- The tick is a tenth mark. -/
def tenthMark (s : State) : Bool := s.tb.m % 10 == 0
/-- The tick is a second mark. -/
def secondMark (s : State) : Bool := s.tb.m % 100 == 0
/-- The tick is a discipline mark. -/
def disciplineMark (s : State) : Bool := s.tb.m == 0

/-- R166: the phase of the flash generator. -/
def flashPhase (s : State) : Phase := if s.tb.m % 100 < 50 then .a else .b

/-! ## Requests on groups (R7, R8) and calls (R25) -/

/-- Right-of-way: PREP, GREEN or CLEARANCE (Table 1.2). -/
def GroupPhase.rightOfWay : GroupPhase → Bool
  | .prep | .green | .clearance => true
  | .off | .red | .flashing => false

/-- Two leave requests combined: truncating when either is (R8). -/
def Leave.combine (held : Option Leave) (kind : Leave) : Leave :=
  match held, kind with
  | some .truncating, _ => .truncating
  | _, k => k

/-- A leave request placed on a group (R8). -/
def addLeave (kind : Leave) (g : GroupState) : GroupState := { g with leave := some (Leave.combine g.leave kind) }

/-- A leave request placed on a group that holds none. -/
def addLeaveIfNone (kind : Leave) (g : GroupState) : GroupState :=
  match g.leave with
  | none => { g with leave := some kind }
  | some _ => g

/-- A held leave request withdrawn while the group is in GREEN or PREP (R8). -/
def withdrawLeave (g : GroupState) : GroupState :=
  match g.phase with
  | .green | .prep => { g with leave := none }
  | _ => g

/-- A truncating leave request held in GREEN or PREP replaced by an ordinary one (R44). -/
def downgradeLeave (g : GroupState) : GroupState :=
  match g.phase, g.leave with
  | .green, some .truncating | .prep, some .truncating => { g with leave := some .ordinary }
  | _, _ => g

/-- An entry request placed on a group: discarded on arrival while the mode is not RUN (R7, R15). -/
def addEntry (mode : Mode) (g : GroupState) : GroupState := if mode = .run then { g with entry := true } else g

/-- A held entry request withdrawn (R7). -/
def withdrawEntry (g : GroupState) : GroupState := { g with entry := false }

/-- Each group changed by `f`. -/
def mapGroups (f : Group → GroupState → GroupState) (s : State) : State :=
  s.withGe (tab 16 fun g => f g s.ge[g])

/-- GE's new group states: a latched call is cleared at the tick at which its group enters GREEN (R25). -/
def installGroups (ge : Vector GroupState 16) (s : State) : State :=
  (s.withGe ge).withSq { s.sq with
    calls := tab 16 fun g => s.sq.calls[g] && !(ge[g].phase == .green && s.ge[g].phase != .green) }

/-- R25: a write to the call set, ignored for a group in GREEN and for a group that is OFF. -/
def writeCall (g : Group) (s : State) : State :=
  match s.ge[g].phase with
  | .green | .off => s
  | _ => s.withSq { s.sq with calls := put s.sq.calls g true }

/-- R142 (1): a write to each group of a stage. -/
def writeStageCalls (st : Stage) (s : State) : State :=
  (List.finRange 16).foldl (fun s g => if inStage s st g then writeCall g s else s) s

/-! ## Stage Sequencer readings used by other blocks -/

/-- The stage is current and COMPLETE (R39). -/
def stageComplete (s : State) (st : Stage) : Bool := s.sq.phase == .complete && s.sq.current == some st

/-- Every group is in RED or OFF (R45). -/
def allRedOrOff (s : State) : Bool :=
  (List.finRange 16).all fun g => s.ge[g].phase == .red || s.ge[g].phase == .off

end Sys2Proof.Machine
end

