-- ==== Sys2Proof/Machine/Groups.lean ====
section
/-! DEFINITION. Machine/Groups.lean: the Group Engine (chapter 1). -/

namespace Sys2Proof.Machine

/-! ## The steps of one group -/

/-- R11: the end of PREP; in FLASH ENTRY the group is given an ordinary leave request unless it holds one (R15). -/
def endPrep (r : GroupRecord) (mode : Mode) (g : GroupState) : GroupState :=
  let g' := { g with phase := .green, timer := r.minGreen, minGreenDone := false, entry := false }
  if mode = .flashEntry then addLeaveIfNone .ordinary g' else g'

/-- R12: the minimum green has run. -/
def endMinGreen (g : GroupState) : GroupState := { g with timer := 0, minGreenDone := true }

/-- R13: the start of CLEARANCE. -/
def startClearance (r : GroupRecord) (g : GroupState) : GroupState :=
  { g with phase := .clearance, timer := r.clearance, minGreenDone := false, e := 0, leave := none }

/-- R13: a group in GREEN takes its held leave request if it may. -/
def takeLeave (r : GroupRecord) (g : GroupState) : GroupState :=
  match g.leave with
  | some .truncating => startClearance r g
  | some .ordinary => if g.minGreenDone then startClearance r g else g
  | none => g

/-- R14: the end of CLEARANCE. -/
def endClearance (g : GroupState) : GroupState := { g with phase := .red, timer := 0 }

/-- R7, R8: held requests that do not fit the group's state are discarded. -/
def discardRequests (g : GroupState) : GroupState :=
  match g.phase with
  | .red | .clearance => { g with leave := none }
  | .prep | .green => { g with entry := false }
  | .off | .flashing => { g with entry := false, leave := none }

/-- R6: the green-end elapsed count at a tenth mark. -/
def advanceE (g : GroupState) : GroupState :=
  { g with e := if g.phase = .off then 255 else satInc 255 g.e }

/-- R5: the interval timer at a tenth mark. -/
def countTimer (g : GroupState) : GroupState := { g with timer := g.timer - 1 }

/-- R4 (1), R5, R11 to R14: what the count of the timer brings about. -/
def actOnTimer (r : GroupRecord) (mode : Mode) (g : GroupState) : GroupState :=
  match g.phase with
  | .prep => if g.timer = 0 then endPrep r mode g else g
  | .green => takeLeave r (if g.timer = 0 && !g.minGreenDone then endMinGreen g else g)
  | .clearance => if g.timer = 0 then endClearance g else g
  | .off | .red | .flashing => g

/-- R4 (1): the first pass for one group. -/
def firstPass (r : GroupRecord) (mode : Mode) (g : GroupState) : GroupState :=
  discardRequests (actOnTimer r mode (countTimer (advanceE g)))

/-! ## The intergreen gate -/

/-- R9: conflicting group `a` lets `g` pass. -/
def gateClear (img : Image) (ge : Vector GroupState 16) (g a : Group) : Bool :=
  match img.inter a g with
  | none => true
  | some i => (ge[a].phase == .red || ge[a].phase == .off) && i ≤ img.groups[g].prep + ge[a].e

/-- R9: the gate of `g` opens. -/
def gateOpen (img : Image) (ge : Vector GroupState 16) (g : Group) : Bool :=
  (List.finRange 16).all (gateClear img ge g)

/-- R9: what the opening of the gate does to the group. -/
def passGate (r : GroupRecord) (g : GroupState) : GroupState :=
  if 0 < r.prep then { g with phase := .prep, timer := r.prep, entry := false, minGreenDone := false }
  else { g with phase := .green, timer := r.minGreen, entry := false, minGreenDone := false }

/-- R9, R15: the evaluation of one group in the second pass. -/
def tryGate (img : Image) (mode : Mode) (ge : Vector GroupState 16) (g : Group) : Vector GroupState 16 :=
  if mode = .run && ge[g].phase == .red && ge[g].entry && gateOpen img ge g then
    put ge g (passGate img.groups[g] ge[g])
  else ge

/-- R4 (2), R10: the second pass, in ascending order of group number. -/
def secondPass (img : Image) (mode : Mode) (ge : Vector GroupState 16) : Vector GroupState 16 :=
  (List.finRange 16).foldl (tryGate img mode) ge

/-- R4: the update of every group at a tenth mark. -/
def groupUpdate (img : Image) (mode : Mode) (ge : Vector GroupState 16) : Vector GroupState 16 :=
  secondPass img mode (tab 16 fun g => firstPass img.groups[g] mode ge[g])

/-- GE's work of a tick. -/
def geWork (s : State) : State :=
  match s.cf.image with
  | none => s
  | some img => if tenthMark s then installGroups (groupUpdate img s.os.mode s.ge) s else s

/-! ## Groups and the station mode -/

/-- R16: forcing to FLASHING. -/
def forceFlashing (s : State) : State :=
  mapGroups (fun g st => if groupEnabled s g then
    { st with phase := .flashing, timer := 0, minGreenDone := false, entry := false, leave := none } else st) s

/-- R17: start red. -/
def groupsStartRed (s : State) : State :=
  mapGroups (fun g st => if groupEnabled s g then
    { st with phase := .red, timer := 0, minGreenDone := false, entry := false, leave := none } else st) s

/-- R18: every group OFF. -/
def groupsOff (s : State) : State := s.withGe (tab 16 fun _ => GroupState.reset)

/-- R15: entry requests are cleared when the mode leaves RUN. -/
def clearEntries (s : State) : State := mapGroups (fun _ st => withdrawEntry st) s

/-- R15: the leave requests GE gives when FLASH ENTRY begins. -/
def flashEntryLeaves (s : State) : State :=
  mapGroups (fun _ st => if st.phase = .green then addLeaveIfNone .ordinary st else st) s

/-! ## Events of one group -/

/-- One group replaced, with the call set following it (R25). -/
def installGroup (g : Group) (x : GroupState) (s : State) : State := installGroups (put s.ge g x) s

/-- PREP_END (R11): the count that brings the interval timer of a group in PREP to 0. -/
def execPrepEnd (g : Group) (s : State) : Host.Outcome State Fault Refusal :=
  .next <| match s.cf.image with
  | none => s
  | some img =>
    whenDue (s.ge[g].phase == .prep && s.ge[g].timer ≤ 1)
      (installGroup g (discardRequests (endPrep img.groups[g] s.os.mode s.ge[g])) s) s

/-- MIN_GREEN_END (R12): the count that ends the minimum green; a held leave request is then examined (R13). -/
def execMinGreenEnd (g : Group) (s : State) : Host.Outcome State Fault Refusal :=
  .next <| match s.cf.image with
  | none => s
  | some img =>
    whenDue (s.ge[g].phase == .green && !s.ge[g].minGreenDone && s.ge[g].timer ≤ 1)
      (installGroup g (discardRequests (takeLeave img.groups[g] (endMinGreen s.ge[g]))) s) s

/-- CLEARANCE_END (R14): the count that ends a clearance; the gate may open for the group at that same mark. -/
def execClearanceEnd (g : Group) (s : State) : Host.Outcome State Fault Refusal :=
  .next <| match s.cf.image with
  | none => s
  | some img =>
    whenDue (s.ge[g].phase == .clearance && s.ge[g].timer ≤ 1)
      (installGroups (tryGate img s.os.mode (put s.ge g (discardRequests (endClearance s.ge[g]))) g) s) s

/-! ## Commanded lamp pattern (R19) -/

/-- A lamp command (Table 11.6). -/
inductive LampCommand where
  | off
  | steady
  | flashing (phase : Phase)
  deriving DecidableEq, Repr

/-- The lamp is commanded flashing, in either phase. -/
def LampCommand.flashes : LampCommand → Bool
  | .flashing _ => true
  | .off | .steady => false

/-- The flash pattern of a group record on one lamp (R19, R167). -/
def flashCommand (r : GroupRecord) (l : Lamp) : LampCommand :=
  match r.flash, l with
  | .flashAmber, .amber | .flashRed, .red => .flashing r.phase
  | _, _ => .off

/-- Table 1.4. -/
def groupLamp (r : GroupRecord) (st : GroupPhase) (l : Lamp) : LampCommand :=
  match st, r.kind, l with
  | .red, _, .red => .steady
  | .prep, .vehicle, .red | .prep, .vehicle, .amber => .steady
  | .green, _, .green => .steady
  | .clearance, .vehicle, .amber => .steady
  | .clearance, .pedestrian, .red => .flashing r.phase
  | .flashing, _, l => flashCommand r l
  | _, _, _ => .off

end Sys2Proof.Machine
end

