-- ==== Sys2Proof/Machine/Flags.lean ====
section
/-! DEFINITION. Machine/Flags.lean: the conditions the blocks work out afresh from the state each time they need them: demand,
extension, windows, qualifying neighbors, what the lamps are commanded and lit. -/

namespace Sys2Proof.Machine

/-! ## Demand and extension (R26 to R28, R61, R142) -/

/-- A detector judged failed (R61). -/
def DetState.failed : DetState → Bool
  | .failedOn | .failedQuiet => true
  | .idle | .occupied => false

/-- R26, R53, R61: detector `d` gives demand to `g` by occupancy or failure. -/
def detectorDemand (img : Image) (s : State) (g : Group) (d : Detector) : Bool :=
  let r := img.detectors[d]
  r.callGroup == some g &&
    (s.du[d].state.failed || (r.kind == .presence && !r.locking && s.du[d].state == .occupied))

/-- R26: the group has demand. -/
def groupDemand (s : State) (g : Group) : Bool :=
  match s.cf.image with
  | none => false
  | some img =>
    s.ge[g].phase != .off &&
      (s.sq.calls[g] || (List.finRange 24).any (detectorDemand img s g) ||
        s.pl.queue.any fun n => n.active && inStage s n.stage g)

/-- R27 (2): the stage is recalled in the active plan. -/
def stageRecalled (s : State) (st : Stage) : Bool :=
  match activePlan s with
  | some r => r.stages[st].recalled || coordinatedStage s == some st
  | none => false

/-- R27: the stage has demand. -/
def stageDemand (s : State) (st : Stage) : Bool :=
  ((List.finRange 16).any fun g => inStage s st g && s.ge[g].phase != .green && groupDemand s g) || stageRecalled s st

/-- R29: some stage other than `st` has demand. -/
def otherDemand (s : State) (st : Stage) : Bool :=
  (List.finRange 8).any fun t => t != st && stageDemand s t

/-- R28: some extension input of the stage is active. -/
def extensionActive (s : State) (st : Stage) : Bool :=
  match s.cf.image with
  | none => false
  | some img =>
    ((List.finRange 24).any fun d => img.detectors[d].extStage == some st &&
        (s.du[d].state == .occupied || s.du[d].state.failed)) ||
      s.pl.queue.any fun n => n.active && n.stage == st

/-- R35: a platoon hold applies. -/
def platoonHold (s : State) : Bool :=
  s.pl.queue.any fun n => n.active && coordinatedStage s == some n.stage

/-- R31, R33: every group of the stage has min-green-done set. -/
def minGreensDone (s : State) (st : Stage) : Bool :=
  (List.finRange 16).all fun g => !inStage s st g || s.ge[g].minGreenDone

/-- R39: every group of the stage is in GREEN. -/
def stageGreen (s : State) (st : Stage) : Bool :=
  (List.finRange 16).all fun g => !inStage s st g || s.ge[g].phase == .green

/-! ## Next-stage selection (R36) -/

/-- R36: the seven stages that follow `st` in cyclic order. -/
def followers (st : Stage) : List Stage := (List.finRange 7).map fun k => st + 1 + ⟨k.val, by omega⟩

/-- R36: the candidate passes. -/
def candidatePasses (s : State) (t : Stage) : Bool :=
  match s.cf.image with
  | none => false
  | some img =>
    img.stages[t].enabled && stageDemand s t &&
      (!coordinatedActive s || coordinatedStage s == some t || s.ck.report.permissive[t])

/-- R36: the stage next-stage selection chooses. -/
def selectNext (s : State) : Option Stage :=
  match s.sq.current with
  | none => none
  | some st => (followers st).find? (candidatePasses s)

/-! ## Neighbors (R79, R127) -/

/-- The places of the table in order. -/
def places : List Place := List.finRange 8

/-- The entry with this address. -/
def entryOf (s : State) (address : Nat) : Option Entry :=
  (places.filterMap fun p => s.nt.places[p]).find? fun e => e.address == address

/-- R79: the entry qualifies for jump-in and discipline with cycle length `c`. -/
def qualifies (c : Nat) (e : Entry) : Bool :=
  match e.state, e.last with
  | .heard, some b => b.cycle == c && (b.mode == .runCoord || b.mode == .preempt) && !b.unsync && 1 ≤ e.weight
  | _, _ => false

/-- The entries that qualify, in place order (R87). -/
def contributors (s : State) : List Entry :=
  (places.filterMap fun p => s.nt.places[p]).filter (qualifies s.ck.c)

/-! ## Lamps (R19, R167, R173) -/

/-- What a lamp is commanded, by its channel's source. -/
def lampCommand (s : State) (ch : Group) (l : Lamp) : LampCommand :=
  match s.os.source[ch], s.cf.image with
  | .sequencer, some img => groupLamp img.groups[ch] s.ge[ch].phase l
  | .flash, some img => flashCommand img.groups[ch] l
  | .noPlanRedFlash, _ => if l = .red then .flashing .a else .off
  | _, _ => .off

/-- R167: the level of a lamp drive output. -/
def lampOutput (s : State) (ch : Group) (l : Lamp) : Bool :=
  match lampCommand s ch l with
  | .off => false
  | .steady => true
  | .flashing p => flashPhase s == p

/-- Index of a lamp within its channel: red, amber, green. -/
def lampIndex : Lamp → Fin 3
  | .red => 0
  | .amber => 1
  | .green => 2

/-- The lamps of a channel in order. -/
def lamps : List Lamp := [.red, .amber, .green]

/-- The lamp's sense input shows current present. -/
def sensed (s : State) (ch : Group) (l : Lamp) : Bool := s.pins.sense.getLsbD (3 * ch.val + (lampIndex l).val)

/-! ## Preemption (R149) -/

/-- The state of one class. -/
def PeState.cls (pe : PeState) (c : PreClass) : ClassState := pe.classes[classIndex c]

/-- The class is requested. -/
def PeState.requested (pe : PeState) (c : PreClass) : Bool :=
  (pe.cls c).request == .requestedLocal || (pe.cls c).request == .requestedLine

/-- The highest requested class. -/
def PeState.highestRequested (pe : PeState) : Option PreClass :=
  [PreClass.rail, .emergency, .transit].find? pe.requested

/-- R168: a RAIL service is active, in any phase. -/
def railActive (s : State) : Bool :=
  match s.pe.service with
  | some v => v.cls == .rail
  | none => false

/-! ## The monitor (R171 to R173) -/

/-- The modes in which the monitor is active. -/
def Mode.monitored : Mode → Bool
  | .startRed | .run | .flashEntry => true
  | _ => false

/-- R172: the group shows right-of-way by its sensed lamps. -/
def showsRightOfWay (img : Image) (s : State) (g : Group) : Bool :=
  match img.groups[g].kind with
  | .vehicle => sensed s g .green || sensed s g .amber
  | .pedestrian => sensed s g .green

/-- R173: the lamp disagrees with its command. -/
def lampDisagrees (s : State) (ch : Group) (l : Lamp) : Bool :=
  match lampCommand s ch l with
  | .steady => !sensed s ch l
  | .off => sensed s ch l
  | .flashing _ => false

end Sys2Proof.Machine
end

