-- ==== Sys2Proof/Machine/Line.lean ====
section
/-! DEFINITION. Machine/Line.lean: the Line Unit's sending side (chapter 6): frames, the transmit queue, access and backoff. -/

namespace Sys2Proof.Machine

/-! ## Frames (R101, R102, Table 11.7) -/

/-- Code of a preemption class (Table 11.6), 0 for none. -/
def classCode : Option PreClass → Nat
  | none => 0
  | some .rail => 1
  | some .emergency => 2
  | some .transit => 3

/-- Code of a beacon mode (Table 11.6). -/
def beaconModeCode : BeaconMode → Nat
  | .runCoord => 1
  | .runFree => 2
  | .preempt => 3
  | .flash => 4

/-- R69: the reference position R. -/
def reference (s : State) : Nat := if s.ck.c = 0 then 0 else (s.ck.p + s.ck.c - s.ck.o % s.ck.c) % s.ck.c

/-- R82: the mode a beacon carries. -/
def beaconMode (s : State) : BeaconMode :=
  if s.os.mode ≠ .run then .flash
  else if s.pe.service.isSome then .preempt
  else if coordinatedActive s then .runCoord
  else .runFree

/-- R143: ACCEPTING-PLATOONS as the Platoon Unit supplies it. -/
def acceptingFlag (s : State) : Bool := s.pl.accepting && (s.os.mode == .startRed || s.os.mode == .run)

/-- The flags byte of a beacon (Table 11.7). -/
def beaconFlags (accepting unsync planHold fault : Bool) (cls : Option PreClass) : Nat :=
  bit accepting + 2 * bit unsync + 4 * bit planHold + 8 * bit fault + 16 * classCode cls

/-- The class of the active service in any phase, or none (R162). -/
def activeClass (s : State) : Option PreClass := s.pe.service.map fun v => v.cls

/-- R82, R111: a beacon's fields as they stand at this moment. -/
def beaconFields (s : State) : List Byte :=
  [BitVec.ofNat 8 (beaconModeCode (beaconMode s)), BitVec.ofNat 8 (optNum s.ck.active), BitVec.ofNat 8 (s.ck.c / 100)] ++
  beBytes 2 (reference s) ++
  [BitVec.ofNat 8 (match s.cf.image with | some img => img.beaconPeriod | none => 0),
   BitVec.ofNat 8 (beaconFlags (acceptingFlag s) s.ck.unsync (0 < s.ck.planHold) (s.os.mode == .faultFlash) (activeClass s))]

/-- Code of a frame kind (Table 11.6). -/
def kindCode : TxFrame → Nat
  | .flashAlert _ => 0x51
  | .preemptAlert .. => 0x52
  | .platoon .. => 0x53
  | .beacon => 0x54

/-- Rank of a frame kind, first to be sent first (00_scope, convention 7). -/
def kindRank : TxFrame → Nat
  | .flashAlert _ => 0
  | .preemptAlert .. => 1
  | .platoon .. => 2
  | .beacon => 3

/-- The target of a frame, 0 for a kind that has none. -/
def frameTarget : TxFrame → Nat
  | .flashAlert _ | .beacon => 0
  | .preemptAlert t _ _ => t
  | .platoon t _ _ _ => t

/-- The fields of a frame after its kind (Table 11.7). -/
def frameFields (s : State) : TxFrame → List Byte
  | .flashAlert .manual => [1]
  | .flashAlert .fault => [2]
  | .preemptAlert t n eta => [BitVec.ofNat 8 t, BitVec.ofNat 8 n, 2] ++ beBytes 2 eta
  | .platoon t n e d => [BitVec.ofNat 8 t, BitVec.ofNat 8 n] ++ beBytes 2 e ++ beBytes 2 d ++ [0]
  | .beacon => beaconFields s

/-- The station address of the image in use. -/
def stationAddress (s : State) : Nat :=
  match s.cf.image with
  | some img => img.address
  | none => 0

/-- R101: the whole frame, lead byte to check sequence. -/
def frameBytes (s : State) (f : TxFrame) : List Byte :=
  let body := [BitVec.ofNat 8 (stationAddress s), BitVec.ofNat 8 (kindCode f)] ++ frameFields s f
  (0xC3 : Byte) :: (body ++ crcBytes body)

/-! ## The transmit queue (R103 to R105) -/

/-- The Line Unit's answer to an offer (R104). -/
inductive Answer where
  | placed
  | replaced
  | refused
  | discarded
  deriving DecidableEq, Repr

/-- R104: a queued frame that an offer of `f` replaces. -/
def sameSlot (f : TxFrame) (q : Queued) : Bool :=
  kindRank q.frame == kindRank f && (kindRank f != 2 || frameTarget q.frame == frameTarget f)

/-- The PLATOON frames of the queue. -/
def platoonFrames (queue : List Queued) : Nat := queue.countP fun q => kindRank q.frame == 2

/-- R104: LU's answer to the offer of `f`. -/
def offerAnswer (lu : LuState) (f : TxFrame) : Answer :=
  if lu.access = .disabled then .discarded
  else if lu.queue.any (sameSlot f) then .replaced
  else if kindRank f = 2 ∧ 3 ≤ platoonFrames lu.queue then .refused
  else .placed

/-- A frame entered behind every frame of its own and of higher kinds (R103). -/
def insertQueued (x : Queued) : List Queued → List Queued
  | [] => [x]
  | q :: rest => if kindRank x.frame < kindRank q.frame then x :: q :: rest else q :: insertQueued x rest

/-- R105: a FLASH-ALERT placed removes the PLATOON and PREEMPT-ALERT frames. -/
def purgeQueue (f : TxFrame) (queue : List Queued) : List Queued :=
  if kindRank f = 0 then queue.filter fun q => kindRank q.frame == 0 || kindRank q.frame == 3 else queue

/-- R104, R105: the queue after the offer of `f`. -/
def queueAfterOffer (lu : LuState) (f : TxFrame) : List Queued :=
  match offerAnswer lu f with
  | .placed => purgeQueue f (insertQueued { frame := f, entered := lu.nextEntry } lu.queue)
  | .replaced => purgeQueue f (lu.queue.map fun q => if sameSlot f q then { q with frame := f } else q)
  | .refused | .discarded => lu.queue

/-! ## Attempts (R106 to R111) -/

/-- R109: one step of the sequence generator. -/
def sequenceStep (r : BitVec 16) : BitVec 16 :=
  (r <<< 1) ||| (if (r.getLsbD 15 ^^ r.getLsbD 13 ^^ r.getLsbD 12 ^^ r.getLsbD 10) then 1#16 else 0#16)

/-- R110: SENDING begins, with the frame in hand or with the head of the queue; a BEACON is sampled now (R111). -/
def startAttempt (s : State) : State :=
  let lu := s.lu
  let send (f : TxFrame) (n : Nat) (queue : List Queued) : State :=
    s.withLu { lu with access := .sending, busy := true, driverEnable := true, inHand := some { frame := f, attempts := n },
                       queue := queue, slots := 0, sending := some { bytes := frameBytes s f, next := 0 } }
  match lu.inHand, lu.queue with
  | some h, queue => send h.frame (h.attempts + 1) queue
  | none, q :: rest => send q.frame 1 rest
  | none, [] => s.withLu { lu with access := .idle, slots := 0 }

/-- R108: entering BACKOFF with its draw; a slot count of 0 begins SENDING at once. -/
def drawBackoff (s : State) : State :=
  let seq := sequenceStep s.lu.sequence
  let k := seq.toNat % 2 ^ s.lu.exponent
  let s' := s.withLu { s.lu with sequence := seq, slots := k, access := .backoff }
  if k = 0 then startAttempt s' else s'

/-- R107: IDLE is left when a frame has been placed. -/
def leaveIdle (s : State) : State :=
  if s.lu.access = .idle ∧ s.lu.queue ≠ [] then
    if s.lu.busy then s.withLu { s.lu with access := .defer } else drawBackoff s
  else s

/-- R104, R105, R107: a frame offered to LU. -/
def offer (f : TxFrame) (s : State) : State :=
  leaveIdle (s.withLu { s.lu with
    queue := queueAfterOffer s.lu f,
    nextEntry := if offerAnswer s.lu f = .placed then s.lu.nextEntry + 1 else s.lu.nextEntry })

/-- R106: the report to the Cycle Clock that a frame is finished; R81 sets the beacon count to 0. -/
def reportFinished (f : TxFrame) (s : State) : State :=
  if f = .beacon then s.withCk { s.ck with beaconCount := 0 } else s

/-- R106, R107: the access state once the frame in hand is finished. -/
def accessAfter (queue : List Queued) : Access := if queue = [] then .idle else .defer

/-- R106, R108, R110: the last byte of the attempt has read back right. -/
def attemptSucceeded (s : State) : State :=
  match s.lu.inHand with
  | none => s
  | some h =>
    reportFinished h.frame (s.withLu { s.lu with
      access := accessAfter s.lu.queue, driverEnable := false, inHand := none, sending := none, exponent := 2,
      counters := { s.lu.counters with sent := satInc 65535 s.lu.counters.sent } })

/-- R110: a byte has not read back right; the attempt fails, and the frame is dropped at its 6th attempt. -/
def attemptFailed (s : State) : State :=
  match s.lu.inHand with
  | none => s
  | some h =>
    let counters := { s.lu.counters with collisions := satInc 65535 s.lu.counters.collisions }
    let lu := { s.lu with driverEnable := false, sending := none, counters := counters }
    if h.attempts < 6 then s.withLu { lu with access := .defer, exponent := min (lu.exponent + 1) 5 }
    else reportFinished h.frame (s.withLu { lu with
      access := accessAfter lu.queue, inHand := none, exponent := 2,
      counters := { counters with dropped := satInc 65535 counters.dropped } })

/-! ## Restart and resets (R117, R118) -/

/-- R117: a removed or cut-off BEACON is reported. -/
def holdsBeacon (lu : LuState) : Bool :=
  lu.queue.any (fun q => q.frame == .beacon) ||
    match lu.inHand with
    | some h => h.frame == .beacon
    | none => false

/-- R117: BLOCK RESTART LINE; unless LU is DISABLED, the slot count is 0 (log entry 54). -/
def restartLine (s : State) : State :=
  if s.lu.access = .disabled then s.withLu { s.lu with counters := LineCounters.reset, clash := false }
  else
    let s' := if holdsBeacon s.lu then reportFinished .beacon s else s
    s'.withLu { LuState.reset with
      access := .idle, sequence := BitVec.ofNat 16 (stationAddress s), nextEntry := s.lu.nextEntry }

/-- Table 6.5, RELOAD: everything but the counters and CLASH; the slot count is 0 (log entry 54). -/
def reloadLine (s : State) : State :=
  s.withLu { LuState.reset with counters := s.lu.counters, clash := s.lu.clash, nextEntry := s.lu.nextEntry }

/-- Table 6.5: a load ends with a valid image; the slot count is 0 (log entry 54). -/
def enableLine (s : State) : State :=
  s.withLu { s.lu with
    access := .idle, busy := true, driverEnable := false, inHand := none, queue := [], exponent := 2, slots := 0,
    sequence := BitVec.ofNat 16 (stationAddress s), assembler := .waitFree, sending := none }

/-! ## Events of the sending side -/

/-- The fragments counter raised (R112). -/
def countFragment (lu : LuState) : LuState :=
  { lu with counters := { lu.counters with fragments := satInc 65535 lu.counters.fragments } }

/-- R100, R112: the silence that makes the line FREE. It holds the intra-frame gap, so a frame still incomplete is counted as a
fragment first. -/
def lineBecomesFree (lu : LuState) : LuState :=
  let lu' := match lu.assembler with
    | .assembling _ => countFragment lu
    | _ => lu
  { lu' with busy := false, assembler := .ready }

/-- LINE_FREE (R100): DEFER is left with a draw (R107, R108); a paused BACKOFF goes on with a full slot. -/
def execLineFree (s : State) : Host.Outcome State Fault Refusal :=
  .next <| whenDue (s.lu.busy && s.lu.access != .disabled && s.lu.access != .sending)
    (let s' := s.withLu (lineBecomesFree s.lu)
     if s.lu.access = .defer then drawBackoff s' else s') s

/-- LINE_BUSY (R100): a BACKOFF count pauses while the line is BUSY (R108). -/
def execLineBusy (s : State) : Host.Outcome State Fault Refusal :=
  .next <| whenDue (s.lu.access != .disabled) (s.withLu { s.lu with busy := true }) s

/-- BACKOFF_SLOT_END (R108). -/
def execBackoffSlotEnd (s : State) : Host.Outcome State Fault Refusal :=
  .next <| whenDue (s.lu.access == .backoff && !s.lu.busy && 0 < s.lu.slots)
    (let s' := s.withLu { s.lu with slots := s.lu.slots - 1 }
     if s.lu.slots = 1 then startAttempt s' else s') s

/-- BYTE_NOT_RECEIVED_BACK (R110). -/
def execByteNotReceivedBack (s : State) : Host.Outcome State Fault Refusal :=
  .next <| whenDue (s.lu.access == .sending) (attemptFailed s) s

/-- INTRA_FRAME_GAP (R112). -/
def execIntraFrameGap (s : State) : Host.Outcome State Fault Refusal :=
  .next <| match s.lu.assembler with
  | .assembling _ => whenDue (s.lu.access != .disabled) (s.withLu { countFragment s.lu with assembler := .waitFree }) s
  | _ => s

end Sys2Proof.Machine
end

