-- ==== Sys2Proof/Machine/Platoons.lean ====
section
/-! DEFINITION. Machine/Platoons.lean: the Platoon Unit (chapter 8). -/

namespace Sys2Proof.Machine

/-! ## Links -/

/-- The link of the pinned entry in a place. -/
def linkAt (s : State) (p : Place) : Option (Entry × Link) :=
  match s.nt.places[p] with
  | some e => match e.link with
    | some l => some (e, l)
    | none => none
  | none => none

/-- R134: the send states a load creates, one per pinned entry whose link has an outbound part. -/
def createLinks (nt : NtState) : Vector (Option LinkSend) 8 :=
  tab 8 fun p => match nt.places[p] with
    | some e => match e.link with
      | some l => if l.exitDetector.isSome then
          some { green := false, greenTimer := 0, exitCount := 0, sent := false, serial := 0 } else none
      | none => none
    | none => none

/-- R135: the outbound stage is in its green, as PL reads the Stage Sequencer. -/
def outboundGreen (s : State) (p : Place) : Bool :=
  match linkAt s p with
  | some (_, l) => match l.outStage with
    | some st => stageComplete s st
    | none => false
  | none => false

/-- R135: what PL's reading does to one link's send state. -/
def readGreen (now : Bool) (l : LinkSend) : LinkSend :=
  if now && !l.green then { l with green := true, greenTimer := 0, exitCount := 0, sent := false }
  else if !now && l.green then { l with green := false, exitCount := 0, sent := false }
  else l

/-- R135: PL's reading of the Stage Sequencer at its evaluation, and at its stop. -/
def readGreens (s : State) : State :=
  s.withPl { s.pl with links := tab 8 fun p => (s.pl.links[p]).map (readGreen (outboundGreen s p)) }

/-- R135: the green timers at a tenth mark. -/
def plTimerWork (s : State) : State :=
  if tenthMark s then
    s.withPl { s.pl with links := tab 8 fun p =>
      (s.pl.links[p]).map fun l => if l.green then { l with greenTimer := satInc 65535 l.greenTimer } else l }
  else s

/-! ## Forming and offering notices (R136, R137) -/

/-- R137: the duration a link's notice carries. -/
def noticeDuration (l : Link) : Nat := max 50 (min (l.threshold * l.headway) 600)

/-- R137: the serial of the next notice of a link. -/
def nextSerial (l : LinkSend) : Nat := (l.serial + 1) % 256

/-- R137: the neighbor takes notices. -/
def takesPlatoons (e : Entry) : Bool :=
  e.state == .heard && match e.last with
    | some b => b.accepting
    | none => false

/-- The withheld counter raised. -/
def countWithheld (s : State) : State := s.withPl { s.pl with withheld := satInc 65535 s.pl.withheld }

/-- R137: a notice is formed for the link in a place, and offered or withheld. -/
def formNotice (p : Place) (s : State) : State :=
  match linkAt s p, s.pl.links[p] with
  | some (e, l), some ls =>
    let marked := { ls with sent := true }
    if takesPlatoons e then
      let f := TxFrame.platoon e.address (nextSerial ls) ls.greenTimer (noticeDuration l)
      let s' := s.withPl { s.pl with links := put s.pl.links p (some { marked with serial := nextSerial ls }) }
      if offerAnswer s.lu f = .refused then countWithheld s' else offer f s'
    else countWithheld (s.withPl { s.pl with links := put s.pl.links p (some marked) })
  | _, _ => s

/-- R136: the link counts an on-edge of detector `d`. -/
def countsEdge (s : State) (d : Detector) (p : Place) : Bool :=
  match linkAt s p, s.pl.links[p] with
  | some (_, l), some ls => l.exitDetector == some d && ls.green
  | _, _ => false

/-- R136: the exit count of one link raised. -/
def raiseExit (l : LinkSend) : LinkSend := { l with exitCount := satInc 255 l.exitCount }

/-- R137: the link in a place stands at its threshold with no notice formed in this green. -/
def atThreshold (s : State) (p : Place) : Bool :=
  match linkAt s p, s.pl.links[p] with
  | some (_, l), some ls => ls.exitCount == l.threshold && !ls.sent
  | _, _ => false

/-- The address of the entry in a place, 0 for a free place. -/
def addressAt (s : State) (p : Place) : Nat :=
  match s.nt.places[p] with
  | some e => e.address
  | none => 0

/-- A place entered in ascending order of its entry's address (R137). -/
def insertByAddress (s : State) (p : Place) : List Place → List Place
  | [] => [p]
  | q :: rest => if addressAt s p < addressAt s q then p :: q :: rest else q :: insertByAddress s p rest

/-- R62, R136, R137: an on-edge of a COUNT detector offered to PL. -/
def exitEdge (d : Detector) (s : State) : State :=
  let counted := places.filter (countsEdge s d)
  let links := tab 8 fun p => if countsEdge s d p then (s.pl.links[p]).map raiseExit else s.pl.links[p]
  let s' := s.withPl { s.pl with links := links }
  let due := (counted.filter (atThreshold s')).foldr (insertByAddress s') []
  due.foldl (fun t p => formNotice p t) s'

/-- R62: the link's exit detector is of kind COUNT; of no other kind is an edge offered. -/
def exitCounts (s : State) (l : Link) : Bool :=
  match s.cf.image, l.exitDetector with
  | some img, some d => img.detectors[d].kind == .count
  | _, _ => false

/-- NOTICE_FORMED (R137): the edge that brings the link's exit count up to its threshold. -/
def execNoticeFormed (p : Place) (s : State) : Host.Outcome State Fault Refusal :=
  .next <| match linkAt s p, s.pl.links[p] with
  | some (_, l), some ls =>
    whenDue (exitCounts s l && ls.green && !ls.sent && ls.exitCount + 1 == l.threshold)
      (formNotice p (s.withPl { s.pl with links := put s.pl.links p (some (raiseExit ls)) })) s
  | _, _ => s

/-! ## The platoon queue (R138 to R143) -/

/-- R139: `n` stands before `m` in the queue's order. -/
def noticeBefore (n m : Notice) : Bool :=
  n.t < m.t || (n.t == m.t && (n.sender < m.sender || (n.sender == m.sender && n.arrival < m.arrival)))

/-- R139: a notice entered in its place. -/
def insertNotice (x : Notice) : List Notice → List Notice
  | [] => [x]
  | n :: rest => if noticeBefore x n then x :: n :: rest else n :: insertNotice x rest

/-- R139: the queue put back in order. -/
def sortNotices (q : List Notice) : List Notice := q.foldr insertNotice []

/-- R143: the accepting flag follows the size of the queue. -/
def acceptingAfter (size : Nat) (flag : Bool) : Bool :=
  if 12 ≤ size then false else if size ≤ 8 then true else flag

/-- The queue replaced, with the accepting flag following (R143). -/
def setQueue (q : List Notice) (s : State) : State :=
  s.withPl { s.pl with queue := q, accepting := acceptingAfter q.length s.pl.accepting }

/-- R139, R140, R142: a notice inserted; a notice active from its insertion places its calls, and of 17 the last is removed. -/
def insertIntoQueue (x : Notice) (s : State) : State :=
  let s' := if x.active then writeStageCalls x.stage s else s
  let q := insertNotice x s'.pl.queue
  let s'' := s'.withPl { s'.pl with nextArrival := s'.pl.nextArrival + 1 }
  if 16 < q.length then
    setQueue q.dropLast (s''.withPl { s''.pl with overflow := satInc 65535 s''.pl.overflow })
  else setQueue q s''

/-- R138: the inbound stage and travel time of the pinned entry with the sender's address. -/
def inboundOf (s : State) (sender : Nat) : Option (Stage × Nat) :=
  match entryOf s sender with
  | some e => match e.link with
    | some l => l.inStage.map fun st => (st, l.travel)
    | none => none
  | none => none

/-- R138: the notice as it enters the queue (R139). -/
def newNotice (sender serial duration arrival : Nat) (st : Stage) (t : Int) : Notice :=
  if 0 < t then { sender, serial, stage := st, t := t.toNat, remaining := duration, active := false, arrival }
  else { sender, serial, stage := st, t := 0, remaining := (duration + t).toNat, active := true, arrival }

/-- R138: a PLATOON frame taken, in START RED, RUN or FLASH ENTRY (the monitored modes). -/
def takePlatoon (sender serial elapsed duration : Nat) (s : State) : State :=
  if !s.os.mode.monitored then s
  else match inboundOf s sender with
    | none => s.withPl { s.pl with unlinked := satInc 65535 s.pl.unlinked }
    | some (st, travel) =>
      let t : Int := (travel : Int) - elapsed
      if t + duration ≤ 0 then s.withPl { s.pl with stale := satInc 65535 s.pl.stale }
      else if s.pl.queue.any fun n => n.sender == sender && n.serial == serial then s
      else insertIntoQueue (newNotice sender serial duration s.pl.nextArrival st t) s

/-- R141 (1): one active notice at a tenth mark, removed when its remaining duration reaches 0. -/
def countRemaining (n : Notice) : Option Notice :=
  if n.active then if n.remaining ≤ 1 then none else some { n with remaining := n.remaining - 1 } else some n

/-- R141 (2): a notice becomes active at this mark. -/
def activates (n : Notice) : Bool := !n.active && n.t ≤ 1

/-- R141 (2): one inactive notice at a tenth mark. -/
def countArrival (n : Notice) : Notice :=
  if n.active then n else if n.t ≤ 1 then { n with t := 0, active := true } else { n with t := n.t - 1 }

/-- R141, R142: PL's countdown at a tenth mark. -/
def plQueueWork (s : State) : State :=
  if tenthMark s then
    let kept := s.pl.queue.filterMap countRemaining
    let s' := setQueue (sortNotices (kept.map countArrival)) s
    (kept.filter activates).foldl (fun t n => writeStageCalls n.stage t) s'
  else s

/-- R144: a FLASH-ALERT removes every notice of its sender. -/
def purgeSender (sender : Nat) (s : State) : State := setQueue (s.pl.queue.filter fun n => n.sender != sender) s

/-- R145: the queue is emptied. -/
def emptyQueue (s : State) : State := s.withPl { s.pl with queue := [], accepting := true }

/-- R134: RESTART clears the green of every link and keeps its serial. -/
def restartLinks (s : State) : State :=
  s.withPl { s.pl with links := tab 8 fun p =>
    (s.pl.links[p]).map fun l => { l with green := false, greenTimer := 0, exitCount := 0, sent := false } }

/-- NOTICE_ACTIVATION (R142): the count that brings a notice's T to 0. -/
def execNoticeActivation (sender serial : Nat) (s : State) : Host.Outcome State Fault Refusal :=
  .next <| match s.pl.queue.find? fun n => n.sender == sender && n.serial == serial with
  | none => s
  | some n =>
    whenDue (activates n)
      (writeStageCalls n.stage (setQueue (sortNotices (s.pl.queue.map fun m =>
        if m.sender == sender && m.serial == serial then countArrival m else m)) s)) s

/-- NOTICE_END (R141): the count that brings an active notice's remaining duration to 0. -/
def execNoticeEnd (sender serial : Nat) (s : State) : Host.Outcome State Fault Refusal :=
  .next <| match s.pl.queue.find? fun n => n.sender == sender && n.serial == serial with
  | none => s
  | some n =>
    whenDue (n.active && n.remaining ≤ 1)
      (setQueue (s.pl.queue.filter fun m => !(m.sender == sender && m.serial == serial)) s) s

end Sys2Proof.Machine
end

