-- ==== Sys2Proof/Machine/Preemption.lean ====
section
/-! DEFINITION. Machine/Preemption.lean: the Preemption Unit (chapter 9). -/

namespace Sys2Proof.Machine

/-! ## Class records -/

/-- R147: the exit stage as PE reads it; a code outside 1 to 8 or of a stage that is not enabled reads as "continue". -/
def exitStage (img : Image) (c : PreClass) : Option Stage :=
  match (img.cls c).exit with
  | some st => if img.stages[st].enabled then some st else none
  | none => none

/-- Table 9.1: truncation is fixed in the device. -/
def truncates : PreClass → Bool
  | .rail | .emergency => true
  | .transit => false

/-- One class's state replaced. -/
def PeState.setCls (pe : PeState) (c : PreClass) (x : ClassState) : PeState :=
  { pe with classes := put pe.classes (classIndex c) x }

/-- One class's request state replaced. -/
def PeState.setRequest (pe : PeState) (c : PreClass) (r : Request) : PeState := pe.setCls c { pe.cls c with request := r }

/-- The classes, highest first. -/
def allClasses : List PreClass := [.rail, .emergency, .transit]

/-! ## Inputs and timers (R148, R151, R153) -/

/-- The class's request input as last sampled. -/
def rawInput (s : State) (c : PreClass) : Bool := s.pins.requests.getLsbD (classIndex c).val

/-- R148: the on-delay filter at one sample. -/
def filterRequest (onDelay : Nat) (raw : Bool) (x : ClassState) : ClassState :=
  if !raw then { x with filtered := false, count := 0 }
  else if x.filtered then { x with count := 0 }
  else if 10 * onDelay < x.count + 1 then { x with filtered := true, count := 0 }
  else { x with count := x.count + 1 }

/-- R148: the three inputs sampled and filtered. -/
def sampleRequests (img : Image) (s : State) : State :=
  s.withPe (allClasses.foldl (fun pe c => pe.setCls c (filterRequest (img.cls c).onDelay (rawInput s c) (pe.cls c))) s.pe)

/-- R153: the active service at a tenth mark. -/
def countService (v : Service) : Service :=
  match v.phase with
  | .entry => { v with remaining := v.remaining - 1 }
  | .dwell => { v with remaining := v.remaining - 1, elapsed := satInc 6000 v.elapsed }
  | .exit => v

/-- R151: the tenth timers of PE. -/
def countPeTimers (pe : PeState) : PeState :=
  { pe with
    service := pe.service.map countService,
    stack := pe.stack.map (fun r => { r with remaining := r.remaining - 1 }),
    lineDwell := pe.lineDwell - 1,
    alert := pe.alert.map (fun a => { a with countdown := a.countdown - 1 }) }

/-! ## Request states (R149, R150, R159) -/

/-- Table 9.2, the rows that read the class's input and the inhibit timer. -/
def nextRequest (x : ClassState) (raw : Bool) (inhibit : Nat) : Request :=
  match x.request with
  | .none => if x.filtered then .requestedLocal else .none
  | .requestedLocal => if x.filtered then .requestedLocal else .none
  | .requestedLine => if x.filtered then .requestedLocal else .requestedLine
  | .lockedOut => if raw then .lockedOut else .none
  | .inhibited => if inhibit = 0 then (if x.filtered then .requestedLocal else .none) else .inhibited

/-- Table 9.2 for one class; a line request that becomes local stops the line dwell timer. -/
def moveRequest (s : State) (pe : PeState) (c : PreClass) : PeState :=
  let r := nextRequest (pe.cls c) (rawInput s c) pe.inhibit
  let pe' := pe.setRequest c r
  if (pe.cls c).request = .requestedLine ∧ r = .requestedLocal then { pe' with lineDwell := 0 } else pe'

/-- R159: a line request raised. -/
def raiseLineRequest (img : Image) (pe : PeState) : PeState :=
  match (pe.cls .emergency).request with
  | .none | .requestedLine =>
    { pe.setRequest .emergency .requestedLine with lineDwell := 10 * (img.cls .emergency).lineDwell }
  | _ => pe

/-- R159: the pending line alert at an evaluation: at countdown 0 it is removed and raises a line request. -/
def takeLineAlert (img : Image) (pe : PeState) : PeState :=
  match pe.alert with
  | some a => if a.countdown = 0 then { raiseLineRequest img pe with alert := none } else pe
  | none => pe

/-- Table 9.2: REQUESTED-LINE ends when the line dwell timer stands at 0. -/
def endLineDwell (pe : PeState) : PeState :=
  if (pe.cls .emergency).request = .requestedLine ∧ pe.lineDwell = 0 then pe.setRequest .emergency .none else pe

/-- R149: the request states moved, before any service decision. -/
def moveRequests (img : Image) (s : State) : State :=
  s.withPe (endLineDwell (takeLineAlert img (allClasses.foldl (moveRequest s) s.pe)))

/-! ## Commands to the Stage Sequencer (R43, R44, R152) -/

/-- PE places or replaces its command. -/
def placeCommand (st : Option Stage) (truncating : Bool) (s : State) : State :=
  match st with
  | none => s
  | some t => (s.withPe { s.pe with command := some (t, truncating) }).withSq
      { s.sq with arrivals := s.sq.arrivals ++ [.place t truncating] }

/-- PE releases its command. -/
def releaseCommand (s : State) : State :=
  (s.withPe { s.pe with command := none }).withSq { s.sq with arrivals := s.sq.arrivals ++ [.release] }

/-! ## Services (R152 to R157) -/

/-- R152: a service starts. -/
def startService (img : Image) (c : PreClass) (s : State) : State :=
  let v : Service :=
    { cls := c, phase := .entry, elapsed := 0, remaining := 10 * (img.cls c).maxDwell,
      fromLine := (s.pe.cls c).request == .requestedLine, alertSent := false, byMax := false }
  placeCommand (img.cls c).target (truncates c) (s.withPe { s.pe with service := some v })

/-- R157: a stacked record resumed. -/
def resumeService (img : Image) (r : Stacked) (s : State) : State :=
  let v : Service :=
    { cls := r.cls, phase := .entry, elapsed := 0, remaining := r.remaining, fromLine := r.fromLine,
      alertSent := r.phase == .dwell, byMax := false }
  placeCommand (img.cls r.cls).target (truncates r.cls) (s.withPe { s.pe with service := some v })

/-- R158: the pinned entry that carries the alert mark. -/
def alertEntry (s : State) : Option Entry :=
  (places.filterMap fun p => s.nt.places[p]).find? fun e => match e.link with
    | some l => l.alert
    | none => false

/-- R158: the alert of a service that enters DWELL. -/
def sendAlert (img : Image) (v : Service) (s : State) : State :=
  if v.cls = .emergency ∧ v.fromLine = false ∧ v.alertSent = false then
    match alertEntry s with
    | none => s
    | some e =>
      let s' := s.withPe { s.pe with service := some { v with alertSent := true } }
      if e.state = .heard then
        let n := (s.pe.alertSerial + 1) % 256
        offer (.preemptAlert e.address n (img.cls .emergency).alertEta) (s'.withPe { s'.pe with alertSerial := n })
      else s'.withPe { s'.pe with withheld := satInc 65535 s.pe.withheld }
  else s

/-- R152: ENTRY passes to DWELL when the target is seen current and COMPLETE. -/
def enterDwell (img : Image) (s : State) : State :=
  match s.pe.service, (s.pe.service.bind fun v => (img.cls v.cls).target) with
  | some v, some t =>
    if v.phase = .entry ∧ stageComplete s t = true then
      let v' := { v with phase := .dwell, elapsed := 0 }
      let s' := s.withPe { s.pe with service := some v' }
      sendAlert img v' (if truncates v.cls then placeCommand (some t) false s' else s')
    else s
  | _, _ => s

/-- R150, R154: the TRANSIT inhibit at the end of a service that did not leave DWELL at max dwell. -/
def loadInhibit (img : Image) (v : Service) (pe : PeState) : PeState :=
  if v.cls = .transit ∧ v.byMax = false then
    let t := (img.cls .transit).inhibit
    let r := if 0 < t then .inhibited else if (pe.cls .transit).filtered then .requestedLocal else .none
    { pe.setRequest .transit r with inhibit := t }
  else pe

/-- R157: the stack examined from the top; a record whose class is not requested, or whose max dwell has run, is discarded. -/
def examineStack (pe : PeState) : List Stacked → PeState
  | [] => { pe with stack := [] }
  | r :: rest =>
    if !pe.requested r.cls then examineStack pe rest
    else if r.remaining = 0 then examineStack (pe.setRequest r.cls .lockedOut) rest
    else { pe with stack := r :: rest }

/-- R157: what follows the end of a service. -/
def chooseService (img : Image) (s : State) : State :=
  match s.pe.stack, s.pe.highestRequested with
  | r :: rest, some c =>
    if higherClass c r.cls then startService img c s else resumeService img r (s.withPe { s.pe with stack := rest })
  | r :: rest, none => resumeService img r (s.withPe { s.pe with stack := rest })
  | [], some c => startService img c s
  | [], none => releaseCommand s

/-- R154, R157: the end of a service. -/
def endService (img : Image) (s : State) : State :=
  match s.pe.service with
  | none => s
  | some v =>
    let pe := loadInhibit img v s.pe
    chooseService img (s.withPe (examineStack { pe with service := none } pe.stack))

/-- R154: EXIT is entered; "continue" ends the service at once. -/
def enterExit (img : Image) (v : Service) (s : State) : State :=
  let s' := s.withPe { s.pe with service := some { v with phase := .exit } }
  match exitStage img v.cls with
  | some st => placeCommand (some st) false s'
  | none => endService img s'

/-- R153 (2): the max-dwell exit. -/
def maxDwellExit (img : Image) (v : Service) (s : State) : State :=
  let pe := s.pe.setRequest v.cls .lockedOut
  enterExit img { v with byMax := true }
    (s.withPe (if v.cls = .emergency then { pe with lineDwell := 0 } else pe))

/-- R153: the end of DWELL. -/
def exitDwell (img : Image) (s : State) : State :=
  match s.pe.service with
  | none => s
  | some v =>
    if v.phase = .dwell ∧ v.remaining = 0 then maxDwellExit img v s
    else if v.phase = .dwell ∧ s.pe.requested v.cls = false ∧ 10 * (img.cls v.cls).minDwell ≤ v.elapsed then enterExit img v s
    else s

/-- R154: EXIT ends when the exit stage is seen current and COMPLETE. -/
def exitSeen (img : Image) (s : State) : Bool :=
  match s.pe.service with
  | some v => v.phase == .exit && match exitStage img v.cls with
    | some st => stageComplete s st
    | none => false
  | none => false

/-- R154: the end of EXIT. -/
def finishExit (img : Image) (s : State) : State := if exitSeen img s then endService img s else s

/-- R155: a higher class takes over from the active service. -/
def takeOver (img : Image) (s : State) : State :=
  match s.pe.service, s.pe.highestRequested with
  | some v, some c =>
    if higherClass c v.cls then
      if v.phase = .exit then endService img s
      else
        let r : Stacked := { cls := v.cls, remaining := v.remaining, phase := v.phase, fromLine := v.fromLine }
        startService img c (s.withPe { s.pe with stack := r :: s.pe.stack })
    else s
  | _, _ => s

/-- R152: the highest requested class starts a service where none is active. -/
def startIfIdle (img : Image) (s : State) : State :=
  match s.pe.service, s.pe.highestRequested with
  | none, some c => startService img c s
  | _, _ => s

/-- The active service is in EXIT. -/
def inExit (s : State) : Bool :=
  match s.pe.service with
  | some v => v.phase == .exit
  | none => false

/-- The model's counter of free values advanced. -/
def nextFree (s : State) : State := s.withFree (s.free + 1)

/-- R152 to R157: the service decisions of one evaluation, with the free values of log entries 2 and 3. -/
def serviceDecisions (img : Image) (s : State) : State :=
  let s1 := startIfIdle img s
  let s2 :=
    if Config.higherClassFirst s.free then exitDwell img (enterDwell img (takeOver img s1))
    else takeOver img (exitDwell img (enterDwell img s1))
  let s3 := if inExit s1 || Config.exitSeenAtOnce s.free then finishExit img s2 else s2
  nextFree (enterDwell img s3)

/-- R151: PE's evaluation at a tick in RUN. -/
def peEvaluation (img : Image) (s : State) : State :=
  let s1 := sampleRequests img s
  let s2 := if tenthMark s then s1.withPe (countPeTimers s1.pe) else s1
  serviceDecisions img (moveRequests img s2)

/-- R150: the inhibit timer at a second mark, in every mode. -/
def countInhibit (s : State) : State :=
  if secondMark s then s.withPe { s.pe with inhibit := s.pe.inhibit - 1 } else s

/-- PE's work of a tick. The inhibit timer is counted before the evaluation, so a timer loaded at a second mark is not counted
at it (log entry 48). -/
def peWork (s : State) : State :=
  match s.cf.image with
  | none => s
  | some img => if s.os.mode = .run then peEvaluation img (countInhibit s) else countInhibit s

/-! ## Line alerts (R159) -/

/-- The alerts ignored counter raised. -/
def countIgnored (s : State) : State := s.withPe { s.pe with ignored := satInc 65535 s.pe.ignored }

/-- R159: a PREEMPT-ALERT taken. -/
def takePreemptAlert (sender serial eta : Nat) (s : State) : State :=
  match s.cf.image with
  | none => s
  | some img =>
    let r := img.cls .emergency
    let same := match s.pe.alert with
      | some a => a.sender == sender && a.serial == serial
      | none => false
    if s.os.mode ≠ .run ∨ r.acceptAlerts = false ∨ same = true then countIgnored s
    else s.withPe { s.pe with alert := some { sender, serial, countdown := eta - 10 * r.lineLead } }

/-- R159: a FLASH-ALERT removes the pending line alert of its sender. -/
def cancelAlert (sender : Nat) (s : State) : State :=
  match s.pe.alert with
  | some a => if a.sender = sender then s.withPe { s.pe with alert := none } else s
  | none => s

/-! ## Leaving RUN, restarts (R160, R161) -/

/-- R160: a class when RUN is left: a requested class goes to NONE, lockout and inhibit are kept. -/
def cancelClass (x : ClassState) : ClassState :=
  { request := match x.request with
      | .lockedOut => .lockedOut
      | .inhibited => .inhibited
      | _ => .none,
    filtered := false, count := 0 }

/-- R160: PE cancels all service work. -/
def cancelService (s : State) : State :=
  (s.withPe { s.pe with
    classes := tab 3 fun i => cancelClass s.pe.classes[i], lineDwell := 0, service := none, stack := [], command := none,
    alert := none }).withSq { s.sq with arrivals := [] }

/-- Table 9.3, RESTART. -/
def restartPe (s : State) : State :=
  s.withPe { PeState.reset with alertSerial := s.pe.alertSerial, withheld := s.pe.withheld, ignored := s.pe.ignored }

/-- Table 9.3, RELOAD and the end of a load: everything but the counters. -/
def reloadPe (s : State) : State :=
  s.withPe { PeState.reset with withheld := s.pe.withheld, ignored := s.pe.ignored }

/-! ## Events of the Preemption Unit. Each takes place at an evaluation in RUN (R151). -/

/-- An event of PE's evaluation: the mode is RUN and `due` stands. -/
def peEvent (due : Image → Bool) (act : Image → State → State) (s : State) : Host.Outcome State Fault Refusal :=
  .next <| match s.cf.image with
  | none => s
  | some img => whenDue (s.os.mode == .run && due img) (act img s) s

/-- The class's filter replaced. -/
def setFilter (c : PreClass) (filtered : Bool) (s : State) : State :=
  s.withPe (s.pe.setCls c { s.pe.cls c with filtered := filtered, count := 0 })

/-- REQUEST_INPUT_ON (R148): the on sample that takes the count past the on-delay; it raises a request. -/
def execRequestInputOn (c : PreClass) (s : State) : Host.Outcome State Fault Refusal :=
  peEvent (fun img => !(s.pe.cls c).filtered && 10 * (img.cls c).onDelay ≤ (s.pe.cls c).count)
    (fun img s =>
      let s' := setFilter c true s
      let r := nextRequest (s'.pe.cls c) true s'.pe.inhibit
      let pe := s'.pe.setRequest c r
      let pe' := if (s'.pe.cls c).request = .requestedLine then { pe with lineDwell := 0 } else pe
      serviceDecisions img (s'.withPe pe')) s

/-- DWELL_ENTRY (R152). -/
def execDwellEntry (s : State) : Host.Outcome State Fault Refusal :=
  peEvent (fun img => match s.pe.service with
      | some v => v.phase == .entry && match (img.cls v.cls).target with
        | some t => stageComplete s t
        | none => false
      | none => false)
    (fun img s => enterDwell img (exitDwell img (enterDwell img s))) s

/-- MIN_DWELL_EXPIRY (R153): the count that brings dwell elapsed to the min dwell with no request. -/
def execMinDwellExpiry (s : State) : Host.Outcome State Fault Refusal :=
  peEvent (fun img => match s.pe.service with
      | some v => v.phase == .dwell && !s.pe.requested v.cls && 0 < v.remaining &&
          10 * (img.cls v.cls).minDwell ≤ v.elapsed + 1
      | none => false)
    (fun img s => match s.pe.service with
      | some v => enterDwell img (enterExit img { v with elapsed := satInc 6000 v.elapsed } s)
      | none => s) s

/-- MAX_DWELL_EXPIRY (R153): the count that brings the remaining max dwell to 0 in DWELL. -/
def execMaxDwellExpiry (s : State) : Host.Outcome State Fault Refusal :=
  peEvent (fun _ => match s.pe.service with
      | some v => v.phase == .dwell && v.remaining ≤ 1
      | none => false)
    (fun img s => match s.pe.service with
      | some v => enterDwell img (maxDwellExit img { v with remaining := 0 } s)
      | none => s) s

/-- SERVICE_END (R154). -/
def execServiceEnd (s : State) : Host.Outcome State Fault Refusal :=
  peEvent (fun img => exitSeen img s) (fun img s => enterDwell img (endService img s)) s

/-- LINE_ALERT_COUNTDOWN_EXPIRY (R159): the count that brings the pending line alert's countdown to 0. -/
def execLineAlertCountdownExpiry (s : State) : Host.Outcome State Fault Refusal :=
  peEvent (fun _ => match s.pe.alert with
      | some a => a.countdown ≤ 1
      | none => false)
    (fun img s => serviceDecisions img (s.withPe { raiseLineRequest img s.pe with alert := none })) s

/-- LINE_DWELL_EXPIRY (R149): the count that brings the line dwell timer to 0. -/
def execLineDwellExpiry (s : State) : Host.Outcome State Fault Refusal :=
  peEvent (fun _ => (s.pe.cls .emergency).request == .requestedLine && s.pe.lineDwell ≤ 1)
    (fun img s => serviceDecisions img (s.withPe (endLineDwell { s.pe with lineDwell := 0 }))) s

/-- INHIBIT_EXPIRY (R149): the count that brings the TRANSIT inhibit timer to 0. -/
def execInhibitExpiry (s : State) : Host.Outcome State Fault Refusal :=
  peEvent (fun _ => (s.pe.cls .transit).request == .inhibited && s.pe.inhibit ≤ 1)
    (fun img s =>
      let pe := { s.pe with inhibit := 0 }
      serviceDecisions img (s.withPe (pe.setRequest .transit (nextRequest (pe.cls .transit) true 0)))) s

end Sys2Proof.Machine
end

