-- ==== Sys2Proof/Machine/Stages.lean ====
section
/-! DEFINITION. Machine/Stages.lean: the Stage Sequencer's changes, redirects, commands and halts (chapter 2, sections 2.7 to
2.9). -/

namespace Sys2Proof.Machine

/-- The max timer stopped and set to 0 (R29). -/
def stopMax (q : SqState) : SqState := { q with maxTimer := 0, maxRunning := false }

/-- A hold extension ended (R35). -/
def endHold (q : SqState) : SqState := { q with hold := 0, holdRunning := false }

/-- R37: the entering groups of a target: in the target, not in GREEN. -/
def enteringGroups (s : State) (t : Stage) : Vector Bool 16 :=
  tab 16 fun g => inStage s t g && s.ge[g].phase != .green

/-- R37: the kind of a change's leave requests. -/
def changeKind (truncating : Bool) : Leave := if truncating then .truncating else .ordinary

/-- R37: a change's leave requests are truncating when its cause is PREEMPT under a truncating command and some group enters. -/
def isTruncating (cause : TermCause) (truncating : Bool) (entering : Vector Bool 16) : Bool :=
  cause == .preempt && truncating && (List.finRange 16).any fun g => entering[g]

/-- R37: the requests a change places on one group. A continuing group stays in GREEN, so a leave request it still holds from an
earlier change is withdrawn, as R8 and R41 (3) withdraw it; so is that of a group of the target in PREP (log entry 51). -/
def changeRequest (s : State) (t : Stage) (kind : Leave) (g : Group) (x : GroupState) : GroupState :=
  if inStage s t g then
    let x' := withdrawLeave x
    if x.phase = .green then x' else addEntry s.os.mode x'
  else if x.phase = .green then addLeave kind x else x

/-- R37: a change to `t` starts; the cause becomes the last termination cause and the latch becomes absent (R30). -/
def startChange (cause : TermCause) (truncating : Bool) (t : Stage) (s : State) : State :=
  let entering := enteringGroups s t
  let tr := isTruncating cause truncating entering
  (mapGroups (changeRequest s t (changeKind tr)) s).withSq
    { endHold (stopMax s.sq) with
      target := some t, phase := .changing, latch := none, lastCause := some cause, passageRunning := false,
      forceOff := false, entering := entering, changeTruncating := tr }

/-- R40: the change toward the start stage when RUN begins: every group of it is given an entry request, no group is green, and
the last cause is left as it was. -/
def startRun (st : Option Stage) (s : State) : State :=
  match st with
  | none => s
  | some t =>
    (mapGroups (fun g x => if inStage s t g then addEntry s.os.mode x else x) s).withSq
      { s.sq with target := some t, phase := .changing, entering := enteringGroups s t, changeTruncating := false }

/-- R38: each group outside the target in PREP or GREEN that holds no leave request is given one. -/
def lateLeaves (s : State) (t : Stage) : State :=
  mapGroups (fun g x =>
    if !inStage s t g && (x.phase == .prep || x.phase == .green) then addLeaveIfNone (changeKind s.sq.changeTruncating) x
    else x) s

/-- R42, R43: truncating leave requests on the leaving groups still in GREEN or PREP. -/
def upgradeLeaves (s : State) (t : Stage) : State :=
  mapGroups (fun g x =>
    if !inStage s t g && (x.phase == .prep || x.phase == .green) then addLeave .truncating x else x) s

/-- R41: no entering group of the change in flight has left RED or CLEARANCE. -/
def noneHasLeftRed (s : State) : Bool :=
  (List.finRange 16).all fun g => !s.sq.entering[g] || s.ge[g].phase == .red || s.ge[g].phase == .clearance

/-- R41 (1) to (4): one group sorted again against the new target. -/
def redirectRequest (s : State) (t : Stage) (kind : Leave) (g : Group) (x : GroupState) : GroupState :=
  if inStage s t g then
    let x' := withdrawLeave x
    if x.phase = .green then x' else addEntry s.os.mode x'
  else
    let x' := withdrawEntry x
    if x.phase = .green then addLeaveIfNone kind x' else x'

/-- R41: the target of the change in flight replaced. -/
def replaceTarget (truncating : Bool) (t : Stage) (s : State) : State :=
  let entering := enteringGroups s t
  let tr := isTruncating .preempt truncating entering
  (mapGroups (redirectRequest s t (changeKind tr)) s).withSq
    { s.sq with target := some t, forceOff := false, lastCause := some .preempt, entering := entering, changeTruncating := tr }

/-- The commanded target carries the truncating mark. -/
def commandTruncates (q : SqState) : Bool :=
  match q.command with
  | some (_, b) => b
  | none => false

/-- R44: truncating leave requests still held in GREEN or PREP are replaced by ordinary ones. -/
def dropTruncation (s : State) : State :=
  (mapGroups (fun _ x => downgradeLeave x) s).withSq { s.sq with changeTruncating := false }

/-- R43: a command stored; a truncating one it replaces by a non-truncating one is handled by R44, and the max timer and the
hold extension end (R29, R35), also for a command that names the stage already current and COMPLETE, of which R43 says that it
leaves the stage's timers as they are (log entry 44). -/
def storeCommand (t : Stage) (truncating : Bool) (s : State) : State :=
  let s' := if commandTruncates s.sq && !truncating then dropTruncation s else s
  s'.withSq { endHold (stopMax s'.sq) with command := some (t, truncating), forceOff := false }

/-- R43: a PE command taken. -/
def takeCommand (t : Stage) (truncating : Bool) (s : State) : State :=
  if s.os.mode ≠ .run ∨ s.sq.haltRequest = true then s
  else
    let s' := storeCommand t truncating s
    match s'.sq.phase, s'.sq.target with
    | .complete, _ =>
      if s'.sq.current = some t then s'.withSq { s'.sq with latch := none } else startChange .preempt truncating t s'
    | .changing, some u =>
      if u = t then (if truncating then upgradeLeaves s' u else s')
      else if noneHasLeftRed s' then replaceTarget truncating t s'
      else if truncating then upgradeLeaves s' u else s'
    | .changing, none => s'

/-- R44: the command released. -/
def dropCommand (s : State) : State :=
  let s' := if commandTruncates s.sq then dropTruncation s else s
  s'.withSq { s'.sq with command := none }

/-- R43, R44: one message of PE taken. -/
def takeMessage (s : State) (m : PeMessage) : State :=
  match m with
  | .place t truncating => takeCommand t truncating s
  | .release => dropCommand s

/-- R24 (3): the messages that have arrived, in the order PE placed them. -/
def takeArrivals (s : State) : State :=
  s.sq.arrivals.foldl takeMessage (s.withSq { s.sq with arrivals := [] })

/-- The halt request is present and not yet taken. -/
def haltWaiting (s : State) : Bool := s.sq.haltRequest && s.sq.latch != some .flash

/-- R45: the halt request taken. -/
def takeHalt (s : State) : State :=
  let s1 := dropCommand s
  (mapGroups (fun _ x =>
    let x' := withdrawEntry x
    if x.phase = .green then addLeaveIfNone .ordinary x' else x') s1).withSq
    { endHold s1.sq with
      target := none, phase := .changing, latch := some .flash, lastCause := some .flash, passageRunning := false,
      maxRunning := false, entering := tab 16 fun _ => false }

/-- R46: the stopped values of R23's table; the calls and the last termination cause are kept. -/
def stopSequencer (s : State) : State :=
  readGreens (s.withSq { SqState.reset with lastCause := s.sq.lastCause, calls := s.sq.calls })

end Sys2Proof.Machine
end

