-- ==== Sys2Proof/Machine/Modes.lean ====
section
/-! DEFINITION. Machine/Modes.lean: the Output Supervisor (chapter 10): mode entries, the mode timer, the conflict monitor and
the fault latch. -/

namespace Sys2Proof.Machine

/-! ## Mode entries (R165) -/

/-- The monitor's counts at 0. -/
def clearCounts (o : OsState) : OsState :=
  { o with conflict := tab 16 fun _ => tab 16 fun _ => 0, mismatch := tab 16 fun _ => tab 3 fun _ => 0 }

/-- R167: the source of every channel, `src` where its group is enabled and DARK elsewhere. -/
def setSources (src : LampSource) (s : State) : State :=
  s.withOs { s.os with source := tab 16 fun g => if groupEnabled s g then src else .dark }

/-- What leaving RUN does in the other blocks (R15, R160). -/
def leaveRun (s : State) : State := if s.os.mode = .run then clearEntries (cancelService s) else s

/-- The start red time of the image in use. -/
def startRedTime (s : State) : Nat :=
  match s.cf.image with
  | some img => img.startRed
  | none => 0

/-- The start flash time of the image in use, in tenths. -/
def startFlashTime (s : State) : Nat :=
  match s.cf.image with
  | some img => 10 * img.startFlash
  | none => 0

/-- START FLASH. -/
def enterStartFlash (s : State) : State :=
  let s1 := setSources .flash (s.withOs { clearCounts s.os with mode := .startFlash, timer := startFlashTime s })
  emptyQueue (stopSequencer (forceFlashing s1))

/-- START RED. -/
def enterStartRed (s : State) : State :=
  let s1 := setSources .sequencer (s.withOs { clearCounts s.os with mode := .startRed, timer := startRedTime s })
  stopSequencer (groupsStartRed s1)

/-- RUN. -/
def enterRun (s : State) : State :=
  startRun (s.cf.image.bind fun img => img.startStage) (s.withOs { s.os with mode := .run, timer := 0 })

/-- FLASH ENTRY. -/
def enterFlashEntry (s : State) : State :=
  let s1 := leaveRun s
  let s2 := flashEntryLeaves (s1.withOs { s1.os with mode := .flashEntry, timer := 0 })
  s2.withSq { s2.sq with haltRequest := true }

/-- The entry of MANUAL FLASH and of FAULT FLASH, with its FLASH-ALERT (R175). -/
def enterFlash (mode : Mode) (cause : AlertCause) (s : State) : State :=
  let s1 := leaveRun s
  let s2 := setSources .flash (s1.withOs { clearCounts s1.os with mode := mode, timer := 0 })
  offer (.flashAlert cause) (emptyQueue (stopSequencer (forceFlashing s2)))

/-- MANUAL FLASH. -/
def enterManualFlash (s : State) : State := enterFlash .manualFlash .manual s

/-- FAULT FLASH. -/
def enterFaultFlash (s : State) : State := enterFlash .faultFlash .fault s

/-! ## The mode timer (R164) -/

/-- The mode the expiry of the mode timer leads to. -/
def modeAfterTimer (s : State) : State :=
  match s.os.mode with
  | .startFlash => enterStartRed s
  | .startRed => enterRun s
  | _ => s

/-- The mode timer runs. -/
def modeTimerRuns (s : State) : Bool := s.os.mode == .startFlash || s.os.mode == .startRed

/-- OS's count of the mode timer at a tick that began in mode `began`: a timer loaded at this tick is not counted at it (R164). -/
def modeTimerWork (began : Mode) (s : State) : State :=
  if tenthMark s && modeTimerRuns s && s.os.mode == began then
    let s' := s.withOs { s.os with timer := s.os.timer - 1 }
    if s'.os.timer = 0 then modeAfterTimer s' else s'
  else s

/-- MODE_TIMER_EXPIRY (R164): the count that brings the mode timer to 0. -/
def execModeTimerExpiry (s : State) : Host.Outcome State Fault Refusal :=
  .next <| whenDue (modeTimerRuns s && s.os.timer ≤ 1) (modeAfterTimer (s.withOs { s.os with timer := 0 })) s

/-! ## The conflict monitor (R171 to R174) -/

/-- R172: the conflict counts at one evaluation. -/
def conflictCounts (img : Image) (s : State) : Vector (Vector Nat 16) 16 :=
  tab 16 fun a => tab 16 fun b =>
    if a < b ∧ img.conflicts a b = true ∧ showsRightOfWay img s a = true ∧ showsRightOfWay img s b = true then
      satInc 20 s.os.conflict[a][b] else 0

/-- The lamp at an index of a channel. -/
def lampAt (i : Fin 3) : Lamp := if i = 0 then .red else if i = 1 then .amber else .green

/-- R173: the mismatch counts at one evaluation. -/
def mismatchCounts (s : State) : Vector (Vector Nat 3) 16 :=
  tab 16 fun ch => tab 3 fun i => if lampDisagrees s ch (lampAt i) then satInc 50 s.os.mismatch[ch][i] else 0

/-- R174: the conditions that hold, in the order the latch takes them. -/
def conditions (o : OsState) : List FaultCause :=
  ((List.finRange 16).flatMap fun a => (List.finRange 16).filterMap fun b =>
    if a < b ∧ 20 ≤ o.conflict[a][b] then some (FaultCause.conflict a b) else none) ++
  ((List.finRange 16).flatMap fun ch => lamps.filterMap fun l =>
    if 50 ≤ o.mismatch[ch][lampIndex l] then some (FaultCause.mismatch ch l) else none)

/-- A count raised by `k` that stops at its maximum. -/
def satAdd (limit k n : Nat) : Nat := min (n + k) limit

/-- R174: the fault latched: the first condition sets the record, and each further one is counted. -/
def latchFault (cause : FaultCause) (further : Nat) (s : State) : State :=
  enterFaultFlash (s.withOs { s.os with
    fault := some { cause := cause, mode := s.os.mode }, additional := satAdd 255 further s.os.additional })

/-- R171: the monitor's evaluation at a tick. -/
def monitorWork (s : State) : State :=
  match s.cf.image with
  | none => s
  | some img =>
    if s.os.mode.monitored then
      let s' := s.withOs { s.os with conflict := conflictCounts img s, mismatch := mismatchCounts s }
      match conditions s'.os with
      | [] => s'
      | c :: rest => latchFault c rest.length s'
    else s

/-- OS's work of a tick that began in mode `began`, whole, so that no other block sees a part of it (R176); the order of its two
parts is open (R174, log entry 50). -/
def supervisorWork (began : Mode) (s : State) : State :=
  if Config.monitorFirst s.free then modeTimerWork began (monitorWork s) else monitorWork (modeTimerWork began s)

/-- CONFLICT (R172): the evaluation that brings the pair's count to 20. -/
def execConflict (a b : Group) (s : State) : Host.Outcome State Fault Refusal :=
  .next <| match s.cf.image with
  | none => s
  | some img =>
    whenDue (s.os.mode.monitored && decide (a < b) && img.conflicts a b && 19 ≤ s.os.conflict[a][b])
      (latchFault (.conflict a b) 0 s) s

/-- MISMATCH (R173): the evaluation that brings the lamp's count to 50. A lamp commanded flashing is not counted; the level
sensed at this evaluation is the event's own (log entry 4). -/
def execMismatch (ch : Group) (lamp : Lamp) (s : State) : Host.Outcome State Fault Refusal :=
  .next <| whenDue (s.os.mode.monitored && !(lampCommand s ch lamp).flashes && 49 ≤ s.os.mismatch[ch][lampIndex lamp])
    (latchFault (.mismatch ch lamp) 0 s) s

end Sys2Proof.Machine
end

