-- ==== Sys2Proof/Machine/Sequencer.lean ====
section
/-! DEFINITION. Machine/Sequencer.lean: the Stage Sequencer's evaluation (chapter 2, sections 2.3 to 2.7) and its events. -/

namespace Sys2Proof.Machine

/-- R21: the passage time of a stage, in tenths. -/
def passageTime (s : State) (st : Stage) : Nat :=
  match s.cf.image with
  | some img => img.stages[st].passage
  | none => 0

/-- R21: the max green of a stage, in tenths. -/
def maxGreenTime (s : State) (st : Stage) : Nat :=
  match s.cf.image with
  | some img => 10 * img.stages[st].maxGreen
  | none => 0

/-- R35: the hold cap of the active plan, in tenths. -/
def holdCapTime (s : State) : Nat :=
  match activePlan s with
  | some r => 10 * r.holdCap
  | none => 0

/-! ## (1) The timers at a tenth mark -/

/-- R28, R31: the passage timer at a tenth mark; a reload above 0 withdraws a latch holding GAP. -/
def countPassage (s : State) (st : Stage) : SqState :=
  let q := s.sq
  if extensionActive s st then
    { q with passage := passageTime s st,
             latch := if q.latch = some .gap ∧ 0 < passageTime s st then none else q.latch }
  else { q with passage := q.passage - 1 }

/-- R29, R35: the running max and hold extension timers at a tenth mark. -/
def countRunning (q : SqState) : SqState :=
  { q with
    maxTimer := if q.maxRunning then satInc 1800 q.maxTimer else q.maxTimer,
    hold := if q.holdRunning then satInc 300 q.hold else q.hold }

/-- R24 (1). -/
def countSqTimers (s : State) : State :=
  if tenthMark s then
    let s' := match s.sq.phase, s.sq.current with
      | .complete, some st => if s.sq.passageRunning then s.withSq (countPassage s st) else s
      | _, _ => s
    s'.withSq (countRunning s'.sq)
  else s

/-! ## (2) The change in flight -/

/-- R39: the change is COMPLETE; a recorded redirect is taken at once (R42). -/
def completeChange (t : Stage) (s : State) : State :=
  let s' := s.withSq { s.sq with
    current := some t, target := none, phase := .complete, passage := passageTime s t, passageRunning := true,
    entering := tab 16 fun _ => false, changeTruncating := false }
  match s.sq.command with
  | some (u, truncating) => if u = t then s' else startChange .preempt truncating u s'
  | none => s'

/-- R24 (2), R38, R39. -/
def followChange (s : State) : State :=
  match s.sq.target with
  | none => s
  | some t =>
    let s' := lateLeaves s t
    if stageGreen s' t then completeChange t s' else s'

/-! ## (3) Commands and halts -/

/-- R24 (3). -/
def takeOrders (s : State) : State :=
  let s' := takeArrivals s
  if haltWaiting s' then takeHalt s' else s'

/-! ## (4) Termination -/

/-- R30: terminations are tested: COMPLETE, no PE command, no halt request. -/
def testsTermination (q : SqState) : Bool := q.phase == .complete && q.command == none && !q.haltRequest

/-- R33: a force-off point is read for the stage: it is not the coordinated stage of a coordinated plan (R22). -/
def crossedForceOff (s : State) (st : Stage) : Bool := s.ck.report.crossed[st] && coordinatedStage s != some st

/-- R33: the force-off latched flag at an evaluation. During a change back to the current stage (R41), once its command is
released, a crossing of that stage's point is latched as one of the change target (log entry 53). -/
def latchForceOff (s : State) : State :=
  let hit := match s.sq.target, s.sq.current with
    | some t, _ => crossedForceOff s t
    | none, some st => s.sq.phase == .complete && crossedForceOff s st
    | none, none => false
  if hit && s.sq.command == none && !s.sq.haltRequest then s.withSq { s.sq with forceOff := true } else s

/-- R29: the max timer started, and never running for the coordinated stage of a coordinated plan. -/
def startMax (s : State) : State :=
  match s.sq.current with
  | none => s
  | some st =>
    if !testsTermination s.sq then s
    else if coordinatedStage s = some st then s.withSq (stopMax s.sq)
    else if !s.sq.maxRunning && otherDemand s st then s.withSq { s.sq with maxTimer := 0, maxRunning := true }
    else s

/-- R33: the FORCE condition. -/
def forceCondition (s : State) (st : Stage) : Bool :=
  s.sq.forceOff && coordinatedStage s != some st && minGreensDone s st

/-- R32: the MAX condition. -/
def maxCondition (s : State) (st : Stage) : Bool := s.sq.maxRunning && maxGreenTime s st ≤ s.sq.maxTimer

/-- R31: the GAP condition. -/
def gapCondition (s : State) (st : Stage) : Bool :=
  coordinatedStage s != some st && s.sq.passage == 0 && minGreensDone s st

/-- R30: what the latch becomes. -/
def nextLatch (s : State) (st : Stage) : Option TermCause :=
  let open_ := s.sq.latch == none || s.sq.latch == some .gap
  if open_ && forceCondition s st then some .force
  else if open_ && maxCondition s st then some .max
  else if s.sq.latch == none && gapCondition s st then some .gap
  else s.sq.latch

/-- R30: the termination latch tested. -/
def testLatch (s : State) : State :=
  match s.sq.current with
  | some st => if testsTermination s.sq then s.withSq { s.sq with latch := nextLatch s st } else s
  | none => s

/-- The current stage is the COMPLETE coordinated stage, with no command and no halt request (R34, R35). -/
def atCoordinated (s : State) : Bool :=
  testsTermination s.sq && s.sq.current.isSome && coordinatedStage s == s.sq.current

/-- R35: the hold extension started at the first evaluation at which the yield window is no longer open, also for a coordinated
stage that becomes COMPLETE only at this evaluation (log entry 52). -/
def startHold (s : State) : State :=
  if s.sq.yieldWasOpen && !s.ck.report.yieldOpen && atCoordinated s && platoonHold s && 0 < holdCapTime s then
    s.withSq { s.sq with hold := 0, holdRunning := true }
  else s

/-- R35: the tenth mark at which the hold extension timer reaches ten times the hold cap. -/
def lastHoldTenth (s : State) : Bool := tenthMark s && s.sq.holdRunning && holdCapTime s ≤ s.sq.hold

/-- R34, R35: YIELD taken where it may be; at the last tenth of a hold extension the extension ends either way. -/
def testYield (last : Bool) (s : State) : State :=
  let may := atCoordinated s && s.sq.latch == none && (s.ck.report.yieldOpen || s.sq.holdRunning) &&
    (!platoonHold s || last)
  match (if may then selectNext s else none) with
  | some t => startChange .yield false t s
  | none => if last then s.withSq (endHold s.sq) else s

/-! ## (5) Next-stage selection -/

/-- R24 (5), R36, R37: while the latch is set and no change is in flight, the next stage is looked for. A latch kept across an
adoption that makes the current stage the coordinated one (R30) still ends it, by MAX too (log entry 13). -/
def runSelection (s : State) : State :=
  match s.sq.latch, selectNext s with
  | some cause, some t => if testsTermination s.sq then startChange cause false t s else s
  | _, _ => s

/-! ## The evaluation (R24) -/

/-- R45: every group is in RED or OFF after the halt was taken. -/
def haltFinished (s : State) : Bool :=
  s.os.mode == .flashEntry && s.sq.haltRequest && s.sq.latch == some .flash && allRedOrOff s

/-- R45, R169: the current stage becomes absent and the report takes OS into MANUAL FLASH. -/
def reportHalt (s : State) : State := enterManualFlash (s.withSq { s.sq with current := none })

/-- R24 (4). -/
def testTermination (s : State) : State :=
  let s1 := startHold (startMax (latchForceOff s))
  let s2 := testLatch s1
  testYield (lastHoldTenth s2) s2

/-- R24: one evaluation, PL's reading of it (R135) and the halt report. PL reads once, after all steps, so a stage that becomes
COMPLETE and is left again within one evaluation (R42) shows it no green (log entry 47). -/
def sqEvaluation (s : State) : State :=
  let s1 := runSelection (testTermination (takeOrders (followChange (countSqTimers s))))
  let s2 := readGreens (s1.withSq { s1.sq with yieldWasOpen := s1.ck.report.yieldOpen })
  if haltFinished s2 then reportHalt s2 else s2

/-- SQ's work of a tick. -/
def sqWork (s : State) : State :=
  if s.os.mode = .run ∨ s.os.mode = .flashEntry then sqEvaluation s else s

/-! ## Events of the Stage Sequencer. Each takes place at an evaluation, in RUN or FLASH ENTRY. -/

/-- SQ evaluates in this mode. -/
def sqRuns (s : State) : Bool := s.os.mode == .run || s.os.mode == .flashEntry

/-- PASSAGE_TIMER_EXPIRY (R31): the count that brings the passage timer to 0; GAP may latch and a change may start. -/
def execPassageTimerExpiry (s : State) : Host.Outcome State Fault Refusal :=
  .next <| match s.sq.current with
  | none => s
  | some st =>
    whenDue (sqRuns s && s.sq.phase == .complete && s.sq.passageRunning && s.sq.passage ≤ 1 && !extensionActive s st)
      (readGreens (runSelection (testLatch (s.withSq { s.sq with passage := 0 })))) s

/-- MAX_TIMER_EXPIRY (R32): the count that brings the max timer to the max green. -/
def execMaxTimerExpiry (s : State) : Host.Outcome State Fault Refusal :=
  .next <| match s.sq.current with
  | none => s
  | some st =>
    whenDue (sqRuns s && testsTermination s.sq && s.sq.maxRunning && maxGreenTime s st ≤ s.sq.maxTimer + 1 &&
        coordinatedStage s != some st)
      (readGreens (runSelection (testLatch (s.withSq { s.sq with maxTimer := satInc 1800 s.sq.maxTimer })))) s

/-- HOLD_EXTENSION_EXPIRY (R35): the count that brings the hold extension timer to ten times the hold cap. -/
def execHoldExtensionExpiry (s : State) : Host.Outcome State Fault Refusal :=
  .next <| whenDue (sqRuns s && s.sq.holdRunning && holdCapTime s ≤ s.sq.hold + 1)
    (readGreens (testYield true (s.withSq { s.sq with hold := satInc 300 s.sq.hold }))) s

/-- STAGE_CHANGE_COMPLETE (R39). -/
def execStageChangeComplete (s : State) : Host.Outcome State Fault Refusal :=
  .next <| match s.sq.target with
  | none => s
  | some t => whenDue (sqRuns s && stageGreen s t) (readGreens (completeChange t s)) s

/-- PE_COMMAND (R43): not stored while a halt request is present or the mode is not RUN. -/
def execPeCommand (target : Stage) (truncating : Bool) (s : State) : Host.Outcome State Fault Refusal :=
  .next <| whenDue (s.os.mode == .run && !s.sq.haltRequest) (readGreens (takeCommand target truncating s)) s

/-- PE_COMMAND_RELEASE (R44): the command released, or a truncating one replaced by a non-truncating one. -/
def execPeCommandRelease (downgrade : Bool) (s : State) : Host.Outcome State Fault Refusal :=
  .next <| match s.sq.command with
  | none => s
  | some (t, truncating) =>
    if downgrade then
      whenDue truncating (let s' := dropTruncation s; s'.withSq { s'.sq with command := some (t, false) }) s
    else dropCommand s

/-- HALT (R45): the halt request taken; with every group in RED or OFF its end is reported at once. -/
def execHalt (s : State) : Host.Outcome State Fault Refusal :=
  .next <| whenDue (s.os.mode == .flashEntry && haltWaiting s)
    (let s' := readGreens (takeHalt s)
     if haltFinished s' then reportHalt s' else s') s

/-- HALT_DONE (R169). -/
def execHaltDone (s : State) : Host.Outcome State Fault Refusal :=
  .next <| whenDue (haltFinished s) (reportHalt s) s

end Sys2Proof.Machine
end

