-- ==== Sys2Proof/Machine/Detectors.lean ====
section
/-! DEFINITION. Machine/Detectors.lean: the Detector Unit (chapter 3). -/

namespace Sys2Proof.Machine

/-- One detector's running state replaced. -/
def setDet (d : Detector) (x : Det) (s : State) : State := s.withDu (put s.du d x)

/-- R50: the sample of detector `d`. -/
def sample (r : DetectorRecord) (s : State) (d : Detector) : Bool := s.pins.detectors.getLsbD d.val == r.activeHigh

/-- R51: the filter time of the direction concerned, in ticks. -/
def filterTime (r : DetectorRecord) (x : Det) : Nat := 10 * (if x.filtered then r.offFilter else r.onFilter)

/-- R53: an on-edge of the detector latches a call. -/
def latchesCall (r : DetectorRecord) : Bool :=
  match r.kind with
  | .pulse => true
  | .presence | .count => r.locking

/-- R52 (2): the call an on-edge sends. -/
def sendCall (r : DetectorRecord) (s : State) : State :=
  match r.callGroup with
  | some g => if latchesCall r then writeCall g s else s
  | none => s

/-- R52: what an on-edge makes of the running state. -/
def onEdgeOf (x : Det) : Det :=
  { x with filtered := true, count := 0, pending := true, presence := 0, noActivity := 0, state := .occupied }

/-- R52: what an off-edge makes of the running state. -/
def offEdgeOf (x : Det) : Det := { x with filtered := false, count := 0, state := .idle }

/-- R52: a filtered on-edge. -/
def onEdge (r : DetectorRecord) (d : Detector) (s : State) : State :=
  let s' := sendCall r (setDet d (onEdgeOf s.du[d]) s)
  if r.kind = .count then exitEdge d s' else s'

/-- R52: a filtered off-edge. -/
def offEdge (d : Detector) (s : State) : State := setDet d (offEdgeOf s.du[d]) s

/-- R57: the presence timer at a tenth mark. -/
def countPresence (r : DetectorRecord) (x : Det) : Det :=
  if x.state = .occupied ∧ 0 < r.maxPresence then
    let t := satInc 2550 x.presence
    { x with presence := t, state := if 10 * r.maxPresence ≤ t then .failedOn else .occupied }
  else x

/-- R59: the no-activity timer at a second mark. -/
def countQuiet (r : DetectorRecord) (x : Det) : Det :=
  if x.state = .idle ∧ 0 < r.noActivity then
    let t := satInc 14400 x.noActivity
    { x with noActivity := t, state := if 60 * r.noActivity ≤ t then .failedQuiet else .idle }
  else x

/-- R57, R59: the supervision counts of one detector at a tick. -/
def supervise (r : DetectorRecord) (s : State) (x : Det) : Det :=
  let x' := if tenthMark s then countPresence r x else x
  if secondMark s then countQuiet r x' else x'

/-- R51, R52: one detector at a tick: the sample and the filter, then the edge, then the supervision counts; a timer that an
edge restarts or stops is not also counted (log entry 43: at an off-edge, the no-activity timer too). -/
def detectorTick (img : Image) (s : State) (d : Detector) : State :=
  let r := img.detectors[d]
  let x := s.du[d]
  if sample r s d == x.filtered then setDet d (supervise r s { x with count := 0 }) s
  else if filterTime r x < x.count + 1 then (if x.filtered then offEdge d s else onEdge r d s)
  else setDet d (supervise r s { x with count := x.count + 1 }) s

/-- DU's work of a tick (R64). Edges of several detectors at one tick are taken, and offered to PL, in ascending order of
detector number (log entry 45). -/
def duWork (s : State) : State :=
  match s.cf.image with
  | none => s
  | some img => (List.finRange 24).foldl (detectorTick img) s

/-- R63: a detector reset of all 24 detectors; with no image held the values are the same (R64). -/
def resetDetectors (s : State) : State := s.withDu (tab 24 fun _ => Det.reset)

/-- R56: the pending set after an exchange with `mask`. -/
def clearPending (mask : BitVec 24) (s : State) : State :=
  s.withDu (tab 24 fun d =>
    let x := s.du[d]
    { x with pending := x.pending && !mask.getLsbD d.val })

/-- An event of one detector, while DU holds its record. -/
def detectorEvent (d : Detector) (due : DetectorRecord → Det → Bool) (act : DetectorRecord → State → State) (s : State) :
    Host.Outcome State Fault Refusal :=
  .next <| match s.cf.image with
  | none => s
  | some img => whenDue (due img.detectors[d] s.du[d]) (act img.detectors[d] s) s

/-- ON_EDGE (R52): the on sample that takes the filter count past the on-filter. -/
def execOnEdge (d : Detector) (s : State) : Host.Outcome State Fault Refusal :=
  detectorEvent d (fun r x => !x.filtered && filterTime r x ≤ x.count) (fun r s => onEdge r d s) s

/-- OFF_EDGE (R52): the off sample that takes the filter count past the off-filter. -/
def execOffEdge (d : Detector) (s : State) : Host.Outcome State Fault Refusal :=
  detectorEvent d (fun r x => x.filtered && filterTime r x ≤ x.count) (fun _ s => offEdge d s) s

/-- FAILED_ON (R57): the count that brings the presence timer to the max presence. -/
def execFailedOn (d : Detector) (s : State) : Host.Outcome State Fault Refusal :=
  detectorEvent d (fun r x => x.state == .occupied && 0 < r.maxPresence && 10 * r.maxPresence ≤ x.presence + 1)
    (fun r s => setDet d (countPresence r s.du[d]) s) s

/-- FAILED_QUIET (R59): the count that brings the no-activity timer to the limit. -/
def execFailedQuiet (d : Detector) (s : State) : Host.Outcome State Fault Refusal :=
  detectorEvent d (fun r x => x.state == .idle && 0 < r.noActivity && 60 * r.noActivity ≤ x.noActivity + 1)
    (fun r s => setDet d (countQuiet r s.du[d]) s) s

end Sys2Proof.Machine
end

