-- ==== Sys2Proof/Machine/Clock.lean ====
section
/-! DEFINITION. Machine/Clock.lean: the Time Base and the Cycle Clock (chapters 4 and 5) and plan following (chapter 7). -/

namespace Sys2Proof.Machine

/-- R66: the divider's tick advances M. -/
def advanceMark (s : State) : State := s.withTb { divider := 0, m := (s.tb.m + 1) % 1000 }

/-! ## Estimates and the jump-in (R79, R88) -/

/-- R88: the estimate of corridor time from an entry's last beacon, its age and the line compensation of 1 tick. -/
def estimate (c : Nat) (e : Entry) : Nat :=
  match e.last with
  | some b => (b.reference + e.age + 1) % c
  | none => 0

/-- R79: `e` is taken before `f`: the higher weight, and of equal weights the lower address. -/
def preferred (e f : Entry) : Bool := f.weight < e.weight || (e.weight == f.weight && e.address < f.address)

/-- R79: the qualifying neighbor a jump-in copies. -/
def bestNeighbor : List Entry → Option Entry
  | [] => none
  | e :: rest =>
    match bestNeighbor rest with
    | none => some e
    | some f => if preferred f e then some f else some e

/-- R79: the jump-in from an entry. -/
def jumpIn (e : Entry) (k : CkState) : CkState :=
  { k with p := (estimate k.c e + k.o) % k.c, b := 0, hold := 0, unsync := false, unsyncCount := 0 }

/-- R79: a discipline mark without a qualifying neighbor; at the third the flag is cleared. -/
def missJumpIn (k : CkState) : CkState :=
  if 3 ≤ k.unsyncCount + 1 then { k with unsync := false, unsyncCount := 0 } else { k with unsyncCount := k.unsyncCount + 1 }

/-! ## The discipline arithmetic (R89 to R94) -/

/-- R89: the wrapped error of an estimate against R. -/
def wrappedError (c e r : Nat) : Int :=
  let d := (e + c - r % c) % c
  if 2 * d < c then d else (d : Int) - c

/-- R90: the weighted sum of the errors. -/
def weightedSum (c r : Nat) (es : List Entry) : Int :=
  (es.map fun e => (e.weight : Int) * wrappedError c (estimate c e) r).sum

/-- R90: the total weight. -/
def totalWeight (es : List Entry) : Nat := (es.map fun e => e.weight).sum

/-- R91: the quotient rounded to the nearest whole tick, ties away from zero. -/
def average (sum : Int) (w : Nat) : Int :=
  let q : Nat := (2 * sum.natAbs + w) / (2 * w)
  if sum < 0 then -(q : Int) else q

/-- R92: a magnitude divided by 2 to the power g, to the nearest whole number, a tie to the even neighbour. -/
def gainMagnitude (a g : Nat) : Nat :=
  if g = 0 then a
  else
    let q := a / 2 ^ g
    let guard := a.testBit (g - 1)
    let sticky := a % 2 ^ (g - 1) != 0
    if guard && (sticky || q % 2 == 1) then q + 1 else q

/-- R92: the correction with the sign of the average. -/
def gain (a : Int) (g : Nat) : Int :=
  let q : Nat := gainMagnitude a.natAbs g
  if a < 0 then -(q : Int) else q

/-- R93: the deadband. -/
def applyDeadband (d : Int) (deadband : Nat) : Int := if d.natAbs ≤ deadband then 0 else d

/-- R86 to R94, R97: the discipline evaluation. -/
def discipline (img : Image) (es : List Entry) (r : Nat) (k : CkState) : CkState :=
  let w := totalWeight es
  if w = 0 then
    { k with record :=
      { outcome := .noNeighbor, contributors := es.length, weight := 0, average := 0, correction := 0, marks := 0 } }
  else
    let a := average (weightedSum k.c r es) w
    let d := applyDeadband (gain a img.gainShift) img.deadband
    { k with
      b := d,
      record :=
        { outcome := if d = 0 then .zeroed else .applied, contributors := es.length, weight := w, average := a,
          correction := d, marks := 0 } }

/-- R97: a discipline mark that makes no evaluation. -/
def passMark (k : CkState) : CkState := { k with record := { k.record with marks := satInc 255 k.record.marks } }

/-! ## Plan following (R130) -/

/-- R130: the entry counts for plan `p`. -/
def countsFor (p : Plan) (e : Entry) : Bool :=
  match e.state, e.last with
  | .heard, some b => b.mode != .flash && b.plan == p
  | _, _ => false

/-- R130: the count of plan `p`. -/
def planCount (s : State) (p : Plan) : Nat := (places.filterMap fun q => s.nt.places[q]).countP (countsFor p)

/-- R130: the plan with the highest count among those other than the active plan, the lowest-numbered among equals. -/
def leadingPlan (s : State) (active : Plan) : Option Plan :=
  ((List.finRange 4).filter (· ≠ active)).foldl (fun best p =>
    match best with
    | none => some p
    | some q => if planCount s q < planCount s p then some p else best) none

/-- R130: plan following at a discipline mark, unless the plan-hold timer runs. -/
def followPlan (img : Image) (s : State) : State :=
  match s.ck.active with
  | none => s
  | some a =>
    match leadingPlan s a with
    | none => s
    | some p =>
      if s.ck.planHold = 0 ∧ img.quorum ≤ planCount s p ∧ planCount s a < planCount s p then
        s.withCk { s.ck with pendingPlan := some p }
      else s

/-! ## Stage (1): the discipline mark -/

/-- R70 (1): a jump-in is made at this tick. -/
def makesJumpIn (s : State) : Bool :=
  disciplineMark s && coordinatedActive s && s.ck.unsync && (bestNeighbor (contributors s)).isSome

/-- R70 (1): the jump-in attempt or the discipline evaluation. -/
def synchronise (img : Image) (s : State) : State :=
  if coordinatedActive s then
    if s.ck.unsync then
      match bestNeighbor (contributors s) with
      | some e => s.withCk (passMark (jumpIn e s.ck))
      | none => s.withCk (passMark (missJumpIn s.ck))
    else s.withCk (discipline img (contributors s) (reference s) s.ck)
  else s.withCk (passMark s.ck)

/-- R70 (1). -/
def markStage (img : Image) (s : State) : State :=
  if disciplineMark s then followPlan img (synchronise img s) else s

/-! ## Stage (2): the second mark -/

/-- R81: the beacon count advanced; at the period a BEACON is offered. One that LU begins to send at this offer (R107, R108) is
sampled here: after this tick's jump-in and before its advance, adoption and plan-hold count, which R82 leaves open (log entry
46). -/
def countBeacon (img : Image) (s : State) : State :=
  if s.ck.beaconCount < img.beaconPeriod then
    let s' := s.withCk { s.ck with beaconCount := s.ck.beaconCount + 1 }
    if s.ck.beaconCount + 1 = img.beaconPeriod then offer .beacon s' else s'
  else s

/-- R131: the plan-hold timer at a second mark. -/
def countPlanHold (s : State) : State := s.withCk { s.ck with planHold := s.ck.planHold - 1 }

/-- R95: the payout drawn from a balance. -/
def payout (b : Int) (slew : Nat) : Int :=
  let m : Nat := min b.natAbs slew
  if b < 0 then -(m : Int) else m

/-- R95: the payout of this tick. -/
def payoutNow (img : Image) (s : State) : Int := if secondMark s then payout s.ck.b img.slew else 0

/-- R70 (2), but for the payout, which stage (3) applies. -/
def secondStage (img : Image) (s : State) : State :=
  if secondMark s then countPlanHold (countBeacon img s) else s

/-! ## Stage (3): the advance -/

/-- R71, R72: the advance k of a tick. -/
def advanceBy (k : CkState) (pay : Int) : Nat :=
  if pay < 0 then 0 else if 0 < k.hold then 0 else 1 + pay.toNat

/-- R71, R72, R95: the position advanced or held, and the balance paid. -/
def advance (pay : Int) (k : CkState) : CkState :=
  { k with
    b := k.b - pay,
    hold := if pay < 0 then (-pay - 1).toNat else k.hold - 1,
    p := (k.p + advanceBy k pay) % k.c }

/-! ## Stages (4) and (5): crossings, adoption, report -/

/-- R73: an advance of `k` from `p` crosses `x`. -/
def crosses (c p k x : Nat) : Bool :=
  let d := (x + c - p % c) % c
  1 ≤ d && d ≤ k

/-- R74 (1): the position lies in the window. -/
def inWindow (a b p : Nat) : Bool := if a ≤ b then a ≤ p && p ≤ b else a ≤ p || p ≤ b

/-- R75: the report for a coordinated plan at position `p`, with the test for crossed points. -/
def reportFor (r : PlanRecord) (p : Nat) (crossed : Nat → Bool) (starts : Bool) : WindowReport :=
  let window (a b : Nat) : Bool := inWindow (10 * a) (10 * b) p || (starts && crossed (10 * a))
  { yieldOpen := window r.yieldStart r.yieldEnd,
    permissive := tab 8 fun i => window r.stages[i].permStart r.stages[i].permEnd,
    crossed := tab 8 fun i => match r.stages[i].forceOff with
      | some x => crossed (10 * x)
      | none => false }

/-- R77: what an adoption does to the Cycle Clock. -/
def adopt (r : PlanRecord) (p : Plan) (k : CkState) : CkState :=
  { k with
    active := some p, c := 100 * r.cycle, o := if r.isCoordinated then 10 * r.offset else 0, p := 0, b := 0, hold := 0,
    unsync := r.isCoordinated, unsyncCount := 0,
    report := if r.isCoordinated then reportFor r 0 (fun x => x == 0) false else WindowReport.closed }

/-- R77, R22: the pending plan adopted; a hold extension in progress ends (R35). -/
def adoptPending (img : Image) (s : State) : State :=
  match s.ck.pendingPlan with
  | none => s
  | some p =>
    let s' := s.withCk (adopt img.plans[p] p s.ck)
    s'.withSq { endHold s'.sq with yieldWasOpen := false }

/-- R76: a differing plan is pending. -/
def planPending (k : CkState) : Bool := k.pendingPlan.isSome && k.pendingPlan != k.active

/-- CK's work of a tick on a coordinated plan, stages (3) to (5), where no jump-in was made. -/
def runCycle (img : Image) (r : PlanRecord) (s : State) : State :=
  let pay := payoutNow img s
  let k := advanceBy s.ck pay
  let old := s.ck.p
  let c := s.ck.c
  let s' := s.withCk (advance pay s.ck)
  if planPending s'.ck && crosses c old k 0 then adoptPending img s'
  else s'.withCk { s'.ck with report := reportFor r s'.ck.p (crosses c old k) true }

/-- R70: CK's work of a tick. -/
def ckWork (s : State) : State :=
  match s.cf.image, activePlan s with
  | some img, some r =>
    let jump := makesJumpIn s
    let before := s.ck.p
    let s' := secondStage img (markStage img s)
    if r.isCoordinated then
      if jump then s'.withCk { s'.ck with report := reportFor r before (fun _ => false) false }
      else runCycle img r s'
    else if planPending s'.ck && secondMark s then adoptPending img s'
    else s'.withCk { s'.ck with report := WindowReport.closed }
  | _, _ => s

/-! ## Loads, restarts and commands -/

/-- R83: a load ends with a valid image; plan 1 becomes the active and the pending plan. -/
def loadClock (img : Image) (s : State) : State :=
  let r := img.plans[(0 : Plan)]
  s.withCk { CkState.reset with
    active := some 0, pendingPlan := some 0, c := 100 * r.cycle, o := if r.isCoordinated then 10 * r.offset else 0,
    p := if r.isCoordinated then 10 * r.offset else 0, unsync := r.isCoordinated }

/-- R78: BLOCK RESTART NEIGHBORS at the Cycle Clock. -/
def restartClock (s : State) : State :=
  let k := { s.ck with b := 0, hold := 0 }
  s.withCk (if coordinatedActive s then { k with unsync := true, unsyncCount := 0 } else k)

/-- R132: SELECT PLAN carried out. -/
def selectPlan (img : Image) (p : Plan) (s : State) : State :=
  if s.ck.active = some p ∧ s.ck.pendingPlan = s.ck.active then s
  else s.withCk { s.ck with pendingPlan := some p, planHold := 60 * img.planHold }

/-! ## Events of the Cycle Clock -/

/-- UNSYNC_GIVE_UP (R79): the third discipline mark without a qualifying neighbor. -/
def execUnsyncGiveUp (s : State) : Host.Outcome State Fault Refusal :=
  .next <| whenDue (coordinatedActive s && s.ck.unsync && 2 ≤ s.ck.unsyncCount && (contributors s).isEmpty)
    (s.withCk (missJumpIn s.ck)) s

/-- HOLD_END (R72): the held tick that brings the hold count to 0. -/
def execHoldEnd (s : State) : Host.Outcome State Fault Refusal :=
  .next <| whenDue (s.ck.hold == 1) (s.withCk { s.ck with hold := 0 }) s

/-- R76: the next tick's advance crosses cycle zero, or from a free plan the next tick is a second mark. At a discipline mark the
work of stage (1) comes first: a jump-in crosses nothing, the payout is drawn from the B just written (R70), and a plan that
following makes pending is not the one pending now (log entry 32). -/
def adoptionDue (img : Image) (s : State) : Bool :=
  let s' := markStage img (advanceMark s)
  planPending s.ck && s'.ck.pendingPlan == s.ck.pendingPlan &&
    if coordinatedActive s then
      !makesJumpIn (advanceMark s) && crosses s.ck.c s.ck.p (advanceBy s.ck (payoutNow img s')) 0
    else secondMark s'

/-- PLAN_ADOPTION (R77). -/
def execPlanAdoption (s : State) : Host.Outcome State Fault Refusal :=
  .next <| match s.cf.image with
  | none => s
  | some img => whenDue (s.ck.active.isSome && adoptionDue img s) (adoptPending img s) s

/-- BEACON_DUE (R81): the count that brings the beacon count to the period. -/
def execBeaconDue (s : State) : Host.Outcome State Fault Refusal :=
  .next <| match s.cf.image with
  | none => s
  | some img => whenDue (s.ck.beaconCount + 1 == img.beaconPeriod) (countBeacon img s) s

/-- PLAN_HOLD_EXPIRY (R131): the count that brings the plan-hold timer to 0. -/
def execPlanHoldExpiry (s : State) : Host.Outcome State Fault Refusal :=
  .next <| whenDue (s.ck.planHold == 1) (countPlanHold s) s

end Sys2Proof.Machine
end

