-- ==== Sys2Proof/Machine/Neighbors.lean ====
section
/-! DEFINITION. Machine/Neighbors.lean: the Neighbor Table (chapter 7, sections 7.1 to 7.7). -/

namespace Sys2Proof.Machine

/-- One place replaced. -/
def setPlace (p : Place) (e : Option Entry) (s : State) : State := s.withNt { s.nt with places := put s.nt.places p e }

/-! ## Pinned entries (R120, R121) -/

/-- R120: the usable records of the neighbor list, in its order. -/
def usableRecords (own : Nat) : List Nat → List NeighborRecord → List NeighborRecord
  | _, [] => []
  | seen, r :: rest =>
    if 1 ≤ r.address ∧ r.address ≤ 62 ∧ r.address ≠ own ∧ r.address ∉ seen then
      r :: usableRecords own (r.address :: seen) rest
    else usableRecords own seen rest

/-- R121: the link of a pinned entry. -/
def linkOf (img : Image) (r : NeighborRecord) : Link :=
  { inStage := r.inStage, travel := r.travel, exitDetector := r.exitDetector, outStage := r.outStage,
    threshold := r.threshold, headway := r.headway, alert := r.address == (img.cls .emergency).alertTarget }

/-- R120: a pinned entry as it is created. -/
def pinnedEntry (img : Image) (r : NeighborRecord) : Entry :=
  { address := r.address, pinned := true, state := .absent, last := none, age := 65535, weight := r.weight,
    link := some (linkOf img r) }

/-- R120: the table at the end of a load. -/
def pinnedTable (img : Image) : Vector (Option Entry) 8 :=
  let rs := usableRecords img.address [] img.neighbors
  tab 8 fun p => (rs[p.val]?).map (pinnedEntry img)

/-! ## Taking a beacon (R122, R123) -/

/-- R122: a beacon written into an entry. -/
def writeBeacon (b : LastBeacon) (e : Entry) : Entry := { e with last := some b, age := 0, state := .heard }

/-- R122: a new unpinned entry, written. -/
def unpinnedEntry (img : Image) (sender : Nat) (b : LastBeacon) : Entry :=
  { address := sender, pinned := false, state := .heard, last := some b, age := 0, weight := img.defaultWeight, link := none }

/-- The place holds the entry of this address. -/
def holdsAddress (s : State) (address : Nat) (p : Place) : Bool :=
  match s.nt.places[p] with
  | some e => e.address == address
  | none => false

/-- R123: the place holds an unpinned entry in STALE. -/
def replaceable (s : State) (p : Place) : Bool :=
  match s.nt.places[p] with
  | some e => !e.pinned && e.state == .stale
  | none => false

/-- The age of the entry in a place, 0 for a free place. -/
def ageAt (s : State) (p : Place) : Nat :=
  match s.nt.places[p] with
  | some e => e.age
  | none => 0

/-- R123: of the places, the one of greatest age, the first among equals. -/
def oldestPlace (s : State) : List Place → Option Place
  | [] => none
  | p :: rest =>
    match oldestPlace s rest with
    | none => some p
    | some q => if ageAt s p < ageAt s q then some q else some p

/-- A place written by a BEACON of `sender`; the next ageing passes its entry over where the BEACON counts as taken first at the
coming tick (R125, log entry 49). -/
def fillPlace (sender : Nat) (p : Place) (e : Option Entry) (s : State) : State :=
  s.withNt { s.nt with
    places := put s.nt.places p e, passOver := put s.nt.passOver p (Config.beaconBeforeAgeing s.free sender) }

/-- R122, R123: a BEACON taken. -/
def takeBeacon (img : Image) (sender : Nat) (b : LastBeacon) (s : State) : State :=
  match places.find? (holdsAddress s sender) with
  | some p => fillPlace sender p ((s.nt.places[p]).map (writeBeacon b)) s
  | none =>
    match places.find? (fun p => s.nt.places[p].isNone) with
    | some p => fillPlace sender p (some (unpinnedEntry img sender b)) s
    | none =>
      match oldestPlace s (places.filter (replaceable s)) with
      | some p => fillPlace sender p (some (unpinnedEntry img sender b)) s
      | none => s.withNt { s.nt with refused := satInc 255 s.nt.refused }

/-- R126: a FLASH-ALERT sets the last mode of its sender's entry. -/
def takeFlashMode (sender : Nat) (s : State) : State :=
  match places.find? (holdsAddress s sender) with
  | some p =>
    setPlace p ((s.nt.places[p]).map fun e => { e with last := e.last.map fun b => { b with mode := .flash } }) s
  | none => s

/-! ## Ageing (R124) -/

/-- R124 (2): a lost entry: an unpinned one is removed, a pinned one becomes ABSENT. -/
def loseEntry (e : Entry) : Option Entry :=
  if e.pinned then some { e with state := .absent, last := none, age := 65535 } else none

/-- R124: one entry at a tick. -/
def ageEntry (e : Entry) : Option Entry :=
  match e.state, e.last with
  | .absent, _ | _, none => some e
  | st, some b =>
    let age := satInc 65535 e.age
    if 1000 * b.period ≤ age then loseEntry e
    else some { e with age := age, state := if 300 * b.period ≤ age then .stale else st }

/-- NT's work of a tick: every entry is aged (R124) but one that took a BEACON at this tick (R125). -/
def ntWork (s : State) : State :=
  s.withNt { s.nt with
    places := tab 8 fun p => if s.nt.passOver[p] then s.nt.places[p] else (s.nt.places[p]).bind ageEntry,
    passOver := tab 8 fun _ => false }

/-- R128: BLOCK RESTART NEIGHBORS at the table. -/
def restartTable (s : State) : State :=
  s.withNt { NtState.reset with places := tab 8 fun p => (s.nt.places[p]).bind loseEntry }

/-- The age a place's entry would reach at the next ageing, and its last beacon period. -/
def nextAge (s : State) (p : Place) : Option (EntryState × Nat × Nat) :=
  match s.nt.places[p] with
  | some e => e.last.map fun b => (e.state, satInc 65535 e.age, b.period)
  | none => none

/-- ENTRY_STALE (R124): the ageing that brings a HEARD entry to three beacon periods. -/
def execEntryStale (p : Place) (s : State) : Host.Outcome State Fault Refusal :=
  .next <| match nextAge s p with
  | some (st, age, period) =>
    whenDue (st == .heard && 300 * period ≤ age && age < 1000 * period) (setPlace p ((s.nt.places[p]).bind ageEntry) s) s
  | none => s

/-- ENTRY_LOST (R124): the ageing that brings an entry to ten beacon periods. -/
def execEntryLost (p : Place) (s : State) : Host.Outcome State Fault Refusal :=
  .next <| match nextAge s p with
  | some (st, age, period) =>
    whenDue (st != .absent && 1000 * period ≤ age) (setPlace p ((s.nt.places[p]).bind ageEntry) s) s
  | none => s

end Sys2Proof.Machine
end

