-- ==== Sys2Proof/Machine/Receive.lean ====
section
/-! DEFINITION. Machine/Receive.lean: the Line Unit's receiving side (chapter 6, section 6.5): the assembler, the judging of a
frame and its dispatch, and the readback of an attempt. -/

namespace Sys2Proof.Machine

/-! ## Reading a frame -/

/-- The byte at an index of a frame. -/
def byteAt (bs : List Byte) (i : Nat) : Byte := bs.getD i 0

/-- The value of the byte at an index. -/
def num (bs : List Byte) (i : Nat) : Nat := (byteAt bs i).toNat

/-- The two-byte value at an index, high byte first. -/
def num16 (bs : List Byte) (i : Nat) : Nat := u16 (byteAt bs i) (byteAt bs (i + 1))

/-- Table 6.2: the total length of a kind, absent where the code names no kind. -/
def kindLength (code : Nat) : Option Nat :=
  if code = 0x51 then some 6
  else if code = 0x52 then some 10
  else if code = 0x53 then some 12
  else if code = 0x54 then some 12
  else none

/-- The beacon mode a code names. -/
def beaconModeOf (code : Nat) : Option BeaconMode :=
  match code with
  | 1 => some .runCoord
  | 2 => some .runFree
  | 3 => some .preempt
  | 4 => some .flash
  | _ => none

/-- The preemption class a code names; 0 names none. -/
def classOf (code : Nat) : Option PreClass :=
  match code with
  | 1 => some .rail
  | 2 => some .emergency
  | 3 => some .transit
  | _ => none

/-- R113: the check sequence of the frame agrees. -/
def crcAgrees (bs : List Byte) : Bool :=
  crcBytes ((bs.drop 1).take (bs.length - 3)) == bs.drop (bs.length - 2)

/-- R113 (3) to (5): a BEACON's fields are well formed. -/
def beaconWellFormed (bs : List Byte) : Bool :=
  let cycle := num bs 5
  (beaconModeOf (num bs 3)).isSome && 1 ≤ num bs 4 && num bs 4 ≤ 4 && 1 ≤ num bs 8 && num bs 8 ≤ 10 &&
    ((cycle == 0 && num16 bs 6 == 0) || (40 ≤ cycle && cycle ≤ 240 && num16 bs 6 < 100 * cycle))

/-- R113 (1) to (8): no field of the frame is malformed. -/
def fieldsWellFormed (bs : List Byte) : Bool :=
  let kind := num bs 2
  1 ≤ num bs 1 && num bs 1 ≤ 62 &&
    (if kind = 0x54 then beaconWellFormed bs
     else if kind = 0x51 then num bs 3 == 1 || num bs 3 == 2
     else if kind = 0x52 then 1 ≤ num bs 3 && num bs 3 ≤ 63 && num bs 5 == 2
     else 1 ≤ num bs 3 && num bs 3 ≤ 63 && 50 ≤ num16 bs 7 && num16 bs 7 ≤ 600)

/-- R115: the fields of a BEACON as they are handed over, the cycle length in ticks. -/
def beaconOf (bs : List Byte) : LastBeacon :=
  let flags := byteAt bs 9
  { mode := (beaconModeOf (num bs 3)).getD .flash, plan := (codeItem 4 (num bs 4)).getD 0, cycle := 100 * num bs 5,
    reference := num16 bs 6, period := num bs 8, accepting := flags.getLsbD 0, unsync := flags.getLsbD 1,
    planHold := flags.getLsbD 2, fault := flags.getLsbD 3, cls := classOf ((flags.toNat / 16) % 4) }

/-! ## Judging and dispatch (R113 to R115) -/

/-- A change of the line counters. -/
def setCounters (c : LineCounters) (s : State) : State := s.withLu { s.lu with counters := c }

/-- R115: a frame for this station. -/
def addressed (s : State) (bs : List Byte) : Bool := num bs 3 == stationAddress s || num bs 3 == 63

/-- R115, R126, R144, R159: a FLASH-ALERT taken by the three blocks. -/
def takeFlashAlert (sender : Nat) (s : State) : State := cancelAlert sender (purgeSender sender (takeFlashMode sender s))

/-- R115: a good frame from another station dispatched. -/
def dispatch (img : Image) (bs : List Byte) (s : State) : State :=
  let sender := num bs 1
  let kind := num bs 2
  if kind = 0x54 then takeBeacon img sender (beaconOf bs) s
  else if kind = 0x51 then takeFlashAlert sender s
  else if !addressed s bs then s
  else if kind = 0x52 then takePreemptAlert sender (num bs 4) (num16 bs 6) s
  else takePlatoon sender (num bs 4) (num16 bs 5) (num16 bs 7) s

/-- R114: an address clash. -/
def countClash (s : State) : State :=
  s.withLu { s.lu with
    clash := true, counters := { s.lu.counters with clashes := satInc 65535 s.lu.counters.clashes } }

/-- R113 to R115: a completed frame judged; `echo` says that its last byte is the last byte of a successful attempt of this
station. -/
def judge (echo : Bool) (bs : List Byte) (s : State) : State :=
  match s.cf.image with
  | none => s
  | some img =>
    let c := s.lu.counters
    if !crcAgrees bs then setCounters { c with crcErrors := satInc 65535 c.crcErrors } s
    else if !fieldsWellFormed bs then setCounters { c with malformed := satInc 65535 c.malformed } s
    else if num bs 1 = img.address then (if echo then s else countClash s)
    else dispatch img bs (setCounters { c with received := satInc 65535 c.received } s)

/-! ## The assembler (R112) -/

/-- The assembler's state replaced. -/
def setAssembler (a : Assembler) (s : State) : State := s.withLu { s.lu with assembler := a }

/-- A fragment: counted, and the rest of the burst ignored. -/
def fragment (s : State) : State := setAssembler .waitFree (s.withLu (countFragment s.lu))

/-- R112: a byte kept in ASSEMBLING; the third byte gives the kind, the kind the length. -/
def keepByte (echo : Bool) (bs : List Byte) (s : State) : State :=
  if bs.length < 3 then setAssembler (.assembling bs) s
  else match kindLength (num bs 2) with
    | none =>
      let c := s.lu.counters
      setAssembler .waitFree (setCounters { c with malformed := satInc 65535 c.malformed } s)
    | some n =>
      if bs.length < n then setAssembler (.assembling bs) s else judge echo bs (setAssembler .waitFree s)

/-- R112: a received byte fed to the assembler. -/
def assemble (echo : Bool) (b : Byte) (framingError : Bool) (s : State) : State :=
  match s.lu.assembler with
  | .waitFree => s
  | .ready => if b = 0xC3 ∧ framingError = false then setAssembler (.assembling [b]) s else fragment s
  | .assembling bs => if framingError then fragment s else keepByte echo (bs ++ [b]) s

/-! ## Readback (R110) -/

/-- R110: the byte reads back as sent. -/
def readsBack (tx : Sending) (b : Byte) (framingError : Bool) : Bool := !framingError && tx.bytes[tx.next]? == some b

/-- R110: the byte awaited is the last of the frame. -/
def lastByte (tx : Sending) : Bool := tx.next + 1 == tx.bytes.length

/-- R110, R114: the byte ends a successful attempt of this station. -/
def endsAttempt (s : State) (b : Byte) (framingError : Bool) : Bool :=
  match s.lu.sending with
  | some tx => readsBack tx b framingError && lastByte tx
  | none => false

/-- R110: the readback of a byte. -/
def readback (b : Byte) (framingError : Bool) (s : State) : State :=
  match s.lu.sending with
  | none => s
  | some tx =>
    if !readsBack tx b framingError then attemptFailed s
    else if lastByte tx then attemptSucceeded s
    else s.withLu { s.lu with sending := some { tx with next := tx.next + 1 } }

/-- R99, R100, R110, R112: a byte received from the line. -/
def receiveByte (b : Byte) (framingError : Bool) (s : State) : State :=
  let echo := endsAttempt s b framingError
  readback b framingError (assemble echo b framingError (s.withLu { s.lu with busy := true }))

/-- BYTE_RECEIVED (R112): nothing is received while LU is DISABLED. -/
def execByteReceived (b : Byte) (framingError : Bool) (s : State) : Host.Outcome State Fault Refusal :=
  .next <| whenDue (s.lu.access != .disabled) (receiveByte b framingError s) s

/-- R113: the next byte completes the frame being assembled. -/
def nextCompletes (lu : LuState) : Bool :=
  match lu.assembler with
  | .assembling bs => 3 ≤ bs.length && kindLength (num bs 2) == some (bs.length + 1)
  | _ => false

/-- FRAME_RECEIVED (R113): the last byte of the frame being assembled. -/
def execFrameReceived (last : Byte) (s : State) : Host.Outcome State Fault Refusal :=
  .next <| whenDue (s.lu.access != .disabled && nextCompletes s.lu) (receiveByte last false s) s

end Sys2Proof.Machine
end

