-- ==== Sys2Proof/Machine/Operands.lean ====
section
/-! DEFINITION. Machine/Operands.lean: the image as bytes (Table 11.9): how its fields are read, clamped and counted (R180). -/

namespace Sys2Proof.Machine

/-! ## Reading (Table 11.9) -/

/-- A flag bit of a byte. -/
def flagAt (bs : List Byte) (i k : Nat) : Bool := (byteAt bs i).getLsbD k

/-- A two-bit code of a byte. -/
def codeAt (bs : List Byte) (i k : Nat) : Nat := num bs i / 2 ^ k % 4

/-- A group set: group 1 is the lowest bit of the last byte (R186). -/
def groupSetAt (bs : List Byte) (i : Nat) : Vector Bool 16 := tab 16 fun g => (num16 bs i).testBit g.val

/-- A group record; flash pattern code 3 reads as DARK (R180). -/
def readGroup (bs : List Byte) (o : Nat) : GroupRecord :=
  { enabled := flagAt bs o 0, kind := if flagAt bs o 1 then .pedestrian else .vehicle, prep := num bs (o + 1),
    minGreen := num16 bs (o + 2), clearance := num16 bs (o + 4),
    flash := if codeAt bs o 2 = 0 then .flashAmber else if codeAt bs o 2 = 1 then .flashRed else .dark,
    phase := if flagAt bs o 4 then .b else .a }

/-- An intergreen byte; 255 is "no conflict". -/
def readIntergreen (v : Nat) : Option Nat := if v = 255 then none else some v

/-- A stage record. -/
def readStage (bs : List Byte) (o : Nat) : StageRecord :=
  { groups := groupSetAt bs o, passage := num bs (o + 2), maxGreen := num bs (o + 3), enabled := num bs (o + 4) != 0 }

/-- A stage entry of a plan. -/
def readPlanStage (bs : List Byte) (o : Nat) : PlanStage :=
  { recalled := flagAt bs o 0, permStart := num16 bs (o + 1), permEnd := num16 bs (o + 3),
    forceOff := if flagAt bs o 1 then some (num16 bs (o + 5)) else none }

/-- A plan record. -/
def readPlan (bs : List Byte) (o : Nat) : PlanRecord :=
  { cycle := num bs o, offset := num16 bs (o + 1), coordinated := codeItem 8 (num bs (o + 3)),
    yieldStart := num16 bs (o + 4), yieldEnd := num16 bs (o + 6), holdCap := num bs (o + 8),
    stages := tab 8 fun i => readPlanStage bs (o + 9 + 7 * i.val) }

/-- A detector record; kind code 3 reads as PRESENCE, codes that name no group or stage as absent (R180). -/
def readDetector (bs : List Byte) (o : Nat) : DetectorRecord :=
  { kind := if codeAt bs o 0 = 1 then .pulse else if codeAt bs o 0 = 2 then .count else .presence,
    activeHigh := flagAt bs o 2, onFilter := num bs (o + 1), offFilter := num bs (o + 2),
    callGroup := codeItem 16 (num bs (o + 3)), locking := flagAt bs o 3, extStage := codeItem 8 (num bs (o + 4)),
    maxPresence := num bs (o + 5), noActivity := num bs (o + 6) }

/-- A neighbor record; codes that name no stage or detector read as absent (R180). -/
def readNeighbor (bs : List Byte) (o : Nat) : NeighborRecord :=
  { address := num bs o, weight := num bs (o + 1), inStage := codeItem 8 (num bs (o + 2)), travel := num16 bs (o + 3),
    exitDetector := codeItem 24 (num bs (o + 5)), outStage := codeItem 8 (num bs (o + 6)), threshold := num bs (o + 7),
    headway := num bs (o + 8) }

/-- A class record; an exit stage code outside 1 to 8 reads as "continue" (R180). -/
def readClass (bs : List Byte) (o : Nat) : ClassRecord :=
  { onDelay := num bs o, target := codeItem 8 (num bs (o + 1)), exit := codeItem 8 (num bs (o + 2)),
    minDwell := num bs (o + 3), maxDwell := num16 bs (o + 4), inhibit := num16 bs (o + 6), alertTarget := num bs (o + 8),
    alertEta := num16 bs (o + 9), acceptAlerts := num bs (o + 11) != 0, lineLead := num bs (o + 12),
    lineDwell := num bs (o + 13) }

/-- Table 11.9: the image the bytes hold, before clamping. -/
def readImage (bs : List Byte) : Image :=
  let n := num bs 16
  { address := num bs 5, beaconPeriod := num bs 6, defaultWeight := num bs 7, gainShift := num bs 8, deadband := num bs 9,
    slew := num bs 10, quorum := num bs 11, planHold := num bs 12, startFlash := num bs 13, startRed := num bs 14,
    startStage := codeItem 8 (num bs 15), groups := tab 16 fun g => readGroup bs (18 + 6 * g.val),
    intergreen := tab 16 fun a => tab 16 fun g => readIntergreen (num bs (114 + 16 * a.val + g.val)),
    stages := tab 8 fun i => readStage bs (370 + 5 * i.val), plans := tab 4 fun i => readPlan bs (410 + 65 * i.val),
    detectors := tab 24 fun i => readDetector bs (670 + 7 * i.val),
    neighbors := (List.range n).map fun i => readNeighbor bs (838 + 9 * i),
    classes := tab 3 fun i => readClass bs (838 + 9 * n + 15 * i.val) }

/-! ## Clamping (R180) -/

/-- A timing field replaced by the nearer limit of its range. -/
def clamp (lo hi v : Nat) : Nat := max lo (min v hi)

/-- The nearer limit of each timing field of a group (Table 1.1); a PEDESTRIAN group's prep time is 0 (R1). -/
def clampGroup (r : GroupRecord) : GroupRecord :=
  { r with
    prep := match r.kind with
      | .vehicle => clamp 0 30 r.prep
      | .pedestrian => 0,
    minGreen := clamp 10 600 r.minGreen,
    clearance := match r.kind with
      | .vehicle => clamp 30 80 r.clearance
      | .pedestrian => clamp 30 600 r.clearance }

/-- R21. -/
def clampStage (r : StageRecord) : StageRecord :=
  { r with passage := clamp 0 100 r.passage, maxGreen := clamp 10 180 r.maxGreen }

/-- R22. -/
def clampPlan (r : PlanRecord) : PlanRecord := { r with holdCap := clamp 0 30 r.holdCap }

/-- Table 3.1. -/
def clampDetector (r : DetectorRecord) : DetectorRecord :=
  { r with onFilter := clamp 0 25 r.onFilter, offFilter := clamp 0 25 r.offFilter, noActivity := clamp 0 240 r.noActivity }

/-- R119, Table 7.2. -/
def clampNeighbor (r : NeighborRecord) : NeighborRecord :=
  { r with weight := clamp 0 3 r.weight, travel := clamp 0 3000 r.travel, threshold := clamp 1 50 r.threshold,
           headway := clamp 10 40 r.headway }

/-- Table 9.1; the fields a class does not use are left as they stand. -/
def clampClass (c : PreClass) (r : ClassRecord) : ClassRecord :=
  let r' := { r with onDelay := clamp 0 50 r.onDelay, minDwell := clamp 0 60 r.minDwell, maxDwell := clamp 10 600 r.maxDwell }
  match c with
  | .rail => r'
  | .emergency =>
    { r' with alertEta := clamp 0 3000 r.alertEta, lineLead := clamp 0 60 r.lineLead, lineDwell := clamp 5 120 r.lineDwell }
  | .transit => { r' with inhibit := clamp 0 600 r.inhibit }

/-- The class of an index. -/
def classAt (i : Fin 3) : PreClass := if i = 0 then .rail else if i = 1 then .emergency else .transit

/-- R180: every timing field within its range. -/
def clampImage (m : Image) : Image :=
  { m with
    beaconPeriod := clamp 1 10 m.beaconPeriod, defaultWeight := clamp 0 3 m.defaultWeight,
    gainShift := clamp 0 4 m.gainShift, deadband := clamp 0 50 m.deadband, slew := clamp 1 20 m.slew,
    quorum := clamp 1 8 m.quorum, planHold := clamp 0 60 m.planHold, startFlash := clamp 3 60 m.startFlash,
    startRed := clamp 20 100 m.startRed, groups := tab 16 fun g => clampGroup m.groups[g],
    intergreen := tab 16 fun a => tab 16 fun g => m.intergreen[a][g].map (clamp 0 200),
    stages := tab 8 fun i => clampStage m.stages[i], plans := tab 4 fun i => clampPlan m.plans[i],
    detectors := tab 24 fun i => clampDetector m.detectors[i], neighbors := m.neighbors.map clampNeighbor,
    classes := tab 3 fun i => clampClass (classAt i) m.classes[i] }

/-! ## Counting the clamped fields -/

/-- 1 for a value that clamping changes. -/
def changed (a b : Nat) : Nat := if a = b then 0 else 1

/-- The clamped fields of a group. -/
def groupChanges (a b : GroupRecord) : Nat :=
  changed a.prep b.prep + changed a.minGreen b.minGreen + changed a.clearance b.clearance

/-- The clamped fields of a stage. -/
def stageChanges (a b : StageRecord) : Nat := changed a.passage b.passage + changed a.maxGreen b.maxGreen

/-- The clamped fields of a detector. -/
def detectorChanges (a b : DetectorRecord) : Nat :=
  changed a.onFilter b.onFilter + changed a.offFilter b.offFilter + changed a.noActivity b.noActivity

/-- The clamped fields of a neighbor record. -/
def neighborChanges (a b : NeighborRecord) : Nat :=
  changed a.weight b.weight + changed a.travel b.travel + changed a.threshold b.threshold + changed a.headway b.headway

/-- The clamped fields of a class record. -/
def classChanges (a b : ClassRecord) : Nat :=
  changed a.onDelay b.onDelay + changed a.minDwell b.minDwell + changed a.maxDwell b.maxDwell + changed a.inhibit b.inhibit +
    changed a.alertEta b.alertEta + changed a.lineLead b.lineLead + changed a.lineDwell b.lineDwell

/-- The sum of a count over the items 1 to n. -/
def total (n : Nat) (f : Fin n → Nat) : Nat := ((List.finRange n).map f).sum

/-- R180: the number of fields clamping changes, saturating at 255 (Table 11.1). -/
def clampedCount (a b : Image) : Nat :=
  min 255 (changed a.beaconPeriod b.beaconPeriod + changed a.defaultWeight b.defaultWeight +
    changed a.gainShift b.gainShift + changed a.deadband b.deadband + changed a.slew b.slew + changed a.quorum b.quorum +
    changed a.planHold b.planHold + changed a.startFlash b.startFlash + changed a.startRed b.startRed +
    total 16 (fun g => groupChanges a.groups[g] b.groups[g]) +
    total 16 (fun x => total 16 fun g => if a.intergreen[x][g] = b.intergreen[x][g] then 0 else 1) +
    total 8 (fun i => stageChanges a.stages[i] b.stages[i]) +
    total 4 (fun i => changed a.plans[i].holdCap b.plans[i].holdCap) +
    total 24 (fun i => detectorChanges a.detectors[i] b.detectors[i]) +
    ((a.neighbors.zip b.neighbors).map fun p => neighborChanges p.1 p.2).sum +
    total 3 (fun i => classChanges a.classes[i] b.classes[i]))

end Sys2Proof.Machine
end

