-- ==== Sys2Proof/Machine/Loading.lean ====
section
/-! DEFINITION. Machine/Loading.lean: the Configuration Loader (chapter 11, section 11.1) and what resets and loads do to every
block. -/

namespace Sys2Proof.Machine

/-! ## Power-on and RELOAD -/

/-- R183: a reset abandons the transaction in hand; the port is quiet until select rises. -/
def abandonTransaction (s : State) : MpState := { MpState.reset with ignoring := s.pins.selectLow }

/-- R163, R164, R177: every block at its values after power-on. The input pins stand as they stand; the model's counter of free
values and its queue are not the part's. -/
def resetStation (s : State) : State :=
  { State.reset with free := s.free, pins := s.pins, mp := abandonTransaction s, pending := s.pending }

/-- R163: the values RELOAD brings to the Output Supervisor and the Configuration Loader, the Stage Sequencer, the Detector Unit
and the Cycle Clock. -/
def clearForLoad (s : State) : State :=
  ((((s.withOs OsState.reset).withCf CfState.reset).withSq SqState.reset).withDu (tab 24 fun _ => Det.reset)).withCk
    CkState.reset

/-- R170, R177: RELOAD carried out: every block gives up its image; the counters that RELOAD leaves stand. -/
def reloadStation (s : State) : State :=
  let s' := reloadPe (reloadLine (groupsOff (clearForLoad s)))
  (s'.withNt { NtState.reset with refused := s.nt.refused }).withPl
    { s.pl with queue := [], accepting := true, links := tab 8 fun _ => none }

/-! ## Structural checks (Table 11.2, R179) -/

/-- The stage is enabled. -/
def stageOn (m : Image) (st : Option Stage) : Bool :=
  match st with
  | some i => m.stages[i].enabled
  | none => false

/-- Some pair of groups for which `f` holds. -/
def somePair (f : Group → Group → Bool) : Bool := (List.finRange 16).any fun a => (List.finRange 16).any fun g => f a g

/-- Check 7. -/
def asymmetric (m : Image) : Bool := somePair fun a g => m.conflicts a g && !m.conflicts g a

/-- Check 8, over every entry that holds a time, the diagonal included. -/
def intergreenTooShort (m : Image) : Bool := somePair fun a g =>
  match m.intergreen[a][g] with
  | some i => i < m.groups[a].clearance
  | none => false

/-- Check 9. -/
def stageHasConflict (m : Image) : Bool := (List.finRange 8).any fun i => somePair fun a g =>
  m.stages[i].groups[a] && m.stages[i].groups[g] && m.conflicts a g

/-- Check 10. -/
def stageGroupFault (m : Image) : Bool := (List.finRange 8).any fun i =>
  m.stages[i].enabled &&
    (((List.finRange 16).any fun g => m.stages[i].groups[g] && !m.groups[g].enabled) ||
      (List.finRange 16).all fun g => !m.stages[i].groups[g])

/-- Check 11. -/
def noStageEnabled (m : Image) : Bool := (List.finRange 8).all fun i => !m.stages[i].enabled

/-- Check 12. -/
def badStageReference (m : Image) : Bool :=
  !stageOn m m.startStage ||
    ((List.finRange 4).any fun p => m.plans[p].isCoordinated && !stageOn m m.plans[p].coordinated) ||
    (List.finRange 3).any fun c => !stageOn m m.classes[c].target

/-- Check 13. -/
def badCycleLength (m : Image) : Bool := (List.finRange 4).any fun p =>
  m.plans[p].isCoordinated && !(40 ≤ m.plans[p].cycle && m.plans[p].cycle ≤ 240)

/-- The points of a stage entry lie below the cycle length, given in tenths. -/
def pointsBelow (c : Nat) (x : PlanStage) : Bool :=
  x.permStart < c && x.permEnd < c && match x.forceOff with
    | some f => f < c
    | none => true

/-- Check 14. -/
def badCyclePoint (m : Image) : Bool := (List.finRange 4).any fun p =>
  let r := m.plans[p]
  let c := 10 * r.cycle
  r.isCoordinated && !(r.offset < c && r.yieldStart < c && r.yieldEnd < c &&
    (List.finRange 8).all fun i => pointsBelow c r.stages[i])

/-- R179: the cause of the first structural check that fails, NONE when the image passes them all. -/
def structuralCause (m : Image) : LoadCause :=
  if !(1 ≤ m.address && m.address ≤ 62) then .address
  else if asymmetric m then .asymmetry
  else if intergreenTooShort m then .intergreen
  else if stageHasConflict m then .stageConflict
  else if stageGroupFault m then .stageGroup
  else if noStageEnabled m then .noStage
  else if badStageReference m then .stageReference
  else if badCycleLength m then .cycleLength
  else if badCyclePoint m then .cyclePoint
  else .none

/-! ## The end of a load (R178, R179, R181) -/

/-- R181: a load that ends without a valid image: the cause is recorded and NO-PLAN FLASH is entered. -/
def failLoad (cause : LoadCause) (clamped : Nat) (s : State) : State :=
  (s.withCf { s.cf with load := .ended, cause := cause, clamped := clamped, buffer := [] }).withOs
    { s.os with mode := .noPlanFlash }

/-- R181: a load that ends with a valid image: every block takes its records and starting values, and START FLASH is entered. -/
def completeLoad (m : Image) (clamped : Nat) (s : State) : State :=
  let s1 := s.withCf { s.cf with
    image := some m, load := .ended, valid := true, cause := .none, clamped := clamped, buffer := [] }
  let s2 := loadClock m (enableLine s1)
  let s3 := s2.withNt { NtState.reset with places := pinnedTable m, refused := s2.nt.refused }
  let s4 := s3.withPl { s3.pl with queue := [], accepting := true, links := createLinks s3.nt }
  enterStartFlash (resetDetectors (reloadPe s4))

/-- R178: the declared length of the header. -/
def declaredLength (bs : List Byte) : Nat := num16 bs 3

/-- R178: the first of the three header checks that fails. -/
def headerCause (bs : List Byte) : LoadCause :=
  if !(byteAt bs 0 == 0xA6 && byteAt bs 1 == 0x4F) then .mark
  else if byteAt bs 2 != 0x01 then .format
  else if !(num bs 16 ≤ 8 && declaredLength bs == 885 + 9 * num bs 16) then .length
  else .none

/-- R179: the check sequence of the whole image agrees. -/
def imageCrcAgrees (bs : List Byte) : Bool := crcBytes (bs.take (bs.length - 2)) == bs.drop (bs.length - 2)

/-- R179: the body judged. -/
def judgeImage (bs : List Byte) (s : State) : State :=
  if !imageCrcAgrees bs then failLoad .crc 0 s
  else
    let raw := readImage bs
    let m := clampImage raw
    let n := clampedCount raw m
    if structuralCause m = .none then completeLoad m n s else failLoad (structuralCause m) n s

/-! ## The commands -/

/-- POWER_ON (R164). -/
def execPowerOn (s : State) : Host.Outcome State Fault Refusal := .next (resetStation s)

/-- RESET_PIN (R164). -/
def execResetPin (s : State) : Host.Outcome State Fault Refusal := .next (resetStation s)

/-- A load is in progress in this reading state. -/
def loading (st : LoadState) (s : State) : Bool := s.os.mode == .loading && s.cf.load == st

/-- HEADER_READ (R178). -/
def execHeaderRead (header : Vector Byte 18) (s : State) : Host.Outcome State Fault Refusal :=
  let bs := header.toList
  let s' := s.withCf { s.cf with position := 18, buffer := bs }
  .next <| whenDue (loading .readingHeader s)
    (if headerCause bs = .none then s'.withCf { s'.cf with load := .readingBody } else failLoad (headerCause bs) 0 s') s

/-- R178: the number of bytes the reading state reads up to. -/
def readLimit (s : State) : Nat := if s.cf.load = .readingHeader then 18 else declaredLength s.cf.buffer

/-- MEMORY_NO_ACKNOWLEDGE (R178): the byte after the delivered ones is refused. -/
def execMemoryNoAcknowledge (delivered : List Byte) (s : State) : Host.Outcome State Fault Refusal :=
  .next <| whenDue (s.os.mode == .loading && s.cf.load != .ended && s.cf.position + delivered.length < readLimit s)
    (failLoad .overrun 0 (s.withCf { s.cf with overrun := true, position := s.cf.position + delivered.length })) s

/-- LOAD_END (R179): the last byte of the declared length has been read. -/
def execLoadEnd (body : List Byte) (s : State) : Host.Outcome State Fault Refusal :=
  .next <| whenDue (loading .readingBody s && s.cf.position + body.length == declaredLength s.cf.buffer)
    (judgeImage (s.cf.buffer ++ body) (s.withCf { s.cf with position := s.cf.position + body.length })) s

end Sys2Proof.Machine
end

