-- ==== Sys2Proof/Machine/Formats.lean ====
section
/-! DEFINITION. Machine/Formats.lean: the response data of the maintenance commands, byte for byte (R185, R186, Tables 11.4, 11.6
and 11.8). -/

namespace Sys2Proof.Machine

/-- One byte of response data. -/
def byte (n : Nat) : Byte := BitVec.ofNat 8 n

/-! ## Codes (Table 11.6 and the order of the owning chapter's table) -/

def modeCode : Mode → Nat
  | .loading => 1
  | .noPlanFlash => 2
  | .startFlash => 3
  | .startRed => 4
  | .run => 5
  | .flashEntry => 6
  | .manualFlash => 7
  | .faultFlash => 8

def groupCode : GroupPhase → Nat
  | .off => 0
  | .red => 1
  | .prep => 2
  | .green => 3
  | .clearance => 4
  | .flashing => 5

def lampCode : LampCommand → Nat
  | .off => 0
  | .steady => 1
  | .flashing _ => 2

def termCode : Option TermCause → Nat
  | none => 0
  | some .gap => 1
  | some .max => 2
  | some .force => 3
  | some .yield => 4
  | some .preempt => 5
  | some .flash => 6

def detCode : DetState → Nat
  | .idle => 0
  | .occupied => 1
  | .failedOn => 2
  | .failedQuiet => 3

def sourceCode : LampSource → Nat
  | .sequencer => 0
  | .flash => 1
  | .dark => 2
  | .noPlanRedFlash => 3

def accessCode : Access → Nat
  | .disabled => 0
  | .idle => 1
  | .defer => 2
  | .backoff => 3
  | .sending => 4

def entryCode : EntryState → Nat
  | .absent => 0
  | .heard => 1
  | .stale => 2

def requestCode : Request → Nat
  | .none => 0
  | .requestedLocal => 1
  | .requestedLine => 2
  | .lockedOut => 3
  | .inhibited => 4

def phaseCode : ServicePhase → Nat
  | .entry => 0
  | .dwell => 1
  | .exit => 2

def outcomeCode : EvalOutcome → Nat
  | .none => 0
  | .noNeighbor => 1
  | .zeroed => 2
  | .applied => 3

/-- Table 11.2. -/
def causeCode : LoadCause → Nat
  | .none => 0
  | .overrun => 1
  | .mark => 2
  | .format => 3
  | .length => 4
  | .crc => 5
  | .address => 6
  | .asymmetry => 7
  | .intergreen => 8
  | .stageConflict => 9
  | .stageGroup => 10
  | .noStage => 11
  | .stageReference => 12
  | .cycleLength => 13
  | .cyclePoint => 14

/-- Codes of the lamps in a fault record (Table 11.8). -/
def faultLampCode : Lamp → Nat
  | .red => 1
  | .amber => 2
  | .green => 3

/-- The channels or groups in order. -/
def groups : List Group := List.finRange 16

/-- A group set as a number, group 1 lowest. -/
def groupSet (v : Vector Bool 16) : Nat := packItems 1 (groups.map fun g => bit v[g])

/-! ## READ GROUPS (R20) -/

/-- The commanded lamps of a group, two bits each, red lowest. -/
def groupLamps (s : State) (g : Group) : Nat :=
  match s.cf.image with
  | some img => packItems 2 (lamps.map fun l => lampCode (groupLamp img.groups[g] s.ge[g].phase l))
  | none => 0

/-- The kind of a group: 0 VEHICLE, 1 PEDESTRIAN, and 0 while no image is held (log entry 35). -/
def kindOf (s : State) (g : Group) : Nat :=
  match s.cf.image with
  | some img => bit (img.groups[g].kind == .pedestrian)
  | none => 0

/-- One record of READ GROUPS. -/
def groupRecord (s : State) (g : Group) : List Byte :=
  let x := s.ge[g]
  [byte (groupCode x.phase), byte (kindOf s g)] ++ beBytes 2 x.timer ++
  [byte x.e,
   byte (bit x.minGreenDone + 2 * bit x.entry + 4 * bit x.leave.isSome + 8 * bit (x.leave == some .truncating)),
   byte (groupLamps s g)]

/-- READ GROUPS: 112 bytes. -/
def groupsData (s : State) : List Byte := groups.flatMap (groupRecord s)

/-! ## READ NEIGHBORS (R133) -/

/-- The beacon fields of an entry, all 0 where they are absent. -/
def lastBytes (last : Option LastBeacon) : List Byte × Byte :=
  match last with
  | some b => ([byte (beaconModeCode b.mode), byte (b.plan.val + 1), byte (b.cycle / 100)] ++ beBytes 2 b.reference ++
      [byte b.period], byte (beaconFlags b.accepting b.unsync b.planHold b.fault b.cls))
  | none => (List.replicate 6 0, 0)

/-- The parts of a link that are present. -/
def linkParts (l : Option Link) : Nat :=
  match l with
  | some l => bit l.inStage.isSome + 2 * bit l.exitDetector.isSome + 4 * bit l.alert
  | none => 0

/-- One record of READ NEIGHBORS; a free place is all 0. -/
def neighborRecord (c : Nat) (x : Option Entry) : List Byte :=
  match x with
  | none => List.replicate 15 0
  | some e =>
    [byte (if e.pinned then 1 else 2), byte e.address, byte (entryCode e.state)] ++ (lastBytes e.last).1 ++
    [(lastBytes e.last).2] ++ beBytes 2 e.age ++ [byte e.weight, byte (linkParts e.link), byte (bit (qualifies c e))]

/-- READ NEIGHBORS: 121 bytes. -/
def neighborsData (s : State) : List Byte :=
  (places.flatMap fun p => neighborRecord s.ck.c s.nt.places[p]) ++ [byte s.nt.refused]

/-! ## READ PLATOONS (R146) -/

/-- `k` records of `w` bytes, the unused ones all 0. -/
def padRecords (k w : Nat) (xs : List (List Byte)) : List Byte :=
  (List.range k).flatMap fun i => xs.getD i (List.replicate w 0)

/-- One notice. -/
def noticeRecord (n : Notice) : List Byte :=
  [byte n.sender, byte n.serial, byte (n.stage.val + 1)] ++ beBytes 2 n.t ++ beBytes 2 n.remaining ++ [byte (bit n.active)]

/-- One link with an outbound part. -/
def linkRecord (s : State) (p : Place) (l : LinkSend) : List Byte :=
  [byte (addressAt s p), byte (bit l.green + 2 * bit l.sent)] ++ beBytes 2 l.greenTimer ++ [byte l.exitCount, byte l.serial]

/-- The links with an outbound part, in place order. -/
def linkRecords (s : State) : List (List Byte) := places.filterMap fun p => (s.pl.links[p]).map (linkRecord s p)

/-- READ PLATOONS: 186 bytes. -/
def platoonsData (s : State) : List Byte :=
  [byte s.pl.queue.length, byte (bit s.pl.accepting)] ++ padRecords 16 8 (s.pl.queue.map noticeRecord) ++
  padRecords 8 6 (linkRecords s) ++ beBytes 2 s.pl.withheld ++ beBytes 2 s.pl.unlinked ++ beBytes 2 s.pl.stale ++
  beBytes 2 s.pl.overflow

/-! ## READ PREEMPTION (R162) -/

/-- The timer shown with a class: line dwell for EMERGENCY, inhibit for TRANSIT. -/
def classTimer (pe : PeState) : PreClass → Nat
  | .rail => 0
  | .emergency => pe.lineDwell
  | .transit => pe.inhibit

/-- One class. -/
def classRecord (pe : PeState) (c : PreClass) : List Byte :=
  let x := pe.cls c
  [byte (requestCode x.request), byte (bit x.filtered)] ++ beBytes 2 x.count ++ beBytes 2 (classTimer pe c)

/-- The active service. -/
def serviceRecord (v : Option Service) : List Byte :=
  match v with
  | some v => [byte (classCode (some v.cls)), byte (phaseCode v.phase), byte (bit v.fromLine + 2 * bit v.alertSent)] ++
      beBytes 2 v.elapsed ++ beBytes 2 v.remaining
  | none => List.replicate 7 0

/-- The command held for the Stage Sequencer. -/
def commandRecord (c : Option (Stage × Bool)) : List Byte :=
  match c with
  | some (t, truncating) => [byte (t.val + 1), byte (bit truncating)]
  | none => [0, 0]

/-- One stack record. -/
def stackRecord (r : Stacked) : List Byte :=
  [byte (classCode (some r.cls))] ++ beBytes 2 r.remaining ++ [byte (phaseCode r.phase), byte (bit r.fromLine)]

/-- The pending line alert. -/
def alertRecord (a : Option LineAlert) : List Byte :=
  match a with
  | some a => [byte a.sender, byte a.serial] ++ beBytes 2 a.countdown
  | none => List.replicate 4 0

/-- READ PREEMPTION: 46 bytes. -/
def preemptionData (s : State) : List Byte :=
  let pe := s.pe
  allClasses.flatMap (classRecord pe) ++ serviceRecord pe.service ++ commandRecord pe.command ++
  padRecords 2 5 (pe.stack.map stackRecord) ++ alertRecord pe.alert ++ [byte pe.alertSerial] ++ beBytes 2 pe.withheld ++
  beBytes 2 pe.ignored

/-! ## EXCHANGE PENDING (R56) -/

/-- The pending set, detector 1 the lowest bit of the last of three bytes. -/
def pendingData (s : State) : List Byte :=
  beBytes 3 (packItems 1 ((List.finRange 24).map fun d => bit s.du[d].pending))

/-! ## STATUS (Table 11.8) -/

/-- The fault record's cause, group a, group b, lamp and mode, all 0 when it is absent. -/
def faultBytes (f : Option FaultRecord) : List Byte :=
  match f with
  | none => List.replicate 5 0
  | some r =>
    (match r.cause with
      | .conflict a b => [1, byte (a.val + 1), byte (b.val + 1), 0]
      | .mismatch a l => [2, byte (a.val + 1), 0, byte (faultLampCode l)]) ++ [byte (modeCode r.mode)]

/-- Bytes 0 to 7: mode, loader and mark counter. -/
def stationBytes (s : State) : List Byte :=
  [byte (modeCode s.os.mode)] ++ beBytes 2 s.os.timer ++
  [byte (bit s.cf.valid + 2 * bit s.cf.overrun), byte (causeCode s.cf.cause), byte s.cf.clamped] ++ beBytes 2 s.tb.m

/-- Bytes 8 to 29: lamp sources, commanded and sensed lamps. -/
def lampBytes (s : State) : List Byte :=
  beBytes 4 (packItems 2 (groups.map fun g => sourceCode s.os.source[g])) ++
  beBytes 12 (packItems 2 (groups.flatMap fun g => lamps.map fun l => lampCode (lampCommand s g l))) ++
  beBytes 6 s.pins.sense.toNat

/-- Bytes 36 to 49: the Stage Sequencer. -/
def sequencerBytes (q : SqState) : List Byte :=
  [byte (optNum q.current), byte (optNum q.target), byte (bit (q.phase == .complete)), byte (termCode q.latch),
   byte (termCode q.lastCause), byte q.passage] ++ beBytes 2 q.maxTimer ++
  [byte (bit q.forceOff + 2 * bit q.haltRequest + 4 * bit q.holdRunning)] ++ beBytes 2 q.hold ++
  [byte (match q.command with
    | some (t, truncating) => t.val + 1 + 128 * bit truncating
    | none => 0)] ++ beBytes 2 (groupSet q.calls)

/-- Bytes 56 to 80: the Cycle Clock and the discipline record. -/
def clockBytes (s : State) : List Byte :=
  let k := s.ck
  let r := k.record
  [byte (optNum k.active), byte (optNum k.pendingPlan)] ++ beBytes 2 k.c ++ beBytes 2 k.o ++ beBytes 2 k.p ++
  beBytes 2 (reference s) ++ [byte k.hold] ++ beBytes 2 (signed16 k.b) ++
  [byte (k.unsyncCount % 4 + 128 * bit k.unsync)] ++ beBytes 2 k.planHold ++
  [byte k.beaconCount, byte (outcomeCode r.outcome), byte r.contributors, byte r.weight] ++ beBytes 2 (signed16 r.average) ++
  beBytes 2 (signed16 r.correction) ++ [byte r.marks]

/-- The kind, target and attempt count of the frame in hand. -/
def handBytes (h : Option InHand) : List Byte :=
  match h with
  | some h => [byte (kindCode h.frame), byte (frameTarget h.frame), byte h.attempts]
  | none => [0, 0, 0]

/-- Bytes 81 to 113: the Line Unit. -/
def lineBytes (lu : LuState) : List Byte :=
  let c := lu.counters
  [byte (accessCode lu.access), byte (bit lu.busy + 2 * bit lu.clash + 16 * (lu.exponent % 8))] ++ handBytes lu.inHand ++
  padRecords 6 2 (lu.queue.map fun q => [byte (kindCode q.frame), byte (frameTarget q.frame)]) ++
  [c.sent, c.collisions, c.dropped, c.received, c.crcErrors, c.fragments, c.malformed, c.clashes].flatMap (beBytes 2)

/-- STATUS: 114 bytes. -/
def statusData (s : State) : List Byte :=
  stationBytes s ++ lampBytes s ++ faultBytes s.os.fault ++ [byte s.os.additional] ++ sequencerBytes s.sq ++
  beBytes 6 (packItems 2 ((List.finRange 24).map fun d => detCode s.du[d].state)) ++ clockBytes s ++ lineBytes s.lu

end Sys2Proof.Machine
end

