-- ==== Sys2Proof/Machine/Maintenance.lean ====
section
/-! DEFINITION. Machine/Maintenance.lean: the Maintenance Port (chapter 11, section 11.2): the transaction, the delivery of a
command, its status and its effect. -/

namespace Sys2Proof.Machine

/-! ## Commands (Table 11.3) -/

/-- A command as MP delivers it: the argument bytes of PLACE CALL, SELECT PLAN and BLOCK RESTART are not yet judged. -/
inductive MpCommand where
  | status
  | readGroups
  | readNeighbors
  | readPlatoons
  | readPreemption
  | exchangePending (mask : BitVec 24)
  | placeCall (arg : Byte)
  | selectPlan (arg : Byte)
  | manualFlashOn
  | manualFlashOff
  | restart
  | reload
  | blockRestart (arg : Byte)
  | unknown (code : Byte)
  deriving DecidableEq, Repr

/-- The argument bytes a code takes; an unknown code takes none (R182). -/
def argCount (code : Byte) : Nat :=
  if code = 0x10 then 3 else if code = 0x20 ∨ code = 0x21 ∨ code = 0x50 then 1 else 0

/-- Table 11.3: the command of a code and its argument bytes. -/
def commandOf (code : Byte) (args : List Byte) : MpCommand :=
  let a := byteAt args 0
  match code.toNat with
  | 0x01 => .status
  | 0x02 => .readGroups
  | 0x03 => .readNeighbors
  | 0x04 => .readPlatoons
  | 0x05 => .readPreemption
  | 0x10 => .exchangePending (BitVec.ofNat 24 (num args 0 * 65536 + num args 1 * 256 + num args 2))
  | 0x20 => .placeCall a
  | 0x21 => .selectPlan a
  | 0x30 => .manualFlashOn
  | 0x31 => .manualFlashOff
  | 0x40 => .restart
  | 0x41 => .reload
  | 0x50 => .blockRestart a
  | _ => .unknown code

/-! ## Status (R183, R184, Table 11.5) -/

/-- The four status bytes (R182). -/
inductive MpStatus where
  | accepted
  | wait
  | refused
  | invalid
  deriving DecidableEq, Repr

/-- R182: the byte of a status. -/
def MpStatus.byte : MpStatus → Byte
  | .accepted => 0x81
  | .wait => 0x82
  | .refused => 0x84
  | .invalid => 0x88

/-- R168: the status of MANUAL FLASH ON. -/
def flashOnStatus (s : State) : MpStatus :=
  match s.os.mode with
  | .run => if railActive s then .refused else .accepted
  | .flashEntry | .manualFlash => .accepted
  | _ => .refused

/-- R168: the status of MANUAL FLASH OFF. -/
def flashOffStatus (m : Mode) : MpStatus := if m = .manualFlash then .accepted else .refused

/-- R170: the status of RESTART. -/
def restartStatus : Mode → MpStatus
  | .manualFlash | .faultFlash => .accepted
  | _ => .refused

/-- R170: the status of RELOAD. -/
def reloadStatus : Mode → MpStatus
  | .startFlash | .manualFlash | .faultFlash | .noPlanFlash => .accepted
  | _ => .refused

/-- R184: the status of PLACE CALL. -/
def placeCallStatus (s : State) (arg : Byte) : MpStatus :=
  match codeItem 16 arg.toNat with
  | some g => if groupEnabled s g then .accepted else .invalid
  | none => .invalid

/-- R184: the status of SELECT PLAN. -/
def selectPlanStatus (m : Mode) (arg : Byte) : MpStatus :=
  match codeItem 4 arg.toNat with
  | some _ => if m = .noPlanFlash then .refused else .accepted
  | none => .invalid

/-- The status outside LOADING. -/
def statusOutsideLoading (s : State) : MpCommand → MpStatus
  | .status | .readGroups | .readNeighbors | .readPlatoons | .readPreemption | .exchangePending _ => .accepted
  | .placeCall arg => placeCallStatus s arg
  | .selectPlan arg => selectPlanStatus s.os.mode arg
  | .manualFlashOn => flashOnStatus s
  | .manualFlashOff => flashOffStatus s.os.mode
  | .restart => restartStatus s.os.mode
  | .reload => reloadStatus s.os.mode
  | .blockRestart arg => if 1 ≤ arg.toNat ∧ arg.toNat ≤ 3 then .accepted else .invalid
  | .unknown _ => .invalid

/-- R183: in LOADING every command is answered WAIT. -/
def mpStatus (s : State) (c : MpCommand) : MpStatus :=
  if s.os.mode = .loading then .wait else statusOutsideLoading s c

/-! ## Effects of accepted commands -/

/-- R168: MANUAL FLASH ON accepted. -/
def manualFlashOnEffect (s : State) : State := if s.os.mode = .run then enterFlashEntry s else s

/-- R170: RESTART accepted, in each block. -/
def restartStation (s : State) : State :=
  enterStartRed (restartLinks (emptyQueue (restartPe (s.withOs { s.os with fault := none, additional := 0 }))))

/-- R63: BLOCK RESTART DETECTORS; it has no effect while DU holds no image. -/
def blockRestartDetectors (s : State) : State :=
  match s.cf.image with
  | some _ => resetDetectors s
  | none => s

/-- R117, R128, R63: BLOCK RESTART by its argument. -/
def blockRestartEffect (arg : Nat) (s : State) : State :=
  if arg = 1 then restartLine s else if arg = 2 then restartClock (restartTable s) else blockRestartDetectors s

/-- R25: PLACE CALL by its argument. -/
def placeCallEffect (arg : Byte) (s : State) : State :=
  match codeItem 16 arg.toNat with
  | some g => writeCall g s
  | none => s

/-- R132: SELECT PLAN by its argument. -/
def selectPlanEffect (arg : Byte) (s : State) : State :=
  match s.cf.image, codeItem 4 arg.toNat with
  | some img, some p => selectPlan img p s
  | _, _ => s

/-- The effect of an accepted command (R184). -/
def carryOut (s : State) : MpCommand → State
  | .status | .readGroups | .readNeighbors | .readPlatoons | .readPreemption | .unknown _ => s
  | .exchangePending mask => clearPending mask s
  | .placeCall arg => placeCallEffect arg s
  | .selectPlan arg => selectPlanEffect arg s
  | .manualFlashOn => manualFlashOnEffect s
  | .manualFlashOff => enterStartRed s
  | .restart => restartStation s
  | .reload => reloadStation s
  | .blockRestart arg => blockRestartEffect arg.toNat s

/-- The response data of an accepted command, taken before its effect (R185). -/
def mpData (s : State) : MpCommand → List Byte
  | .status => statusData s
  | .readGroups => groupsData s
  | .readNeighbors => neighborsData s
  | .readPlatoons => platoonsData s
  | .readPreemption => preemptionData s
  | .exchangePending _ => pendingData s
  | .placeCall _ | .selectPlan _ | .manualFlashOn | .manualFlashOff | .restart | .reload | .blockRestart _ | .unknown _ => []

/-- The status byte, and after ACCEPTED the data (R182). -/
def mpResponse (s : State) (c : MpCommand) : List Byte :=
  (mpStatus s c).byte :: if mpStatus s c = .accepted then mpData s c else []

/-- The command pending in the transaction, if one is. -/
def pendingCommand (mp : MpState) : Option MpCommand :=
  if mp.phase = .pending then some (commandOf mp.code mp.args) else none

/-- The answer recorded; a transaction in which this command is pending enters ANSWER (R182). -/
def recordAnswer (c : MpCommand) (response : List Byte) (mp : MpState) : MpState :=
  if pendingCommand mp = some c then { mp with response := response, phase := .answer, shift := response }
  else { mp with response := response }

/-- R183: a command delivered. -/
def deliver (c : MpCommand) (s : State) : State :=
  let s' := if mpStatus s c = .accepted then carryOut s c else s
  s'.withMp (recordAnswer c (mpResponse s c) s'.mp)

/-- MP's work of a tick: the PENDING command is delivered. -/
def mpWork (s : State) : State :=
  match pendingCommand s.mp with
  | some c => deliver c s
  | none => s

/-! ## The commands, delivered -/

/-- STATUS (R176). -/
def execStatus (s : State) : Host.Outcome State Fault Refusal := .next (deliver .status s)
/-- READ_GROUPS (R20). -/
def execReadGroups (s : State) : Host.Outcome State Fault Refusal := .next (deliver .readGroups s)
/-- READ_NEIGHBORS (R133). -/
def execReadNeighbors (s : State) : Host.Outcome State Fault Refusal := .next (deliver .readNeighbors s)
/-- READ_PLATOONS (R146). -/
def execReadPlatoons (s : State) : Host.Outcome State Fault Refusal := .next (deliver .readPlatoons s)
/-- READ_PREEMPTION (R162). -/
def execReadPreemption (s : State) : Host.Outcome State Fault Refusal := .next (deliver .readPreemption s)
/-- EXCHANGE_PENDING (R56). -/
def execExchangePending (mask : BitVec 24) (s : State) : Host.Outcome State Fault Refusal :=
  .next (deliver (.exchangePending mask) s)
/-- PLACE_CALL (R25). -/
def execPlaceCall (arg : Byte) (s : State) : Host.Outcome State Fault Refusal := .next (deliver (.placeCall arg) s)
/-- SELECT_PLAN (R132). -/
def execSelectPlan (arg : Byte) (s : State) : Host.Outcome State Fault Refusal := .next (deliver (.selectPlan arg) s)
/-- MANUAL_FLASH_ON (R168). -/
def execManualFlashOn (s : State) : Host.Outcome State Fault Refusal := .next (deliver .manualFlashOn s)
/-- MANUAL_FLASH_OFF (R168). -/
def execManualFlashOff (s : State) : Host.Outcome State Fault Refusal := .next (deliver .manualFlashOff s)
/-- RESTART (R170). -/
def execRestart (s : State) : Host.Outcome State Fault Refusal := .next (deliver .restart s)
/-- RELOAD (R170). -/
def execReload (s : State) : Host.Outcome State Fault Refusal := .next (deliver .reload s)
/-- BLOCK_RESTART_LINE (R117). -/
def execBlockRestartLine (s : State) : Host.Outcome State Fault Refusal := .next (deliver (.blockRestart 1) s)
/-- BLOCK_RESTART_NEIGHBORS (R128). -/
def execBlockRestartNeighbors (s : State) : Host.Outcome State Fault Refusal := .next (deliver (.blockRestart 2) s)
/-- BLOCK_RESTART_DETECTORS (R63). -/
def execBlockRestartDetectors (s : State) : Host.Outcome State Fault Refusal := .next (deliver (.blockRestart 3) s)

/-- UNKNOWN_COMMAND (R183): no effect for a code that Table 11.3 holds. -/
def execUnknownCommand (code : Byte) (s : State) : Host.Outcome State Fault Refusal :=
  .next <| whenDue (commandOf code [] == .unknown code) (deliver (.unknown code) s) s

/-! ## The transaction (R182) -/

/-- SELECT_FALL: a transaction starts in CODE. -/
def execSelectFall (s : State) : Host.Outcome State Fault Refusal :=
  .next <| whenDue (!s.pins.selectLow)
    ((s.withPins { s.pins with selectLow := true }).withMp
      { s.mp with phase := .code, code := 0, args := [], shift := [], ignoring := false }) s

/-- SELECT_RISE: MP returns to IDLE; a command not yet delivered is abandoned (R183). -/
def execSelectRise (s : State) : Host.Outcome State Fault Refusal :=
  .next <| whenDue s.pins.selectLow
    ((s.withPins { s.pins with selectLow := false }).withMp
      { s.mp with phase := .idle, code := 0, args := [], shift := [], ignoring := false }) s

/-- The transaction after its code. -/
def takeCode (mosi : Byte) (mp : MpState) : MpState :=
  { mp with miso := 0, code := mosi, args := [], phase := if argCount mosi = 0 then .pending else .arguments }

/-- The transaction after one more argument byte. -/
def takeArgument (mosi : Byte) (mp : MpState) : MpState :=
  let args := mp.args ++ [mosi]
  { mp with miso := 0, args := args, phase := if args.length = argCount mp.code then .pending else .arguments }

/-- R182: one byte in each direction. -/
def transfer (mosi : Byte) (mp : MpState) : MpState :=
  match mp.phase with
  | .idle | .pending => { mp with miso := 0 }
  | .code => takeCode mosi mp
  | .arguments => takeArgument mosi mp
  | .answer => { mp with miso := byteAt mp.shift 0, shift := mp.shift.tail }

/-- SPI_BYTE_TRANSFER: nothing is exchanged while select is high. -/
def execSpiByteTransfer (mosi : Byte) (s : State) : Host.Outcome State Fault Refusal :=
  .next <| whenDue s.pins.selectLow (s.withMp (transfer mosi s.mp)) s

end Sys2Proof.Machine
end

