-- ==== Sys2Proof/Machine/Tick.lean ====
section
/-! DEFINITION. Machine/Tick.lean: TICK (R66): TB's advance and the work that each timed block does at a tick. -/

namespace Sys2Proof.Machine

/-- The works of a tick. PL has two that other blocks' works may fall between. -/
inductive Work where
  | mp
  | groups
  | sequencer
  | detectors
  | clock
  | neighbors
  | platoonCountdown
  | greenTimers
  | preemption
  | supervisor
  deriving DecidableEq, Repr

/-- All works, each with its number. -/
def allWorks : List (Nat × Work) :=
  [(0, .mp), (1, .groups), (2, .sequencer), (3, .detectors), (4, .clock), (5, .neighbors), (6, .platoonCountdown),
   (7, .greenTimers), (8, .preemption), (9, .supervisor)]

/-- What a work does at a tick that began in mode `began`. -/
def doWork (began : Mode) (s : State) : Work → State
  | .mp => mpWork s
  | .groups => geWork s
  | .sequencer => sqWork s
  | .detectors => duWork s
  | .clock => ckWork s
  | .neighbors => ntWork s
  | .platoonCountdown => plQueueWork s
  | .greenTimers => plTimerWork s
  | .preemption => peWork s
  | .supervisor => supervisorWork began s

/-- A work entered by its rank, after those of no greater rank. -/
def insertWork (rank : Nat → Nat) (x : Nat × Work) : List (Nat × Work) → List (Nat × Work)
  | [] => [x]
  | y :: rest => if rank x.1 < rank y.1 then x :: y :: rest else y :: insertWork rank x rest

/-- The works in the order of their ranks. -/
def rankedWorks (rank : Nat → Nat) : List Work := (allWorks.foldl (fun acc x => insertWork rank x acc) []).map (·.2)

/-- `a` stands before `b` in the list. -/
def standsBefore (a b : Work) (ws : List Work) : Bool := ws.idxOf a < ws.idxOf b

/-- R24, R70: the Cycle Clock's work comes before the Stage Sequencer's evaluation of the same tick. -/
def clockFirst (ws : List Work) : List Work :=
  if standsBefore .sequencer .clock ws then
    ws.map fun w => if w = .clock then .sequencer else if w = .sequencer then .clock else w
  else ws

/-- The order of the works at the tick whose free counter is `n` (log entry 1). -/
def workOrder (n : Nat) : List Work := clockFirst (rankedWorks (Config.workRank n))

/-- The inputs sampled at a tick, and TB's advance (R66). -/
def beginTick (detectors : BitVec 24) (requests : BitVec 3) (sense : BitVec 48) (s : State) : State :=
  advanceMark (s.withPins { s.pins with detectors := detectors, requests := requests, sense := sense })

/-- One tick with the works taken in a given order. -/
def tickIn (order : List Work) (detectors : BitVec 24) (requests : BitVec 3) (sense : BitVec 48) (s : State) : State :=
  nextFree (order.foldl (doWork s.os.mode) (beginTick detectors requests sense s))

/-- TICK (R66). -/
def execTick (detectors : BitVec 24) (requests : BitVec 3) (sense : BitVec 48) (s : State) :
    Host.Outcome State Fault Refusal :=
  .next (tickIn (workOrder s.free) detectors requests sense s)

end Sys2Proof.Machine
end

