-- ==== Sys2Proof/Machine/Dispatch.lean ====
section
/-! DEFINITION. Machine/Dispatch.lean: the meaning of each command, one arm per row of spec/opcode_table.json. -/

namespace Sys2Proof.Machine

def exec (i : Instr) (s : State) : Host.Outcome State Fault Refusal :=
  match i with
  | .powerOn => Sys2Proof.Machine.execPowerOn s
  | .resetPin => Sys2Proof.Machine.execResetPin s
  | .headerRead header => Sys2Proof.Machine.execHeaderRead header s
  | .memoryNoAcknowledge delivered => Sys2Proof.Machine.execMemoryNoAcknowledge delivered s
  | .loadEnd body => Sys2Proof.Machine.execLoadEnd body s
  | .tick detectors requests sense => Sys2Proof.Machine.execTick detectors requests sense s
  | .prepEnd g => Sys2Proof.Machine.execPrepEnd g s
  | .minGreenEnd g => Sys2Proof.Machine.execMinGreenEnd g s
  | .clearanceEnd g => Sys2Proof.Machine.execClearanceEnd g s
  | .passageTimerExpiry => Sys2Proof.Machine.execPassageTimerExpiry s
  | .maxTimerExpiry => Sys2Proof.Machine.execMaxTimerExpiry s
  | .holdExtensionExpiry => Sys2Proof.Machine.execHoldExtensionExpiry s
  | .stageChangeComplete => Sys2Proof.Machine.execStageChangeComplete s
  | .peCommand target truncating => Sys2Proof.Machine.execPeCommand target truncating s
  | .peCommandRelease downgrade => Sys2Proof.Machine.execPeCommandRelease downgrade s
  | .halt => Sys2Proof.Machine.execHalt s
  | .haltDone => Sys2Proof.Machine.execHaltDone s
  | .onEdge d => Sys2Proof.Machine.execOnEdge d s
  | .offEdge d => Sys2Proof.Machine.execOffEdge d s
  | .failedOn d => Sys2Proof.Machine.execFailedOn d s
  | .failedQuiet d => Sys2Proof.Machine.execFailedQuiet d s
  | .unsyncGiveUp => Sys2Proof.Machine.execUnsyncGiveUp s
  | .holdEnd => Sys2Proof.Machine.execHoldEnd s
  | .planAdoption => Sys2Proof.Machine.execPlanAdoption s
  | .beaconDue => Sys2Proof.Machine.execBeaconDue s
  | .planHoldExpiry => Sys2Proof.Machine.execPlanHoldExpiry s
  | .lineFree => Sys2Proof.Machine.execLineFree s
  | .backoffSlotEnd => Sys2Proof.Machine.execBackoffSlotEnd s
  | .byteReceived b framingError => Sys2Proof.Machine.execByteReceived b framingError s
  | .intraFrameGap => Sys2Proof.Machine.execIntraFrameGap s
  | .frameReceived last => Sys2Proof.Machine.execFrameReceived last s
  | .entryStale p => Sys2Proof.Machine.execEntryStale p s
  | .entryLost p => Sys2Proof.Machine.execEntryLost p s
  | .noticeFormed p => Sys2Proof.Machine.execNoticeFormed p s
  | .noticeActivation sender serial => Sys2Proof.Machine.execNoticeActivation sender serial s
  | .noticeEnd sender serial => Sys2Proof.Machine.execNoticeEnd sender serial s
  | .requestInputOn c => Sys2Proof.Machine.execRequestInputOn c s
  | .dwellEntry => Sys2Proof.Machine.execDwellEntry s
  | .minDwellExpiry => Sys2Proof.Machine.execMinDwellExpiry s
  | .maxDwellExpiry => Sys2Proof.Machine.execMaxDwellExpiry s
  | .serviceEnd => Sys2Proof.Machine.execServiceEnd s
  | .lineAlertCountdownExpiry => Sys2Proof.Machine.execLineAlertCountdownExpiry s
  | .lineDwellExpiry => Sys2Proof.Machine.execLineDwellExpiry s
  | .inhibitExpiry => Sys2Proof.Machine.execInhibitExpiry s
  | .modeTimerExpiry => Sys2Proof.Machine.execModeTimerExpiry s
  | .conflict a b => Sys2Proof.Machine.execConflict a b s
  | .mismatch ch lamp => Sys2Proof.Machine.execMismatch ch lamp s
  | .selectFall => Sys2Proof.Machine.execSelectFall s
  | .selectRise => Sys2Proof.Machine.execSelectRise s
  | .status => Sys2Proof.Machine.execStatus s
  | .readGroups => Sys2Proof.Machine.execReadGroups s
  | .readNeighbors => Sys2Proof.Machine.execReadNeighbors s
  | .readPlatoons => Sys2Proof.Machine.execReadPlatoons s
  | .readPreemption => Sys2Proof.Machine.execReadPreemption s
  | .exchangePending mask => Sys2Proof.Machine.execExchangePending mask s
  | .placeCall arg => Sys2Proof.Machine.execPlaceCall arg s
  | .selectPlan arg => Sys2Proof.Machine.execSelectPlan arg s
  | .manualFlashOn => Sys2Proof.Machine.execManualFlashOn s
  | .manualFlashOff => Sys2Proof.Machine.execManualFlashOff s
  | .restart => Sys2Proof.Machine.execRestart s
  | .reload => Sys2Proof.Machine.execReload s
  | .blockRestartLine => Sys2Proof.Machine.execBlockRestartLine s
  | .blockRestartNeighbors => Sys2Proof.Machine.execBlockRestartNeighbors s
  | .blockRestartDetectors => Sys2Proof.Machine.execBlockRestartDetectors s
  | .unknownCommand code => Sys2Proof.Machine.execUnknownCommand code s
  | .lineBusy => Sys2Proof.Machine.execLineBusy s
  | .byteNotReceivedBack => Sys2Proof.Machine.execByteNotReceivedBack s
  | .spiByteTransfer mosi => Sys2Proof.Machine.execSpiByteTransfer mosi s

end Sys2Proof.Machine
end

