-- ==== Sys2Proof/Safety.lean ====
section
/-! DEFINITION. Safety.lean: the terms in which the statements speak: the blocks a command may change, and the laws of the
manual as predicates on the state. -/

namespace Sys2Proof.Machine

/-! ## Frames -/

/-- The parts of the state. -/
inductive Block where
  | free
  | pins
  | tb
  | os
  | cf
  | ge
  | sq
  | du
  | ck
  | lu
  | nt
  | pl
  | pe
  | mp
  | pending
  deriving DecidableEq, Repr

/-- The block is the same in both states. -/
def Block.Same (s t : State) : Block → Prop
  | .free => t.free = s.free
  | .pins => t.pins = s.pins
  | .tb => t.tb = s.tb
  | .os => t.os = s.os
  | .cf => t.cf = s.cf
  | .ge => t.ge = s.ge
  | .sq => t.sq = s.sq
  | .du => t.du = s.du
  | .ck => t.ck = s.ck
  | .lu => t.lu = s.lu
  | .nt => t.nt = s.nt
  | .pl => t.pl = s.pl
  | .pe => t.pe = s.pe
  | .mp => t.mp = s.mp
  | .pending => t.pending = s.pending

/-- From `s` to `t` no block changes but those listed. -/
def Only (bs : List Block) (s t : State) : Prop := ∀ b, b ∉ bs → b.Same s t

/-- The blocks the effect of a command may reach, by the rules of the command. -/
def Instr.reaches : Instr → List Block
  | .powerOn | .resetPin => [.tb, .os, .cf, .ge, .sq, .du, .ck, .lu, .nt, .pl, .pe, .mp]
  | .headerRead _ | .memoryNoAcknowledge _ => [.cf, .os]
  | .loadEnd _ => [.os, .cf, .ge, .sq, .du, .ck, .lu, .nt, .pl, .pe]
  | .tick _ _ _ => [.free, .pins, .tb, .os, .cf, .ge, .sq, .du, .ck, .lu, .nt, .pl, .pe, .mp]
  | .prepEnd _ | .minGreenEnd _ | .clearanceEnd _ => [.ge, .sq]
  | .passageTimerExpiry | .maxTimerExpiry | .holdExtensionExpiry | .stageChangeComplete | .peCommand _ _ => [.ge, .sq, .pl]
  | .peCommandRelease _ => [.ge, .sq]
  | .halt | .haltDone => [.os, .ge, .sq, .pl, .lu]
  | .onEdge _ => [.sq, .du, .pl, .lu]
  | .offEdge _ | .failedOn _ | .failedQuiet _ => [.du]
  | .unsyncGiveUp | .holdEnd | .planHoldExpiry => [.ck]
  | .planAdoption => [.ck, .sq]
  | .beaconDue => [.ck, .lu]
  | .lineFree | .lineBusy | .backoffSlotEnd | .intraFrameGap => [.lu]
  | .byteNotReceivedBack => [.lu, .ck]
  | .byteReceived _ _ | .frameReceived _ => [.lu, .ck, .nt, .pl, .pe, .sq]
  | .entryStale _ | .entryLost _ => [.nt]
  | .noticeFormed _ => [.pl, .lu]
  | .noticeActivation _ _ => [.pl, .sq]
  | .noticeEnd _ _ => [.pl]
  | .requestInputOn _ | .dwellEntry | .minDwellExpiry | .maxDwellExpiry | .serviceEnd | .lineAlertCountdownExpiry
  | .lineDwellExpiry | .inhibitExpiry => [.free, .pe, .sq, .lu]
  | .modeTimerExpiry => [.os, .ge, .sq, .pl]
  | .conflict _ _ | .mismatch _ _ => [.os, .ge, .sq, .pl, .pe, .lu]
  | .selectFall | .selectRise => [.pins, .mp]
  | .spiByteTransfer _ | .status | .readGroups | .readNeighbors | .readPlatoons | .readPreemption | .unknownCommand _ => [.mp]
  | .exchangePending _ | .blockRestartDetectors => [.du, .mp]
  | .placeCall _ => [.sq, .mp]
  | .selectPlan _ => [.ck, .mp]
  | .manualFlashOn => [.os, .ge, .sq, .pe, .mp]
  | .manualFlashOff => [.os, .ge, .sq, .pl, .mp]
  | .restart => [.os, .ge, .sq, .pl, .pe, .mp]
  | .reload => [.os, .cf, .ge, .sq, .du, .ck, .lu, .nt, .pl, .pe, .mp]
  | .blockRestartLine => [.lu, .ck, .mp]
  | .blockRestartNeighbors => [.nt, .ck, .mp]

/-! ## Values after power-on, resets and stops, as the tables of the manual list them -/

/-- Table 1.3, first row. -/
def GroupsOff (t : State) : Prop :=
  ∀ g : Group, t.ge[g] = { phase := .off, timer := 0, minGreenDone := false, e := 255, entry := false, leave := none }

/-- R23's table, the rows that every column shares: the stopped values. -/
def SequencerStopped (q : SqState) : Prop :=
  q.current = none ∧ q.target = none ∧ q.phase = .changing ∧ q.latch = none ∧ q.passage = 0 ∧ q.passageRunning = false ∧
    q.maxTimer = 0 ∧ q.maxRunning = false ∧ q.forceOff = false ∧ q.hold = 0 ∧ q.holdRunning = false ∧ q.command = none ∧
    q.haltRequest = false ∧ q.arrivals = []

/-- R23's table, the rows in which power-on and RELOAD differ from a stop. -/
def CallsCleared (q : SqState) : Prop := q.lastCause = none ∧ ∀ g : Group, q.calls[g] = false

/-- Table 3.4, first row. -/
def DetectorsReset (t : State) : Prop :=
  ∀ d : Detector,
    t.du[d] = { filtered := false, count := 0, state := .idle, presence := 0, noActivity := 0, pending := false }

/-- R97: the evaluation record after power-on, RELOAD and each load. -/
def RecordCleared (r : EvalRecord) : Prop :=
  r = { outcome := .none, contributors := 0, weight := 0, average := 0, correction := 0, marks := 0 }

/-- Table 4.3, first column. -/
def ClockCleared (k : CkState) : Prop :=
  k.active = none ∧ k.pendingPlan = none ∧ k.c = 0 ∧ k.o = 0 ∧ k.p = 0 ∧ k.hold = 0 ∧ k.b = 0 ∧ k.unsync = false ∧
    k.unsyncCount = 0 ∧ k.planHold = 0 ∧ k.beaconCount = 0 ∧ RecordCleared k.record

/-- Table 6.5, the rows from line state to receive assembler. -/
def LineQuiet (u : LuState) : Prop :=
  u.busy = true ∧ u.driverEnable = false ∧ u.inHand = none ∧ u.queue = [] ∧ u.exponent = 2 ∧ u.assembler = .waitFree ∧
    u.sending = none

/-- R116: the eight counters at 0, and CLASH clear. -/
def LineCountersZero (u : LuState) : Prop :=
  u.counters = { sent := 0, collisions := 0, dropped := 0, received := 0, crcErrors := 0, fragments := 0, malformed := 0,
                 clashes := 0 } ∧ u.clash = false

/-- Table 9.3, every item but the alert serial and the counters. -/
def PreemptionCleared (pe : PeState) : Prop :=
  (∀ c, pe.cls c = { request := .none, filtered := false, count := 0 }) ∧ pe.inhibit = 0 ∧ pe.lineDwell = 0 ∧
    pe.service = none ∧ pe.stack = [] ∧ pe.command = none ∧ pe.alert = none

/-- R145: the platoon queue emptied. -/
def QueueEmptied (pl : PlState) : Prop := pl.queue = [] ∧ pl.accepting = true

/-- R171: every count of the monitor at 0. -/
def CountsZero (o : OsState) : Prop :=
  (∀ a b : Group, o.conflict[a][b] = 0) ∧ ∀ (ch : Group) (i : Fin 3), o.mismatch[ch][i] = 0

/-- R163: the Output Supervisor after power-on and RELOAD. -/
def SupervisorReset (o : OsState) : Prop :=
  o.mode = .loading ∧ o.timer = 0 ∧ (∀ ch : Group, o.source[ch] = .noPlanRedFlash) ∧ CountsZero o ∧ o.fault = none ∧
    o.additional = 0

/-- R177: a load just begun. -/
def LoadBegun (f : CfState) : Prop :=
  f.image = none ∧ f.load = .readingHeader ∧ f.valid = false ∧ f.overrun = false ∧ f.cause = .none ∧ f.clamped = 0 ∧
    f.position = 0

/-- Every block but TB and MP at the values that power-on gives it. -/
def PowerOnValues (t : State) : Prop :=
  SupervisorReset t.os ∧ LoadBegun t.cf ∧ GroupsOff t ∧ SequencerStopped t.sq ∧ CallsCleared t.sq ∧ DetectorsReset t ∧
    ClockCleared t.ck ∧ t.lu.access = .disabled ∧ t.lu.sequence = 0 ∧ LineQuiet t.lu ∧ LineCountersZero t.lu ∧
    (∀ p : Place, t.nt.places[p] = none ∧ t.nt.passOver[p] = false) ∧ t.nt.refused = 0 ∧ QueueEmptied t.pl ∧
    (∀ p : Place, t.pl.links[p] = none) ∧
    t.pl.withheld = 0 ∧ t.pl.unlinked = 0 ∧ t.pl.stale = 0 ∧ t.pl.overflow = 0 ∧ PreemptionCleared t.pe ∧
    t.pe.alertSerial = 0 ∧ t.pe.withheld = 0 ∧ t.pe.ignored = 0

/-- R181: the load ended with this cause and without an image, in NO-PLAN FLASH. -/
def LoadRejected (cause : LoadCause) (clamped : Nat) (s t : State) : Prop :=
  Only [.cf, .os] s t ∧ t.cf.load = .ended ∧ t.cf.cause = cause ∧ t.cf.clamped = clamped ∧ t.cf.image = s.cf.image ∧
    t.cf.valid = s.cf.valid ∧ t.os = { s.os with mode := .noPlanFlash }

/-- Table 1.3: the groups forced to FLASHING (R16); leaving RUN clears the entry request of every group (R15). -/
def ForcedToFlash (img : Image) (s t : State) : Prop :=
  ∀ g : Group, t.ge[g] = if img.groups[g].enabled then
      { phase := .flashing, timer := 0, minGreenDone := false, e := s.ge[g].e, entry := false, leave := none }
    else { s.ge[g] with entry := s.ge[g].entry && decide (s.os.mode ≠ .run) }

/-- Table 1.3: the groups set to RED (R17). -/
def SetToRed (img : Image) (s t : State) : Prop :=
  ∀ g : Group, t.ge[g] = if img.groups[g].enabled then
    { phase := .red, timer := 0, minGreenDone := false, e := s.ge[g].e, entry := false, leave := none } else s.ge[g]

/-- R167: every channel from `src`, and DARK where its group is not enabled. -/
def SourcesFrom (img : Image) (src : LampSource) (o : OsState) : Prop :=
  ∀ g : Group, o.source[g] = if img.groups[g].enabled then src else .dark

/-- R46: the Stage Sequencer stopped with its calls and last cause kept. -/
def StoppedFrom (s t : State) : Prop :=
  SequencerStopped t.sq ∧ t.sq.lastCause = s.sq.lastCause ∧ t.sq.calls = s.sq.calls

/-- R135: what PL's reading makes of one link, where `now` says that its outbound stage is in its green. -/
def GreenRead (now : Prop) (old new : Option LinkSend) : Prop :=
  match old with
  | none => new = none
  | some l =>
    (now → l.green = false → new = some { l with green := true, greenTimer := 0, exitCount := 0, sent := false }) ∧
      (¬now → l.green = true → new = some { l with green := false, exitCount := 0, sent := false }) ∧
      ((now ↔ l.green = true) → new = some l)

/-- R135: every link's green ended. -/
def GreensEnded (s t : State) : Prop := ∀ p : Place, GreenRead False s.pl.links[p] t.pl.links[p]

/-- Table 10.3, the entry of START RED. -/
def EnteredStartRed (img : Image) (s t : State) : Prop :=
  t.os.mode = .startRed ∧ t.os.timer = img.startRed ∧ SourcesFrom img .sequencer t.os ∧ CountsZero t.os ∧ SetToRed img s t ∧
    StoppedFrom s t

/-- R160: what PE keeps when RUN is left. -/
def ServiceCancelled (s t : State) : Prop :=
  t.pe.service = none ∧ t.pe.stack = [] ∧ t.pe.command = none ∧ t.pe.alert = none ∧ t.pe.lineDwell = 0 ∧
    t.pe.inhibit = s.pe.inhibit ∧ t.pe.alertSerial = s.pe.alertSerial ∧ t.pe.withheld = s.pe.withheld ∧
    t.pe.ignored = s.pe.ignored ∧
    ∀ c, t.pe.cls c = { request := if (s.pe.cls c).request = .lockedOut ∨ (s.pe.cls c).request = .inhibited
                          then (s.pe.cls c).request else .none, filtered := false, count := 0 }

/-- From `s` to `t` the Line Unit has taken the offer of `f` and nothing else (R104). -/
def Offered (f : TxFrame) (s t : State) : Prop := t.lu = (offer f (t.withLu s.lu)).lu

/-- Table 10.3, the entries of MANUAL FLASH and FAULT FLASH. -/
def EnteredFlash (img : Image) (mode : Mode) (cause : AlertCause) (s t : State) : Prop :=
  t.os.mode = mode ∧ t.os.timer = 0 ∧ SourcesFrom img .flash t.os ∧ CountsZero t.os ∧ ForcedToFlash img s t ∧
    StoppedFrom s t ∧ GreensEnded s t ∧ QueueEmptied t.pl ∧ (s.os.mode = .run → ServiceCancelled s t) ∧ (s.os.mode ≠ .run → t.pe = s.pe) ∧
    Offered (.flashAlert cause) s t

/-! ## What the loader asks of an image -/

/-- Check 6. -/
def AddressOk (m : Image) : Prop := 1 ≤ m.address ∧ m.address ≤ 62

/-- Check 7. -/
def SymmetryOk (m : Image) : Prop := ∀ a g : Group, a ≠ g → m.intergreen[a][g] ≠ none → m.intergreen[g][a] ≠ none

/-- Check 8. -/
def IntergreenOk (m : Image) : Prop :=
  ∀ a g : Group, ∀ i, m.intergreen[a][g] = some i → m.groups[a].clearance ≤ i

/-- Check 9. -/
def NoStageConflict (m : Image) : Prop :=
  ∀ (st : Stage) (a g : Group), m.stages[st].groups[a] = true → m.stages[st].groups[g] = true → a ≠ g →
    m.intergreen[a][g] = none

/-- Check 10. -/
def StageGroupsOk (m : Image) : Prop :=
  ∀ st : Stage, m.stages[st].enabled = true →
    (∀ g : Group, m.stages[st].groups[g] = true → m.groups[g].enabled = true) ∧ ∃ g : Group, m.stages[st].groups[g] = true

/-- Check 11. -/
def SomeStageEnabled (m : Image) : Prop := ∃ st : Stage, m.stages[st].enabled = true

/-- The stage number names an enabled stage. -/
def NamesEnabled (m : Image) (x : Option Stage) : Prop := ∃ st, x = some st ∧ m.stages[st].enabled = true

/-- Check 12. -/
def StageReferencesOk (m : Image) : Prop :=
  NamesEnabled m m.startStage ∧ (∀ p : Plan, m.plans[p].cycle ≠ 0 → NamesEnabled m m.plans[p].coordinated) ∧
    ∀ c : Fin 3, NamesEnabled m m.classes[c].target

/-- Check 13. -/
def CycleLengthsOk (m : Image) : Prop := ∀ p : Plan, m.plans[p].cycle = 0 ∨ (40 ≤ m.plans[p].cycle ∧ m.plans[p].cycle ≤ 240)

/-- Check 14; points are in tenths, cycle lengths in seconds. -/
def CyclePointsOk (m : Image) : Prop :=
  ∀ p : Plan, m.plans[p].cycle ≠ 0 →
    m.plans[p].offset < 10 * m.plans[p].cycle ∧ m.plans[p].yieldStart < 10 * m.plans[p].cycle ∧
      m.plans[p].yieldEnd < 10 * m.plans[p].cycle ∧
      ∀ st : Stage, m.plans[p].stages[st].permStart < 10 * m.plans[p].cycle ∧
        m.plans[p].stages[st].permEnd < 10 * m.plans[p].cycle ∧
        ∀ x, m.plans[p].stages[st].forceOff = some x → x < 10 * m.plans[p].cycle

/-- A value of a stated range. -/
def Between (lo hi v : Nat) : Prop := lo ≤ v ∧ v ≤ hi

/-- The timing fields of a class record, of those its class uses. -/
def ClassInRange (c : PreClass) (r : ClassRecord) : Prop :=
  Between 0 50 r.onDelay ∧ Between 0 60 r.minDwell ∧ Between 10 600 r.maxDwell ∧
    (c = .transit → Between 0 600 r.inhibit) ∧
    (c = .emergency → Between 0 3000 r.alertEta ∧ Between 0 60 r.lineLead ∧ Between 5 120 r.lineDwell)

/-- R180: every timing field in the range its chapter gives. -/
def TimingInRange (m : Image) : Prop :=
  Between 1 10 m.beaconPeriod ∧ Between 0 3 m.defaultWeight ∧ Between 0 4 m.gainShift ∧ Between 0 50 m.deadband ∧
    Between 1 20 m.slew ∧ Between 1 8 m.quorum ∧ Between 0 60 m.planHold ∧ Between 3 60 m.startFlash ∧
    Between 20 100 m.startRed ∧
    (∀ g : Group, Between 10 600 m.groups[g].minGreen ∧
      match m.groups[g].kind with
      | .vehicle => Between 0 30 m.groups[g].prep ∧ Between 30 80 m.groups[g].clearance
      | .pedestrian => m.groups[g].prep = 0 ∧ Between 30 600 m.groups[g].clearance) ∧
    (∀ a g : Group, ∀ i, m.intergreen[a][g] = some i → i ≤ 200) ∧
    (∀ st : Stage, Between 0 100 m.stages[st].passage ∧ Between 10 180 m.stages[st].maxGreen) ∧
    (∀ p : Plan, Between 0 30 m.plans[p].holdCap) ∧
    (∀ d : Detector, Between 0 25 m.detectors[d].onFilter ∧ Between 0 25 m.detectors[d].offFilter ∧
      Between 0 240 m.detectors[d].noActivity) ∧
    (∀ r ∈ m.neighbors, Between 0 3 r.weight ∧ Between 0 3000 r.travel ∧ Between 1 50 r.threshold ∧ Between 10 40 r.headway) ∧
    ∀ c : PreClass, ClassInRange c (m.cls c)

/-- A timing field: the limits of its range, and its value. -/
structure TimingField where
  low : Nat
  high : Nat
  value : Nat
  deriving DecidableEq, Repr

/-- R180: the field lies outside its range. -/
def TimingField.outside (f : TimingField) : Bool := f.value < f.low || f.high < f.value

/-- R180: the field at the nearer limit where it lies outside its range. -/
def TimingField.toNearerLimit (f : TimingField) : TimingField :=
  { f with value := if f.value < f.low then f.low else if f.high < f.value then f.high else f.value }

/-- The timing fields of a group record (Table 1.1, R1). -/
def groupTimings (r : GroupRecord) : List TimingField :=
  [⟨0, if r.kind = .vehicle then 30 else 0, r.prep⟩, ⟨10, 600, r.minGreen⟩,
   ⟨30, if r.kind = .vehicle then 80 else 600, r.clearance⟩]

/-- The timing fields of a class record, of those its class uses (Table 9.1, R180). -/
def classTimings (c : PreClass) (r : ClassRecord) : List TimingField :=
  [⟨0, 50, r.onDelay⟩, ⟨0, 60, r.minDwell⟩, ⟨10, 600, r.maxDwell⟩] ++
    match c with
    | .rail => []
    | .emergency => [⟨0, 3000, r.alertEta⟩, ⟨0, 60, r.lineLead⟩, ⟨5, 120, r.lineDwell⟩]
    | .transit => [⟨0, 600, r.inhibit⟩]

/-- R180, Table 11.9: the timing fields of an image, those marked T, in the order of the image. -/
def timings (m : Image) : List TimingField :=
  [⟨1, 10, m.beaconPeriod⟩, ⟨0, 3, m.defaultWeight⟩, ⟨0, 4, m.gainShift⟩, ⟨0, 50, m.deadband⟩, ⟨1, 20, m.slew⟩,
   ⟨1, 8, m.quorum⟩, ⟨0, 60, m.planHold⟩, ⟨3, 60, m.startFlash⟩, ⟨20, 100, m.startRed⟩] ++
  (m.groups.toList.flatMap groupTimings ++
    m.intergreen.toList.flatMap fun row => row.toList.filterMap fun x => x.map fun i => ⟨0, 200, i⟩) ++
  (m.stages.toList.flatMap (fun r => [⟨0, 100, r.passage⟩, ⟨10, 180, r.maxGreen⟩]) ++
    m.plans.toList.map fun r => ⟨0, 30, r.holdCap⟩) ++
  (m.detectors.toList.flatMap (fun r => [⟨0, 25, r.onFilter⟩, ⟨0, 25, r.offFilter⟩, ⟨0, 240, r.noActivity⟩]) ++
    m.neighbors.flatMap fun r => [⟨0, 3, r.weight⟩, ⟨0, 3000, r.travel⟩, ⟨1, 50, r.threshold⟩, ⟨10, 40, r.headway⟩]) ++
  allClasses.flatMap fun c => classTimings c (m.cls c)

/-- The two images agree in every field that is not a timing field (R180). -/
def SameStructure (m n : Image) : Prop :=
  n.address = m.address ∧ n.startStage = m.startStage ∧
    (∀ g : Group, n.groups[g] = { m.groups[g] with
      prep := n.groups[g].prep, minGreen := n.groups[g].minGreen, clearance := n.groups[g].clearance }) ∧
    (∀ a g : Group, n.intergreen[a][g] = none ↔ m.intergreen[a][g] = none) ∧
    (∀ st : Stage, n.stages[st] = { m.stages[st] with passage := n.stages[st].passage, maxGreen := n.stages[st].maxGreen }) ∧
    (∀ p : Plan, n.plans[p] = { m.plans[p] with holdCap := n.plans[p].holdCap }) ∧
    (∀ d : Detector, n.detectors[d] = { m.detectors[d] with
      onFilter := n.detectors[d].onFilter, offFilter := n.detectors[d].offFilter, noActivity := n.detectors[d].noActivity }) ∧
    n.neighbors.map (fun r => (r.address, r.inStage, r.exitDetector, r.outStage)) =
      m.neighbors.map (fun r => (r.address, r.inStage, r.exitDetector, r.outStage)) ∧
    ∀ c : PreClass, (n.cls c).target = (m.cls c).target ∧ (n.cls c).exit = (m.cls c).exit ∧
      (n.cls c).alertTarget = (m.cls c).alertTarget ∧ (n.cls c).acceptAlerts = (m.cls c).acceptAlerts ∧
      (c ≠ .emergency → (n.cls c).alertEta = (m.cls c).alertEta ∧ (n.cls c).lineLead = (m.cls c).lineLead ∧
        (n.cls c).lineDwell = (m.cls c).lineDwell) ∧
      (c ≠ .transit → (n.cls c).inhibit = (m.cls c).inhibit)

/-! ## The gate -/

/-- R9: the two conditions of the gate of `g`, for every group that conflicts with it. -/
def GateConditions (img : Image) (ge : Vector GroupState 16) (g : Group) : Prop :=
  ∀ (a : Group) (i : Nat), img.inter a g = some i →
    (ge[a].phase = .red ∨ ge[a].phase = .off) ∧ i ≤ img.groups[g].prep + ge[a].e

/-! ## Demand and extension -/

/-- R26: the group has demand. -/
def GroupHasDemand (img : Image) (s : State) (g : Group) : Prop :=
  s.ge[g].phase ≠ .off ∧ (s.sq.calls[g] = true ∨
    (∃ d : Detector, img.detectors[d].callGroup = some g ∧ (s.du[d].state = .failedOn ∨ s.du[d].state = .failedQuiet ∨
      (img.detectors[d].kind = .presence ∧ img.detectors[d].locking = false ∧ s.du[d].state = .occupied))) ∨
    ∃ n ∈ s.pl.queue, n.active = true ∧ img.stages[n.stage].groups[g] = true)

/-- R27: the stage has demand. -/
def StageHasDemand (img : Image) (s : State) (st : Stage) : Prop :=
  (∃ g : Group, img.stages[st].groups[g] = true ∧ s.ge[g].phase ≠ .green ∧ GroupHasDemand img s g) ∨
    ∃ r, activePlan s = some r ∧ (r.stages[st].recalled = true ∨ (r.cycle ≠ 0 ∧ r.coordinated = some st))

/-- R28: an extension input of the stage is active. -/
def Extended (img : Image) (s : State) (st : Stage) : Prop :=
  (∃ d : Detector, img.detectors[d].extStage = some st ∧
      (s.du[d].state = .occupied ∨ s.du[d].state = .failedOn ∨ s.du[d].state = .failedQuiet)) ∨
    ∃ n ∈ s.pl.queue, n.active = true ∧ n.stage = st

/-- R35: a platoon hold applies. -/
def PlatoonHolds (s : State) : Prop := ∃ n ∈ s.pl.queue, n.active = true ∧ coordinatedStage s = some n.stage

/-- R31, R33: every group of the stage has min-green-done set. -/
def MinGreensRun (s : State) (st : Stage) : Prop := ∀ g : Group, inStage s st g = true → s.ge[g].minGreenDone = true

/-- The stage is current and COMPLETE, with no change in flight and nothing of PE or OS for SQ to take (R30). -/
def Settled (s : State) (st : Stage) : Prop :=
  s.sq.current = some st ∧ s.sq.phase = .complete ∧ s.sq.target = none ∧ s.sq.command = none ∧ s.sq.haltRequest = false ∧
    s.sq.arrivals = []

/-- The max green of the stage will not have been reached at the next count (R32). -/
def MaxGreenAhead (s : State) (st : Stage) : Prop :=
  0 < maxGreenTime s st ∧ (s.sq.maxRunning = true → s.sq.maxTimer + 1 < maxGreenTime s st)

/-! ## Stage changes -/

/-- R135: the outbound stage of the link in a place is the current stage and COMPLETE. -/
def OutboundGreen (s : State) (p : Place) : Prop :=
  ∃ e l st, s.nt.places[p] = some e ∧ e.link = some l ∧ l.outStage = some st ∧ s.sq.current = some st ∧ s.sq.phase = .complete

/-- R135: from `s` to `t` PL has read the Stage Sequencer as it stands in `t`, and nothing else of PL has changed. -/
def GreensReread (s t : State) : Prop :=
  t.pl = { s.pl with links := t.pl.links } ∧
    ∀ p : Place, GreenRead (OutboundGreen t p) s.pl.links[p] t.pl.links[p]

/-- R37, R8: the leave request that a change to `u` leaves on a group in GREEN. -/
def leaveGiven (cause : TermCause) (truncating : Bool) (u : Stage) (s : State) (g : Group) : Leave :=
  if s.ge[g].leave = some .truncating ∨ (cause = .preempt ∧ truncating = true ∧
      ∃ a : Group, inStage s u a = true ∧ s.ge[a].phase ≠ .green) then .truncating else .ordinary

/-- R37, R8: the change to `u` has started from `s`: the state of SQ, and the request each group has been given. A group of the
target keeps no leave request in GREEN, and none in PREP (log entry 51). -/
def ChangeStarted (cause : TermCause) (truncating : Bool) (u : Stage) (s t : State) : Prop :=
  t.sq.target = some u ∧ t.sq.phase = .changing ∧ t.sq.lastCause = some cause ∧ t.sq.latch = none ∧
    t.sq.passageRunning = false ∧ t.sq.maxTimer = 0 ∧ t.sq.maxRunning = false ∧ t.sq.forceOff = false ∧ t.sq.hold = 0 ∧
    t.sq.holdRunning = false ∧ t.sq.calls = s.sq.calls ∧ t.sq.haltRequest = s.sq.haltRequest ∧
    (∀ g : Group, t.sq.entering[g] = true ↔ inStage s u g = true ∧ s.ge[g].phase ≠ .green) ∧
    ∀ g : Group, t.ge[g] =
      if inStage s u g = true then { s.ge[g] with
        leave := if s.ge[g].phase = .green ∨ s.ge[g].phase = .prep then none else s.ge[g].leave,
        entry := s.ge[g].entry || decide (s.ge[g].phase ≠ .green ∧ s.os.mode = .run) }
      else if s.ge[g].phase = .green then { s.ge[g] with leave := some (leaveGiven cause truncating u s g) }
      else s.ge[g]

/-- R44: the truncating leave requests still held in GREEN or PREP have become ordinary ones, where `was` says that the command
they came from was truncating. -/
def TruncationDropped (was : Bool) (s t : State) : Prop :=
  ∀ g : Group, t.ge[g] =
    if was = true ∧ (s.ge[g].phase = .green ∨ s.ge[g].phase = .prep) ∧ s.ge[g].leave = some .truncating
    then { s.ge[g] with leave := some .ordinary } else s.ge[g]

/-! ## The Cycle Clock -/

/-- R79: the entry qualifies for jump-in and discipline with cycle length `c`. -/
def Qualifies (c : Nat) (e : Entry) : Prop :=
  e.state = .heard ∧ 1 ≤ e.weight ∧
    ∃ b, e.last = some b ∧ b.cycle = c ∧ (b.mode = .runCoord ∨ b.mode = .preempt) ∧ b.unsync = false

/-- R79: no qualifying entry of the table goes before `e`: none has a higher weight, or its weight and a lower address. -/
def BestOf (s : State) (e : Entry) : Prop :=
  (∃ p : Place, s.nt.places[p] = some e) ∧ Qualifies s.ck.c e ∧
    ∀ (q : Place) (f : Entry), s.nt.places[q] = some f → Qualifies s.ck.c f →
      f.weight < e.weight ∨ (f.weight = e.weight ∧ e.address ≤ f.address)

/-- R130: the entry is HEARD with a last mode other than FLASH and with this last plan. -/
def heardOn (p : Plan) (x : Option Entry) : Bool :=
  match x with
  | some e => e.state == .heard && e.last.any fun b => b.mode != .flash && b.plan == p
  | none => false

/-- R130: the count of a plan. -/
def heardCount (nt : NtState) (p : Plan) : Nat := places.countP fun q => heardOn p nt.places[q]

/-- R130: plan following sets the pending plan to `p`. -/
def PlanFollowed (img : Image) (nt : NtState) (active p : Plan) : Prop :=
  p ≠ active ∧ img.quorum ≤ heardCount nt p ∧ heardCount nt active < heardCount nt p ∧
    ∀ q : Plan, q ≠ active → heardCount nt q < heardCount nt p ∨ (heardCount nt q = heardCount nt p ∧ p ≤ q)

/-- R95: what a second mark pays out of a balance. -/
def paid (img : Image) (b : Int) : Int := if b < 0 then -(min b.natAbs img.slew : Nat) else (min b.natAbs img.slew : Nat)

/-- R71, R72, R95: from `k` to `k'` the position has advanced with this payout, or has been held. -/
def Advanced (pay : Int) (k k' : CkState) : Prop :=
  k'.b = k.b - pay ∧
    (pay < 0 → k'.p = k.p % k.c ∧ (k'.hold : Int) = -pay - 1) ∧
    (0 ≤ pay → 0 < k.hold → k'.p = k.p % k.c ∧ k'.hold = k.hold - 1) ∧
    (0 ≤ pay → k.hold = 0 → (k'.p : Int) = ((k.p : Int) + 1 + pay) % k.c ∧ k'.hold = 0)

/-- R71, R72: the ticks by which a tick with this payout and this hold count advances the position. -/
def ticksAdvanced (pay : Int) (hold : Nat) : Nat := if pay < 0 ∨ 0 < hold then 0 else 1 + pay.toNat

/-- R74 (1): the position `q` lies in the window from `a` to `b`, ends included, past cycle zero where it wraps. -/
def Inside (q a b : Nat) : Prop := (a ≤ b ∧ a ≤ q ∧ q ≤ b) ∨ (b < a ∧ (a ≤ q ∨ q ≤ b))

/-- R75: the report with every window closed and nothing crossed. -/
def AllClosed (w : WindowReport) : Prop :=
  w.yieldOpen = false ∧ ∀ st : Stage, w.permissive[st] = false ∧ w.crossed[st] = false

/-- R77, R75: from `s` to `t` the plan `p` has been adopted. -/
def Adopted (img : Image) (p : Plan) (s t : CkState) : Prop :=
  t.active = some p ∧ t.pendingPlan = some p ∧ t.c = 100 * img.plans[p].cycle ∧ t.p = 0 ∧ t.b = 0 ∧ t.hold = 0 ∧
    t.unsyncCount = 0 ∧ t.record = s.record ∧
    (img.plans[p].cycle = 0 → t.o = 0 ∧ t.unsync = false ∧ AllClosed t.report) ∧
    (img.plans[p].cycle ≠ 0 → t.o = 10 * img.plans[p].offset ∧ t.unsync = true ∧
      (t.report.yieldOpen = true ↔ img.plans[p].yieldStart = 0 ∨ img.plans[p].yieldEnd < img.plans[p].yieldStart) ∧
      ∀ st : Stage,
        (t.report.permissive[st] = true ↔
          img.plans[p].stages[st].permStart = 0 ∨ img.plans[p].stages[st].permEnd < img.plans[p].stages[st].permStart) ∧
        (t.report.crossed[st] = true ↔ img.plans[p].stages[st].forceOff = some 0))

/-! ## The corridor line -/

/-- R110, R111: from `s` an attempt has begun: the frame in hand again, or the head of the queue for the first time, with its
bytes as they stand at this moment. -/
def AttemptBegun (s t : State) : Prop :=
  t.lu.access = .sending ∧ t.lu.busy = true ∧ t.lu.driverEnable = true ∧ t.lu.slots = 0 ∧ t.lu.exponent = s.lu.exponent ∧
    t.lu.nextEntry = s.lu.nextEntry ∧
    (∀ h, s.lu.inHand = some h → t.lu.inHand = some { frame := h.frame, attempts := h.attempts + 1 } ∧
      t.lu.queue = s.lu.queue ∧ t.lu.sending = some { bytes := frameBytes s h.frame, next := 0 }) ∧
    ∀ q rest, s.lu.inHand = none → s.lu.queue = q :: rest →
      t.lu.inHand = some { frame := q.frame, attempts := 1 } ∧ t.lu.queue = rest ∧
        t.lu.sending = some { bytes := frameBytes s q.frame, next := 0 }

/-- R108: from `s`, on a FREE line with work, a slot count has been drawn; with 0 an attempt begins at once. -/
def Drawn (s t : State) : Prop :=
  let k := (sequenceStep s.lu.sequence).toNat % 2 ^ s.lu.exponent
  t.lu.sequence = sequenceStep s.lu.sequence ∧ (k = 0 → AttemptBegun s t) ∧
    (0 < k → t.lu.access = .backoff ∧ t.lu.slots = k ∧ t.lu.busy = false ∧ t.lu.driverEnable = s.lu.driverEnable ∧
      t.lu.inHand = s.lu.inHand ∧ t.lu.queue = s.lu.queue ∧ t.lu.exponent = s.lu.exponent ∧ t.lu.sending = s.lu.sending ∧
      t.lu.nextEntry = s.lu.nextEntry)

/-- R106, R107: the frame in hand is finished: the access state by what is left, and the report to CK for a BEACON (R81). -/
def FrameFinished (h : InHand) (s t : State) : Prop :=
  t.lu.inHand = none ∧ t.lu.exponent = 2 ∧ t.lu.access = (if s.lu.queue = [] then .idle else .defer) ∧
    t.ck = if h.frame = .beacon then { s.ck with beaconCount := 0 } else s.ck

/-- R110: the attempt has failed; at the sixth the frame is dropped. -/
def AttemptLost (h : InHand) (s t : State) : Prop :=
  t.lu.driverEnable = false ∧ t.lu.sending = none ∧ t.lu.queue = s.lu.queue ∧ t.lu.sequence = s.lu.sequence ∧
    t.lu.counters.collisions = min (s.lu.counters.collisions + 1) 65535 ∧ t.lu.counters.sent = s.lu.counters.sent ∧
    (h.attempts < 6 → t.lu.access = .defer ∧ t.lu.inHand = some h ∧ t.lu.exponent = min (s.lu.exponent + 1) 5 ∧
      t.lu.counters.dropped = s.lu.counters.dropped ∧ t.ck = s.ck) ∧
    (6 ≤ h.attempts → FrameFinished h s t ∧ t.lu.counters.dropped = min (s.lu.counters.dropped + 1) 65535)

/-- R110: the attempt has succeeded. -/
def AttemptWon (h : InHand) (s t : State) : Prop :=
  t.lu.driverEnable = false ∧ t.lu.sending = none ∧ t.lu.queue = s.lu.queue ∧ t.lu.sequence = s.lu.sequence ∧
    FrameFinished h s t ∧ t.lu.counters.sent = min (s.lu.counters.sent + 1) 65535 ∧
    t.lu.counters.collisions = s.lu.counters.collisions ∧ t.lu.counters.dropped = s.lu.counters.dropped

/-- Table 6.2: the kinds with their total lengths. -/
def frameKinds : List (Nat × Nat) := [(0x51, 6), (0x52, 10), (0x53, 12), (0x54, 12)]

/-- R102: the check sequence over the sender address up to the last field agrees with the last two bytes. -/
def Intact (f : List Byte) : Prop := crcBytes ((f.drop 1).take (f.length - 3)) = f.drop (f.length - 2)

/-- R113: none of the eight conditions of a malformed frame holds. -/
def FieldsGood (f : List Byte) : Prop :=
  Between 1 62 (num f 1) ∧
    (num f 2 = 0x51 → num f 3 = 1 ∨ num f 3 = 2) ∧
    (num f 2 = 0x52 → Between 1 63 (num f 3) ∧ num f 5 = 2) ∧
    (num f 2 = 0x53 → Between 1 63 (num f 3) ∧ Between 50 600 (256 * num f 7 + num f 8)) ∧
    (num f 2 = 0x54 → Between 1 4 (num f 3) ∧ Between 1 4 (num f 4) ∧ Between 1 10 (num f 8) ∧
      ((num f 5 = 0 ∧ 256 * num f 6 + num f 7 = 0) ∨
        (Between 40 240 (num f 5) ∧ 256 * num f 6 + num f 7 < 100 * num f 5)))

/-- `f` is the frame that the byte `last` completes while no attempt of this station is on the line. -/
def Completes (s : State) (img : Image) (last : Byte) (f : List Byte) : Prop :=
  s.cf.image = some img ∧ s.lu.access ≠ .disabled ∧ s.lu.sending = none ∧
    ∃ bs, s.lu.assembler = .assembling bs ∧ 3 ≤ bs.length ∧ (num bs 2, bs.length + 1) ∈ frameKinds ∧ f = bs ++ [last]

/-- R114, R115: the completed frame is good and comes from another station. -/
def GoodFromOther (s : State) (img : Image) (last : Byte) (f : List Byte) : Prop :=
  Completes s img last f ∧ Intact f ∧ FieldsGood f ∧ num f 1 ≠ img.address

/-- R115, Table 11.7: `b` holds the fields of the BEACON `f`, the cycle length in ticks. -/
def BeaconRead (f : List Byte) (b : LastBeacon) : Prop :=
  beaconModeCode b.mode = num f 3 ∧ b.plan.val + 1 = num f 4 ∧ b.cycle = 100 * num f 5 ∧
    b.reference = 256 * num f 6 + num f 7 ∧ b.period = num f 8 ∧ b.accepting = (byteAt f 9).getLsbD 0 ∧
    b.unsync = (byteAt f 9).getLsbD 1 ∧ b.planHold = (byteAt f 9).getLsbD 2 ∧ b.fault = (byteAt f 9).getLsbD 3 ∧
    classCode b.cls = num f 9 / 16 % 4

/-- R101: the fields a sender supplies lie in their ranges, and for a BEACON the state it samples. -/
def FrameInRange (s : State) : TxFrame → Prop
  | .flashAlert _ => True
  | .preemptAlert target _ _ => Between 1 63 target
  | .platoon target _ _ duration => Between 1 63 target ∧ Between 50 600 duration
  | .beacon => (∃ img, s.cf.image = some img ∧ Between 1 10 img.beaconPeriod) ∧ s.ck.active ≠ none ∧
      ∃ cycle, s.ck.c = 100 * cycle ∧ (cycle = 0 ∨ Between 40 240 cycle)

/-! ## Platoons -/

/-- R139: `n` may stand before `m` in the platoon queue. -/
def noticeOrder (n m : Notice) : Prop :=
  n.t < m.t ∨ (n.t = m.t ∧ (n.sender < m.sender ∨ (n.sender = m.sender ∧ n.arrival ≤ m.arrival)))

/-- R143: the accepting flag of `t` follows the size of its queue. -/
def AcceptingFollows (s t : State) : Prop :=
  (12 ≤ t.pl.queue.length → t.pl.accepting = false) ∧ (t.pl.queue.length ≤ 8 → t.pl.accepting = true) ∧
    (8 < t.pl.queue.length → t.pl.queue.length < 12 → t.pl.accepting = s.pl.accepting)

/-- R142 (1), R25: from `s` to `t` the Stage Sequencer has had a call written to each group of the stage, and nothing else. -/
def StageCalled (st : Stage) (s t : State) : Prop :=
  t.sq = { s.sq with calls := t.sq.calls } ∧ ∀ g : Group, t.sq.calls[g] = true ↔ s.sq.calls[g] = true ∨
    (inStage s st g = true ∧ s.ge[g].phase ≠ .green ∧ s.ge[g].phase ≠ .off)

/-! ## Preemption -/

/-- The target of class `c` is not current and COMPLETE. -/
def TargetAway (img : Image) (s : State) (c : PreClass) : Prop :=
  ∀ st, (img.cls c).target = some st → stageComplete s st = false

/-- R147: the exit stage is present and enabled. -/
def ExitsBy (img : Image) (c : PreClass) (x : Stage) : Prop := (img.cls c).exit = some x ∧ img.stages[x].enabled = true

/-- PE has placed a command that the Stage Sequencer takes at its next evaluation. -/
def CommandPlaced (st : Stage) (truncating : Bool) (s t : State) : Prop :=
  t.pe.command = some (st, truncating) ∧ t.sq = { s.sq with arrivals := s.sq.arrivals ++ [.place st truncating] }

/-- R152: a service of class `c` has started in ENTRY. -/
def ServiceStarted (img : Image) (c : PreClass) (st : Stage) (line : Bool) (s t : State) : Prop :=
  t.pe.service = some { cls := c, phase := .entry, elapsed := 0, remaining := 10 * (img.cls c).maxDwell, fromLine := line,
                        alertSent := false, byMax := false } ∧
    CommandPlaced st (decide (c ≠ .transit)) s t ∧ t.lu = s.lu

/-- R152, R153, R158: from `s` the service `v`, whose target `st` is seen current and COMPLETE, has entered DWELL: the truncating
command replaced, and the alert of an EMERGENCY service offered or withheld, where one neighbor at most is its target. -/
def DwellEntered (img : Image) (v : Service) (st : Stage) (s u : State) : Prop :=
  let alerts := v.cls = .emergency ∧ v.fromLine = false ∧ v.alertSent = false
  let marked := fun (p : Place) (e : Entry) => s.nt.places[p] = some e ∧ ∃ l, e.link = some l ∧ l.alert = true
  u.pe.stack = s.pe.stack ∧ u.pe.classes = s.pe.classes ∧ u.pe.inhibit = s.pe.inhibit ∧ u.pe.lineDwell = s.pe.lineDwell ∧
    u.pe.alert = s.pe.alert ∧
    (v.cls = .transit → u.pe.command = s.pe.command ∧ u.sq = s.sq) ∧
    (v.cls ≠ .transit → CommandPlaced st false s u) ∧
    (¬alerts ∨ (∀ p e, ¬marked p e) →
      u.pe.service = some { v with phase := .dwell, elapsed := 0 } ∧ u.lu = s.lu ∧ u.pe.alertSerial = s.pe.alertSerial ∧
        u.pe.withheld = s.pe.withheld) ∧
    ∀ (p : Place) (e : Entry), alerts → marked p e → (∀ q f, marked q f → q = p) →
      u.pe.service = some { v with phase := .dwell, elapsed := 0, alertSent := true } ∧
      (e.state = .heard → u.pe.alertSerial = (s.pe.alertSerial + 1) % 256 ∧ u.pe.withheld = s.pe.withheld ∧
        Offered (.preemptAlert e.address ((s.pe.alertSerial + 1) % 256) (img.cls .emergency).alertEta) s u) ∧
      (e.state ≠ .heard → u.pe.alertSerial = s.pe.alertSerial ∧ u.lu = s.lu ∧
        u.pe.withheld = min (s.pe.withheld + 1) 65535)

/-- No class above `c` is requested. -/
def NoneAbove (s : State) (c : PreClass) : Prop := ∀ d, higherClass d c = true → s.pe.requested d = false

/-- R154, R157: the service has ended with nothing to follow it. -/
def ServiceGone (pe : PeState) (s t : State) : Prop :=
  t.pe = { pe with service := none, command := none } ∧ t.sq = { s.sq with arrivals := s.sq.arrivals ++ [.release] } ∧
    t.lu = s.lu

/-- R150, R154, R157: TRANSIT has ended with a re-service inhibit of 0: an input still on is a request at once, whose service
follows, and with the input off the service is gone. -/
def InhibitSkipped (img : Image) (s t : State) : Prop :=
  ((s.pe.cls .transit).filtered = false → ServiceGone { s.pe.setRequest .transit .none with inhibit := 0 } s t) ∧
    ∀ st, (s.pe.cls .transit).filtered = true → (img.cls .transit).target = some st →
      CommandPlaced st false s t ∧ t.lu = s.lu ∧ t.pe = { s.pe.setRequest .transit .requestedLocal with
        inhibit := 0, command := some (st, false),
        service := some { cls := .transit, phase := if stageComplete s st = true then .dwell else .entry, elapsed := 0,
                          remaining := 10 * (img.cls .transit).maxDwell, fromLine := false, alertSent := false, byMax := false } }

/-- R153 (2): the request state and line dwell timer at a max-dwell exit of the service `v`. -/
def lockedOutBy (v : Service) (pe : PeState) : PeState :=
  { pe.setRequest v.cls .lockedOut with lineDwell := if v.cls = .emergency then 0 else pe.lineDwell }

/-- R150, R154: from `pe` to `pe'` the TRANSIT inhibit has been applied at the end of the service `v`. -/
def InhibitApplied (img : Image) (v : Service) (pe pe' : PeState) : Prop :=
  (v.cls ≠ .transit ∨ v.byMax = true → pe' = pe) ∧
    (v.cls = .transit → v.byMax = false →
      (0 < (img.cls .transit).inhibit →
        pe' = { pe.setRequest .transit .inhibited with inhibit := (img.cls .transit).inhibit }) ∧
      ((img.cls .transit).inhibit = 0 → pe' = { pe.setRequest .transit
        (if (pe.cls .transit).filtered = true then .requestedLocal else .none) with inhibit := 0 }))

/-- R152, R157: from `s` the service `v` has begun, new or resumed: in ENTRY, or in DWELL where its target `y` is already current
and COMPLETE. -/
def ServiceBegun (v : Service) (y : Stage) (s t : State) : Prop :=
  (stageComplete s y = false → t.pe.service = some v ∧ CommandPlaced y (decide (v.cls ≠ .transit)) s t ∧ t.lu = s.lu) ∧
    (stageComplete s y = true → t.pe.command = some (y, false) ∧
      t.pe.service.map (fun w => (w.cls, w.phase, w.elapsed, w.remaining, w.fromLine)) =
        some (v.cls, .dwell, 0, v.remaining, v.fromLine))

/-- R152: a new service of class `c`, with the request state that starts it. -/
def newService (img : Image) (c : PreClass) (request : Request) : Service :=
  { cls := c, phase := .entry, elapsed := 0, remaining := 10 * (img.cls c).maxDwell,
    fromLine := decide (request = .requestedLine), alertSent := false, byMax := false }

/-- R157, R158: the service resumed from a record of the stack. -/
def resumedService (r : Stacked) : Service :=
  { cls := r.cls, phase := .entry, elapsed := 0, remaining := r.remaining, fromLine := r.fromLine,
    alertSent := decide (r.phase = .dwell), byMax := false }

/-- R157: a service has ended and left PE with `pe`, and from `s` what follows has been done: the records of the stack that are not
kept are discarded, each requested class of them locked out, and the highest class still waiting is served. -/
def AfterService (img : Image) (pe : PeState) (s t : State) : Prop :=
  ∀ dropped kept : List Stacked, pe.stack = dropped ++ kept →
    (∀ r ∈ dropped, pe.requested r.cls = false ∨ r.remaining = 0) →
    (∀ r rest, kept = r :: rest → pe.requested r.cls = true ∧ 0 < r.remaining) →
    let waits := fun c : PreClass => pe.requested c = true ∧ ∀ r ∈ dropped, r.cls ≠ c
    t.pe.inhibit = pe.inhibit ∧ t.pe.lineDwell = pe.lineDwell ∧ t.pe.alert = pe.alert ∧
      (∀ c, waits c ∨ pe.requested c = false → t.pe.cls c = pe.cls c) ∧
      (∀ c, pe.requested c = true → ¬waits c → t.pe.cls c = { pe.cls c with request := .lockedOut }) ∧
      ((∀ c, ¬waits c) → t.pe.service = none ∧ t.pe.command = none ∧ t.pe.stack = [] ∧
        t.sq = { s.sq with arrivals := s.sq.arrivals ++ [.release] } ∧ t.lu = s.lu) ∧
      (∀ r rest y, kept = r :: rest → (∀ d, higherClass d r.cls = true → ¬waits d) → (img.cls r.cls).target = some y →
        t.pe.stack = rest ∧ ServiceBegun (resumedService r) y s t) ∧
      ∀ c y, waits c → (∀ d, higherClass d c = true → ¬waits d) → (∀ r rest, kept = r :: rest → higherClass c r.cls = true) →
        (img.cls c).target = some y →
        t.pe.stack = kept ∧ ServiceBegun (newService img c (pe.cls c).request) y s t

/-! ## PE's evaluation at a tick (R148 to R151) -/

/-- R151: a tenth timer at a tick. -/
def tenthDown (s : State) (n : Nat) : Nat := if tenthMark s = true then n - 1 else n

/-- R150: the inhibit timer at a tick. -/
def inhibitDown (s : State) : Nat := if secondMark s = true then s.pe.inhibit - 1 else s.pe.inhibit

/-- R153: the active service at a tick. -/
def serviceCounted (s : State) (v : Service) : Service :=
  { v with
    remaining := if v.phase = .exit then v.remaining else tenthDown s v.remaining,
    elapsed := if v.phase = .dwell ∧ tenthMark s = true then min (v.elapsed + 1) 6000 else v.elapsed }

/-- R159: the pending line alert stands at countdown 0 at this tick's evaluation. -/
def AlertDue (s : State) : Prop := ∃ a, s.pe.alert = some a ∧ tenthDown s a.countdown = 0

/-- R148: from `s` to `u` the input of class `c`, read as `raw`, has been filtered. -/
def RequestFiltered (img : Image) (c : PreClass) (raw : Bool) (s u : State) : Prop :=
  let x := s.pe.cls c
  let y := u.pe.cls c
  (raw = false → y.filtered = false ∧ y.count = 0) ∧
    (raw = true → x.filtered = true ∨ 10 * (img.cls c).onDelay < x.count + 1 → y.filtered = true ∧ y.count = 0) ∧
    (raw = true → x.filtered = false → x.count + 1 ≤ 10 * (img.cls c).onDelay → y.filtered = false ∧ y.count = x.count + 1)

/-- Table 9.2, R159: from `s` to `u` the request state of class `c` has moved. A line request that falls due is raised after the
rows that read the input (log entry 19). -/
def RequestMoved (img : Image) (c : PreClass) (raw : Bool) (s u : State) : Prop :=
  let x := (s.pe.cls c).request
  let y := (u.pe.cls c).request
  let on := (u.pe.cls c).filtered
  let held := x = .lockedOut ∧ raw = true
  (held → y = .lockedOut) ∧
    (x = .inhibited → y = if 0 < u.pe.inhibit then .inhibited else if on = true then .requestedLocal else .none) ∧
    (c ≠ .emergency ∨ ¬AlertDue s →
      (x = .none ∨ x = .requestedLocal → y = if on = true then .requestedLocal else .none) ∧
      (x = .lockedOut → raw = false → y = .none) ∧
      (x = .requestedLine → y = if on = true then .requestedLocal
        else if tenthDown s s.pe.lineDwell = 0 then .none else .requestedLine)) ∧
    (c = .emergency → AlertDue s → 0 < (img.cls .emergency).lineDwell → ¬held →
      y = if on = true then .requestedLocal else .requestedLine)

/-- R159, Table 9.2: from `s` to `u` the pending line alert and the line dwell timer have moved, where `held` says that EMERGENCY
stays locked out. -/
def LineRequestMoved (img : Image) (held : Prop) (s u : State) : Prop :=
  let on := (u.pe.cls .emergency).filtered = true
  let counted := tenthDown s s.pe.lineDwell
  (AlertDue s → u.pe.alert = none) ∧
    (¬AlertDue s → u.pe.alert = s.pe.alert.map fun a => { a with countdown := tenthDown s a.countdown }) ∧
    (AlertDue s → ¬on → ¬held → u.pe.lineDwell = 10 * (img.cls .emergency).lineDwell) ∧
    (¬AlertDue s ∨ on ∨ held →
      ((s.pe.cls .emergency).request = .requestedLine → on → u.pe.lineDwell = 0) ∧
      ((s.pe.cls .emergency).request ≠ .requestedLine ∨ ¬on → u.pe.lineDwell = counted))

/-- R151: from `s` to `u` PE has done the part of its evaluation that comes before its service decisions. -/
def PeEvaluated (img : Image) (s u : State) : Prop :=
  let raw := fun c : PreClass => s.pins.requests.getLsbD (classIndex c).val
  Only [.pe] s u ∧ u.pe.inhibit = inhibitDown s ∧ u.pe.service = s.pe.service.map (serviceCounted s) ∧
    u.pe.stack = s.pe.stack.map (fun r => { r with remaining := tenthDown s r.remaining }) ∧
    u.pe.command = s.pe.command ∧ u.pe.alertSerial = s.pe.alertSerial ∧ u.pe.withheld = s.pe.withheld ∧
    u.pe.ignored = s.pe.ignored ∧
    (∀ c, RequestFiltered img c (raw c) s u ∧ RequestMoved img c (raw c) s u) ∧
    LineRequestMoved img ((s.pe.cls .emergency).request = .lockedOut ∧ raw .emergency = true) s u

/-! ## Answers of the Maintenance Port -/

/-- The command is answered with this status byte alone. -/
def Answered (b : Byte) (c : Instr) (s : State) : Prop := ∃ t, exec c s = .next t ∧ t.mp.response = [b]

/-- The command is answered with this status byte, and has no effect. -/
def TurnedAway (b : Byte) (c : Instr) (s : State) : Prop :=
  ∃ t, exec c s = .next t ∧ t.mp.response = [b] ∧ Only [.mp] s t

/-! ## The laws -/

/-- Every step from a state that meets `L` gives a state that meets it. -/
def Kept (L : State → Prop) : Prop := ∀ s t, L s → step s = .next t → L t

/-- R164, R177, R181: an image is in use exactly outside LOADING and NO-PLAN FLASH. -/
def ModeLaw (s : State) : Prop := s.cf.image = none ↔ (s.os.mode = .loading ∨ s.os.mode = .noPlanFlash)

/-- R2: conflict is symmetric. -/
def Image.Symmetric (img : Image) : Prop := ∀ a g, img.conflicts a g = true → img.conflicts g a = true

/-- R10: no two conflicting groups hold right-of-way together; without an image every group is OFF (R18). -/
def GateLaw (s : State) : Prop :=
  match s.cf.image with
  | none => ∀ g : Group, s.ge[g].phase = .off
  | some img => img.Symmetric ∧
      ∀ a g, img.conflicts a g = true → ¬(s.ge[a].phase.rightOfWay = true ∧ s.ge[g].phase.rightOfWay = true)

/-- R1, R9, R11: a group that is not enabled is OFF, and while a group runs its PREP every intergreen toward it elapses by the
end of that PREP. -/
def IntergreenLaw (s : State) : Prop :=
  ∀ img, s.cf.image = some img →
    (∀ g : Group, img.groups[g].enabled = false → s.ge[g].phase = .off) ∧
      ∀ (a g : Group) (i : Nat), img.inter a g = some i →
        i ≤ 200 ∧ (s.ge[g].phase = .prep → i ≤ s.ge[a].e + s.ge[g].timer)

/-- R71: the position lies in 0 to C - 1 while the plan is coordinated, and is 0 while it is free; C is the active plan's. -/
def ClockLaw (s : State) : Prop :=
  (∀ r, activePlan s = some r → s.ck.c = 100 * r.cycle) ∧ (s.ck.active = none → s.ck.c = 0) ∧
    (s.ck.c = 0 → s.ck.p = 0) ∧ (s.ck.c ≠ 0 → s.ck.p < s.ck.c)

/-- R96: the balance never exceeds half the cycle length in magnitude, and is 0 while the plan is free. -/
def BalanceLaw (s : State) : Prop := 2 * s.ck.b.natAbs ≤ s.ck.c

/-- R103: one queued frame stands before another: by kind, and within a kind by time of entry. -/
def queuedBefore (a b : Queued) : Prop :=
  kindRank a.frame < kindRank b.frame ∨ (kindRank a.frame = kindRank b.frame ∧ a.entered < b.entered)

/-- R103: at most 6 frames, at most one of each kind but PLATOON, at most three PLATOON frames for different targets, in the
order of the queue. -/
def QueueLaw (s : State) : Prop :=
  s.lu.queue.length ≤ 6 ∧ platoonFrames s.lu.queue ≤ 3 ∧ s.lu.queue.Pairwise (fun a b => sameSlot a.frame b = false) ∧
    s.lu.queue.Pairwise queuedBefore ∧ ∀ q ∈ s.lu.queue, q.entered < s.lu.nextEntry

/-- R104, R106 to R110, R118: what the access states hold: DISABLED exactly without an image, a frame on the line exactly in
SENDING with the driver enabled, no work in IDLE and DISABLED, the exponent in 2 to 5, the attempt count in 1 to 6 and
below 6 between attempts, and a sequence generator that is not all zeros while LU is not DISABLED. -/
def LineLaw (s : State) : Prop :=
  (s.lu.access = .disabled ↔ s.cf.image = none) ∧ (∀ img, s.cf.image = some img → 1 ≤ img.address ∧ img.address ≤ 62) ∧
    (s.lu.driverEnable = true ↔ s.lu.access = .sending) ∧ (s.lu.sending.isSome = true ↔ s.lu.access = .sending) ∧
    (s.lu.access = .sending → s.lu.inHand.isSome = true) ∧
    (s.lu.access = .idle ∨ s.lu.access = .disabled → s.lu.queue = [] ∧ s.lu.inHand = none) ∧
    (2 ≤ s.lu.exponent ∧ s.lu.exponent ≤ 5) ∧
    (∀ h, s.lu.inHand = some h → 1 ≤ h.attempts ∧ h.attempts ≤ 6 ∧ (s.lu.access ≠ .sending → h.attempts ≤ 5)) ∧
    (s.lu.access ≠ .disabled → s.lu.sequence ≠ 0)

/-- R119, R123: no two entries with one address, none with the station's own, and an entry is ABSENT exactly while it holds no
beacon. -/
def TableLaw (s : State) : Prop :=
  (∀ p q : Place, ∀ e f, s.nt.places[p] = some e → s.nt.places[q] = some f → e.address = f.address → p = q) ∧
    (∀ img, s.cf.image = some img → ∀ p : Place, ∀ e, s.nt.places[p] = some e → e.address ≠ img.address) ∧
    ∀ p : Place, ∀ e, s.nt.places[p] = some e → (e.state = .absent ↔ e.last = none)

/-- R88, R124: a HEARD entry is younger than three of its beacon periods and a STALE one than ten; the period lies in 1 to 10 s
and the reference position below the cycle length. -/
def AgeLaw (s : State) : Prop :=
  ∀ p : Place, ∀ e b, s.nt.places[p] = some e → e.last = some b →
    1 ≤ b.period ∧ b.period ≤ 10 ∧ (b.reference < b.cycle ∨ (b.cycle = 0 ∧ b.reference = 0)) ∧
      (e.state = .heard → e.age < 300 * b.period) ∧ e.age < 1000 * b.period

/-- R139, R143: at most 16 notices in order of T, sender and arrival, no two with one sender and serial, the active ones at T = 0,
and the accepting flag clear from 12 notices and set up to 8. -/
def PlatoonLaw (s : State) : Prop :=
  s.pl.queue.length ≤ 16 ∧ s.pl.queue.Pairwise noticeOrder ∧
    s.pl.queue.Pairwise (fun a b => ¬(a.sender = b.sender ∧ a.serial = b.serial)) ∧
    (∀ n ∈ s.pl.queue, n.active = true ↔ n.t = 0) ∧
    (12 ≤ s.pl.queue.length → s.pl.accepting = false) ∧ (s.pl.queue.length ≤ 8 → s.pl.accepting = true)

/-- R156: at most 2 records, each of a class lower than the active service's, in descending class, no class twice; with no
service active the stack is empty. -/
def StackLaw (s : State) : Prop :=
  s.pe.stack.length ≤ 2 ∧ match s.pe.service with
    | none => s.pe.stack = []
    | some v => (v.cls :: s.pe.stack.map (fun r => r.cls)).Pairwise fun a b => higherClass a b = true

/-- R149: REQUESTED-LINE is reached by EMERGENCY only, and INHIBITED by TRANSIT only. -/
def RequestLaw (s : State) : Prop :=
  ∀ c, ((s.pe.cls c).request = .requestedLine → c = .emergency) ∧ ((s.pe.cls c).request = .inhibited → c = .transit)

/-- R174: a fault is recorded exactly in FAULT FLASH, and there every channel follows its flash pattern. -/
def FaultLaw (s : State) : Prop :=
  (s.os.fault.isSome = true ↔ s.os.mode = .faultFlash) ∧
    (s.os.mode = .faultFlash → ∀ g : Group, s.os.source[g] = if groupEnabled s g = true then .flash else .dark)

/-- R46: in a mode other than RUN and FLASH ENTRY the Stage Sequencer holds its stopped values. -/
def StoppedLaw (s : State) : Prop :=
  s.os.mode ≠ .run → s.os.mode ≠ .flashEntry → s.sq = { SqState.reset with lastCause := s.sq.lastCause, calls := s.sq.calls }

/-- R23: COMPLETE only with a current stage and no change in flight. -/
def PhaseLaw (s : State) : Prop := s.sq.phase = .complete → s.sq.current.isSome = true ∧ s.sq.target = none

/-- R182, R183: while select is high MP is IDLE, and it ignores bytes only in a select period that a reset met. -/
def PortLaw (s : State) : Prop :=
  (s.pins.selectLow = false → s.mp.phase = .idle ∧ s.mp.ignoring = false) ∧ (s.mp.ignoring = true → s.mp.phase = .idle)

/-- 00_scope convention 9: each saturating counter is at most its maximum, and M lies in 0 to 999 (R66). -/
def CounterLaw (s : State) : Prop :=
  let c := s.lu.counters
  s.tb.m < 1000 ∧ (∀ g : Group, s.ge[g].e ≤ 255) ∧ s.os.additional ≤ 255 ∧ s.cf.clamped ≤ 255 ∧ s.nt.refused ≤ 255 ∧
    s.ck.record.marks ≤ 255 ∧ s.pl.withheld ≤ 65535 ∧ s.pl.unlinked ≤ 65535 ∧ s.pl.stale ≤ 65535 ∧ s.pl.overflow ≤ 65535 ∧
    s.pe.withheld ≤ 65535 ∧ s.pe.ignored ≤ 65535 ∧
    ∀ n ∈ [c.sent, c.collisions, c.dropped, c.received, c.crcErrors, c.fragments, c.malformed, c.clashes], n ≤ 65535

end Sys2Proof.Machine
end

