-- ==== Sys2Proof/WellFormed.lean ====
section
/-! DEFINITION. WellFormed.lean: which commands the outside can bring about: the operands lie in the ranges the manual gives
them. An operand whose type already holds its range (a group, a detector, a place, a byte) needs no check. -/

namespace Sys2Proof

/-- The command codes of Table 11.3. -/
def knownCodes : List Nat := [0x01, 0x02, 0x03, 0x04, 0x05, 0x10, 0x20, 0x21, 0x30, 0x31, 0x40, 0x41, 0x50]

/-- A sender address lies in 1 to 62 and a link serial in 0 to 255 (R101). -/
def noticeNamed (sender serial : Nat) : Bool := 1 ≤ sender && sender ≤ 62 && serial < 256

/-- The operands of a command are in range. -/
def Instr.wf : Instr → Bool
  | .powerOn | .resetPin | .headerRead _ => true
  | .memoryNoAcknowledge delivered => delivered.length < 957
  | .loadEnd body => 867 ≤ body.length && body.length ≤ 939
  | .tick _ _ _ | .prepEnd _ | .minGreenEnd _ | .clearanceEnd _ => true
  | .passageTimerExpiry | .maxTimerExpiry | .holdExtensionExpiry | .stageChangeComplete => true
  | .peCommand _ _ | .peCommandRelease _ | .halt | .haltDone => true
  | .onEdge _ | .offEdge _ | .failedOn _ | .failedQuiet _ => true
  | .unsyncGiveUp | .holdEnd | .planAdoption | .beaconDue | .planHoldExpiry => true
  | .lineFree | .backoffSlotEnd | .byteReceived _ _ | .intraFrameGap | .frameReceived _ => true
  | .entryStale _ | .entryLost _ | .noticeFormed _ => true
  | .noticeActivation sender serial | .noticeEnd sender serial => noticeNamed sender serial
  | .requestInputOn _ | .dwellEntry | .minDwellExpiry | .maxDwellExpiry | .serviceEnd => true
  | .lineAlertCountdownExpiry | .lineDwellExpiry | .inhibitExpiry | .modeTimerExpiry => true
  | .conflict a b => a < b
  | .mismatch _ _ | .selectFall | .selectRise => true
  | .status | .readGroups | .readNeighbors | .readPlatoons | .readPreemption | .exchangePending _ => true
  | .placeCall _ | .selectPlan _ | .manualFlashOn | .manualFlashOff | .restart | .reload => true
  | .blockRestartLine | .blockRestartNeighbors | .blockRestartDetectors => true
  | .unknownCommand code => !knownCodes.contains code.toNat
  | .lineBusy | .byteNotReceivedBack | .spiByteTransfer _ => true

end Sys2Proof
end

