-- ==== Sys2Proof/Certificates/Slice0/Obligations.lean ====
section
/-! DEFINITION. Certificates/Slice0/Obligations.lean: the statements for the provers, chapter by chapter. An event row of the
table is stated as log entry 4 gives it: the count or sample that brings the event's condition about. -/

section

open Sys2Proof Sys2Proof.Machine

/-! ## The machine -/

/-- One step takes the command at the front of the queue and runs it with the rest still waiting; on an empty queue the
controller idles (log entry 7). -/
def Obligations.StepRunsTheFrontCommand : Prop :=
  (∀ (c : Instr) (rest : List Instr) (s : State), step (s.withPending (c :: rest)) = exec c (s.withPending rest)) ∧
    ∀ s : State, s.pending = [] → step s = .next s

/-- The frame of every command, and that each completes: the next state differs only in the blocks the command's rules reach, and
the queue of waiting commands is never one of them. -/
def Obligations.EveryCommandKeepsToItsBlocks : Prop :=
  ∀ (c : Instr) (s : State), ∃ t, exec c s = .next t ∧ Only (Machine.Instr.reaches c) s t ∧ t.pending = s.pending

/-- R163, R18, R23, R64, R83, R97, R118, R129, R145, R161, R177, R182: what POWER_ON and RESET_PIN leave; the pins and the model's
counter of free values stand (log entry 5). The state after reset holds the same values, with no command waiting. -/
def Obligations.PowerOnAndResetPinValues : Prop :=
  (∀ (c : Instr) (s : State), c = .powerOn ∨ c = .resetPin →
     ∃ t, exec c s = .next t ∧ PowerOnValues t ∧ t.tb.divider = 0 ∧ t.tb.m = 0 ∧ t.mp.phase = .idle ∧ t.mp.shift = [] ∧
       t.mp.miso = 0 ∧ t.mp.ignoring = s.pins.selectLow ∧ t.pins = s.pins ∧ t.free = s.free ∧ t.pending = s.pending) ∧
  (PowerOnValues State.reset ∧ State.reset.tb.divider = 0 ∧ State.reset.tb.m = 0 ∧ State.reset.mp.phase = .idle ∧
     State.reset.pending = [])

/-- Every law of the manual that the statements below carry from step to step holds at reset. -/
def Obligations.ResetMeetsEveryLaw : Prop :=
  ModeLaw State.reset ∧ GateLaw State.reset ∧ IntergreenLaw State.reset ∧ ClockLaw State.reset ∧ BalanceLaw State.reset ∧
    QueueLaw State.reset ∧ LineLaw State.reset ∧ TableLaw State.reset ∧ AgeLaw State.reset ∧ PlatoonLaw State.reset ∧
    StackLaw State.reset ∧ RequestLaw State.reset ∧ FaultLaw State.reset ∧ StoppedLaw State.reset ∧ PhaseLaw State.reset ∧ PortLaw State.reset ∧
    CounterLaw State.reset

/-! ## Chapter 11: loading -/

/-- R178: the header is read and its three checks are made in order; a byte refused before the declared length has been read, in
either reading state, ends the load with cause OVERRUN. -/
def Obligations.LoaderJudgesTheHeaderAndMissingBytes : Prop :=
  (∀ (h : Vector Byte 18) (s : State), s.os.mode = .loading → s.cf.load = .readingHeader →
     ∃ t, exec (.headerRead h) s = .next t ∧ t.cf.position = 18 ∧ t.cf.overrun = s.cf.overrun ∧
       (if h[0] ≠ 0xA6 ∨ h[1] ≠ 0x4F then LoadRejected .mark 0 s t
        else if h[2] ≠ 0x01 then LoadRejected .format 0 s t
        else if 8 < h[16].toNat ∨ 256 * h[3].toNat + h[4].toNat ≠ 885 + 9 * h[16].toNat then LoadRejected .length 0 s t
        else Only [.cf] s t ∧ t.cf.load = .readingBody ∧ t.cf.buffer = h.toList ∧ t.cf.image = s.cf.image ∧
          t.cf.valid = s.cf.valid ∧ t.cf.cause = s.cf.cause ∧ t.cf.clamped = s.cf.clamped)) ∧
  (∀ (delivered : List Byte) (s : State), s.os.mode = .loading → s.cf.load ≠ .ended →
     s.cf.position + delivered.length <
       (if s.cf.load = .readingHeader then 18 else 256 * num s.cf.buffer 3 + num s.cf.buffer 4) →
     ∃ t, exec (.memoryNoAcknowledge delivered) s = .next t ∧ LoadRejected .overrun 0 s t ∧ t.cf.overrun = true ∧
       t.cf.position = s.cf.position + delivered.length)

/-- R179, R181: a body whose check sequence disagrees, or whose clamped image fails a structural check, ends the load without an
image. -/
def Obligations.LoadEndRejectsABadImage : Prop :=
  ∀ (body : List Byte) (s : State), s.os.mode = .loading → s.cf.load = .readingBody →
    s.cf.position + body.length = 256 * num s.cf.buffer 3 + num s.cf.buffer 4 →
    let bs := s.cf.buffer ++ body
    let m := clampImage (readImage bs)
    (crcBytes (bs.take (bs.length - 2)) ≠ bs.drop (bs.length - 2) →
        ∃ t, exec (.loadEnd body) s = .next t ∧ LoadRejected .crc 0 s t) ∧
      (crcBytes (bs.take (bs.length - 2)) = bs.drop (bs.length - 2) → structuralCause m ≠ .none →
        ∃ t, exec (.loadEnd body) s = .next t ∧ LoadRejected (structuralCause m) (clampedCount (readImage bs) m) s t)

/-- R181: a valid image is taken into use and START FLASH is entered: the loader, the Output Supervisor, the groups, the Stage
Sequencer and the detectors (R16, R46, R63, R165), and the starting values of the Cycle Clock, the Line Unit, the Neighbor Table,
the Platoon Unit and the Preemption Unit (R83, R118, R120, R134, R145, R161). -/
def Obligations.LoadEndTakesAValidImage : Prop :=
  (∀ (body : List Byte) (s : State), s.os.mode = .loading → s.cf.load = .readingBody →
     s.cf.position + body.length = 256 * num s.cf.buffer 3 + num s.cf.buffer 4 →
     let bs := s.cf.buffer ++ body
     let m := clampImage (readImage bs)
     crcBytes (bs.take (bs.length - 2)) = bs.drop (bs.length - 2) → structuralCause m = .none →
     ∃ t, exec (.loadEnd body) s = .next t ∧ Only [.os, .cf, .ge, .sq, .du, .ck, .lu, .nt, .pl, .pe] s t ∧
       t.cf.image = some m ∧ t.cf.valid = true ∧ t.cf.load = .ended ∧ t.cf.cause = .none ∧
       t.cf.clamped = clampedCount (readImage bs) m ∧ t.cf.overrun = s.cf.overrun ∧
       t.os.mode = .startFlash ∧ t.os.timer = 10 * m.startFlash ∧ SourcesFrom m .flash t.os ∧ CountsZero t.os ∧
       t.os.fault = s.os.fault ∧ t.os.additional = s.os.additional ∧ ForcedToFlash m s t ∧
       SequencerStopped t.sq ∧ t.sq.lastCause = s.sq.lastCause ∧ t.sq.calls = s.sq.calls ∧ DetectorsReset t) ∧
  (∀ (body : List Byte) (s : State), s.os.mode = .loading → s.cf.load = .readingBody →
     s.cf.position + body.length = 256 * num s.cf.buffer 3 + num s.cf.buffer 4 →
     let bs := s.cf.buffer ++ body
     let m := clampImage (readImage bs)
     let plan1 := m.plans[(0 : Plan)]
     crcBytes (bs.take (bs.length - 2)) = bs.drop (bs.length - 2) → structuralCause m = .none →
     ∃ t, exec (.loadEnd body) s = .next t ∧
       t.ck.active = some 0 ∧ t.ck.pendingPlan = some 0 ∧ t.ck.c = 100 * plan1.cycle ∧
       (plan1.cycle = 0 → t.ck.o = 0 ∧ t.ck.p = 0 ∧ t.ck.unsync = false) ∧
       (plan1.cycle ≠ 0 → t.ck.o = 10 * plan1.offset ∧ t.ck.p = t.ck.o ∧ t.ck.unsync = true) ∧
       t.ck.hold = 0 ∧ t.ck.b = 0 ∧ t.ck.unsyncCount = 0 ∧ t.ck.planHold = 0 ∧ t.ck.beaconCount = 0 ∧ RecordCleared t.ck.record ∧
       t.lu.access = .idle ∧ LineQuiet t.lu ∧ t.lu.sequence = BitVec.ofNat 16 m.address ∧ t.lu.counters = s.lu.counters ∧
       t.lu.clash = s.lu.clash ∧
       (∀ p : Place, t.nt.places[p] = ((usableRecords m.address [] m.neighbors)[p.val]?).map (pinnedEntry m)) ∧
       (∀ p : Place, t.nt.passOver[p] = false) ∧
       t.nt.refused = s.nt.refused ∧ QueueEmptied t.pl ∧ t.pl.withheld = s.pl.withheld ∧ t.pl.unlinked = s.pl.unlinked ∧
       t.pl.stale = s.pl.stale ∧ t.pl.overflow = s.pl.overflow ∧
       (∀ p : Place, (t.pl.links[p] = none ∨
           t.pl.links[p] = some { green := false, greenTimer := 0, exitCount := 0, sent := false, serial := 0 }) ∧
         ((t.pl.links[p]).isSome = true ↔
           ∃ e l, t.nt.places[p] = some e ∧ e.link = some l ∧ l.exitDetector.isSome = true)) ∧
       PreemptionCleared t.pe ∧ t.pe.alertSerial = 0 ∧ t.pe.withheld = s.pe.withheld ∧ t.pe.ignored = s.pe.ignored)

/-- R180: clamping brings every timing field of the image into its range, each one outside it to the nearer limit, counts the
fields it changes, at most 255 of them, and leaves every other field as it stands. An image whose timing fields are in range is
neither changed nor counted. -/
def Obligations.ClampingPutsTimingInRange : Prop :=
  ∀ m : Image, TimingInRange (clampImage m) ∧
    timings (clampImage m) = (timings m).map TimingField.toNearerLimit ∧
    clampedCount m (clampImage m) = min ((timings m).countP TimingField.outside) 255 ∧ SameStructure m (clampImage m) ∧
    (TimingInRange m → clampImage m = m ∧ clampedCount m (clampImage m) = 0)

/-- R179, Table 11.2: the load cause is that of the first structural check that fails, and NONE exactly when none fails. -/
def Obligations.FirstFailingCheckGivesTheCause : Prop :=
  ∀ m : Image,
    (structuralCause m = .none ↔ AddressOk m ∧ SymmetryOk m ∧ IntergreenOk m ∧ NoStageConflict m ∧ StageGroupsOk m ∧
      SomeStageEnabled m ∧ StageReferencesOk m ∧ CycleLengthsOk m ∧ CyclePointsOk m) ∧
    (structuralCause m = .address ↔ ¬AddressOk m) ∧
    (structuralCause m = .asymmetry ↔ AddressOk m ∧ ¬SymmetryOk m) ∧
    (structuralCause m = .intergreen ↔ AddressOk m ∧ SymmetryOk m ∧ ¬IntergreenOk m) ∧
    (structuralCause m = .stageConflict ↔ AddressOk m ∧ SymmetryOk m ∧ IntergreenOk m ∧ ¬NoStageConflict m) ∧
    (structuralCause m = .stageGroup ↔
      AddressOk m ∧ SymmetryOk m ∧ IntergreenOk m ∧ NoStageConflict m ∧ ¬StageGroupsOk m) ∧
    (structuralCause m = .noStage ↔
      AddressOk m ∧ SymmetryOk m ∧ IntergreenOk m ∧ NoStageConflict m ∧ StageGroupsOk m ∧ ¬SomeStageEnabled m) ∧
    (structuralCause m = .stageReference ↔ AddressOk m ∧ SymmetryOk m ∧ IntergreenOk m ∧ NoStageConflict m ∧
      StageGroupsOk m ∧ SomeStageEnabled m ∧ ¬StageReferencesOk m) ∧
    (structuralCause m = .cycleLength ↔ AddressOk m ∧ SymmetryOk m ∧ IntergreenOk m ∧ NoStageConflict m ∧ StageGroupsOk m ∧
      SomeStageEnabled m ∧ StageReferencesOk m ∧ ¬CycleLengthsOk m) ∧
    (structuralCause m = .cyclePoint ↔ AddressOk m ∧ SymmetryOk m ∧ IntergreenOk m ∧ NoStageConflict m ∧ StageGroupsOk m ∧
      SomeStageEnabled m ∧ StageReferencesOk m ∧ CycleLengthsOk m ∧ ¬CyclePointsOk m)

/-- R181, the law of the image: outside a load, the image in use changes only at POWER_ON, RESET_PIN and an accepted RELOAD,
delivered by its own command or at the TICK that finds it PENDING; it is then given up and LOADING begins. -/
def Obligations.ImageChangesOnlyByResetOrReload : Prop :=
  ∀ (c : Instr) (s t : State), exec c s = .next t → s.os.mode ≠ .loading → t.cf.image ≠ s.cf.image →
    (c = .powerOn ∨ c = .resetPin ∨ c = .reload ∨
        ((∃ d r x, c = .tick d r x) ∧ pendingCommand s.mp = some .reload)) ∧
      t.cf.image = none ∧ t.os.mode = .loading

/-! ## Chapter 4, section 4.1: TICK -/

/-- R66: TB at every command. A TICK advances M by one, from 999 to 0, and samples the inputs; power-on and the RESET pin set the
divider and M to 0; no other command touches TB. The marks are told by M, every second mark is a tenth mark and every discipline
mark a second mark, and the first tenth mark after a reset is the tenth tick. That a TICK leaves the divider at 0 and brings the input levels as
its operands is the model's choice (log entries 12 and 8). -/
def Obligations.TimeBaseCountsTheTicks : Prop :=
  (∀ (d : BitVec 24) (r : BitVec 3) (x : BitVec 48) (s : State), ∃ t, exec (.tick d r x) s = .next t ∧
    t.tb = { divider := 0, m := (s.tb.m + 1) % 1000 } ∧
    t.pins = { detectors := d, requests := r, sense := x, selectLow := s.pins.selectLow }) ∧
  (∀ (c : Instr) (s t : State), exec c s = .next t →
    if c = .powerOn ∨ c = .resetPin then t.tb = { divider := 0, m := 0 }
    else t.tb = s.tb ∨ ∃ d r x, c = .tick d r x) ∧
  (∀ s : State, s.tb.m < 1000 →
    (tenthMark s = true ↔ ∃ k, s.tb.m = 10 * k) ∧ (secondMark s = true ↔ ∃ k, s.tb.m = 100 * k) ∧
    (disciplineMark s = true ↔ s.tb.m = 0) ∧ (disciplineMark s = true → secondMark s = true) ∧
    (secondMark s = true → tenthMark s = true)) ∧
  ∀ n : Nat, 1 ≤ n → n ≤ 10 → (tenthMark (Nat.iterate advanceMark n State.reset) = true ↔ n = 10)

/-- R24, R70 and log entry 1: a tick takes each work of the timed blocks once, in an order the manual leaves open but for the
Cycle Clock's work, which stands before the Stage Sequencer's evaluation. The Stage Sequencer's work is its evaluation, in RUN and
FLASH ENTRY alone. The Output Supervisor's is the monitor's evaluation and the count of the mode timer, in either order (log entry
50); a timer loaded at this tick is not counted at it (R164). -/
def Obligations.TickTakesEveryWorkOnce : Prop :=
  (∀ n : Nat, (workOrder n).Perm [.mp, .groups, .sequencer, .detectors, .clock, .neighbors, .platoonCountdown, .greenTimers,
      .preemption, .supervisor] ∧
    standsBefore .clock .sequencer (workOrder n) = true) ∧
  (∀ (d : BitVec 24) (r : BitVec 3) (x : BitVec 48) (s : State),
    exec (.tick d r x) s = .next (nextFree ((workOrder s.free).foldl (doWork s.os.mode) (beginTick d r x s)))) ∧
  ∀ (began : Mode) (s : State),
    doWork began s .sequencer = (if s.os.mode = .run ∨ s.os.mode = .flashEntry then sqEvaluation s else s) ∧
    (doWork began s .supervisor = modeTimerWork began (monitorWork s) ∨
      doWork began s .supervisor = monitorWork (modeTimerWork began s)) ∧
    (s.os.mode ≠ began ∨ tenthMark s = false ∨ (s.os.mode ≠ .startFlash ∧ s.os.mode ≠ .startRed) → modeTimerWork began s = s) ∧
    (s.os.mode = began → tenthMark s = true → s.os.mode = .startFlash ∨ s.os.mode = .startRed → 1 < s.os.timer →
      modeTimerWork began s = s.withOs { s.os with timer := s.os.timer - 1 })

/-- R124: at a TICK with no command pending in MP, every entry in HEARD or STALE grows older by one; it turns STALE at three of
its beacon periods and is lost at ten, a pinned entry to ABSENT and an unpinned one for good; an ABSENT entry is not aged. R125: an
entry whose BEACON counts as taken at this tick, before the ageing, is passed over, once (log entry 49).
ENTRY_STALE and ENTRY_LOST stand for the ageing of one entry that brings it to its limit (log entry 4). -/
def Obligations.EntriesAgeAndAreLost : Prop :=
  (∀ (d : BitVec 24) (r : BitVec 3) (x : BitVec 48) (s : State), TableLaw s → pendingCommand s.mp = none →
     ∃ t, exec (.tick d r x) s = .next t ∧ t.nt.refused = s.nt.refused ∧ ∀ p : Place,
       t.nt.passOver[p] = false ∧ (s.nt.places[p] = none → t.nt.places[p] = none) ∧
       ∀ e, s.nt.places[p] = some e →
         (e.state = .absent ∨ s.nt.passOver[p] = true → t.nt.places[p] = some e) ∧
         ∀ b, e.last = some b → s.nt.passOver[p] = false →
           (min (e.age + 1) 65535 < 1000 * b.period → t.nt.places[p] = some { e with
             age := min (e.age + 1) 65535, state := if min (e.age + 1) 65535 < 300 * b.period then e.state else .stale }) ∧
           (1000 * b.period ≤ min (e.age + 1) 65535 → t.nt.places[p] =
             if e.pinned then some { e with state := .absent, last := none, age := 65535 } else none)) ∧
  ∀ (p : Place) (s : State) (e : Entry) (b : LastBeacon), s.nt.places[p] = some e → e.last = some b →
    let age := min (e.age + 1) 65535
    (e.state = .heard → 300 * b.period ≤ age → age < 1000 * b.period →
      exec (.entryStale p) s = .next (s.withNt { s.nt with
        places := put s.nt.places p (some { e with age := age, state := .stale }) })) ∧
    (e.state ≠ .absent → 1000 * b.period ≤ age →
      let lost := if e.pinned = true then some { e with state := .absent, last := none, age := 65535 } else none
      exec (.entryLost p) s = .next (s.withNt { s.nt with places := put s.nt.places p lost }))

/-- R50, R51, R52, R57, R59: at a TICK with no command pending in MP, every detector takes its sample through the persistence
filter; on an edge its timers and state follow, and otherwise its supervision counts: the presence timer of an OCCUPIED detector
at tenth marks alone, to FAILED-ON, and the no-activity timer of an IDLE detector at second marks alone, to FAILED-QUIET. That an
off-edge at a
second mark leaves the no-activity timer uncounted is the model's reading (log entry 43). -/
def Obligations.TickFiltersAndSupervisesEveryDetector : Prop :=
  (∀ (det : BitVec 24) (r : BitVec 3) (x : BitVec 48) (s : State) (img : Image), s.cf.image = some img →
     pendingCommand s.mp = none →
     ∃ t, exec (.tick det r x) s = .next t ∧ ∀ d : Detector,
       let rec_ := img.detectors[d]
       let old := s.du[d]
       let on := det.getLsbD d.val == rec_.activeHigh
       let limit := 10 * (if old.filtered then rec_.offFilter else rec_.onFilter)
       (on = old.filtered → t.du[d] = supervise rec_ (beginTick det r x s) { old with count := 0 }) ∧
       (on ≠ old.filtered → old.count + 1 ≤ limit →
         t.du[d] = supervise rec_ (beginTick det r x s) { old with count := old.count + 1 }) ∧
       (on = true → old.filtered = false → limit < old.count + 1 →
         t.du[d] = { filtered := true, count := 0, state := .occupied, presence := 0, noActivity := 0, pending := true }) ∧
       (on = false → old.filtered = true → limit < old.count + 1 →
         t.du[d] = { old with filtered := false, count := 0, state := .idle })) ∧
  (∀ (r : DetectorRecord) (s : State) (x : Det),
     let y := supervise r s x
     y.filtered = x.filtered ∧ y.count = x.count ∧ y.pending = x.pending ∧
     (x.state = .occupied → 0 < r.maxPresence → tenthMark s = true →
       y.presence = min (x.presence + 1) 2550 ∧ y.noActivity = x.noActivity ∧
       y.state = if 10 * r.maxPresence ≤ min (x.presence + 1) 2550 then .failedOn else .occupied) ∧
     (x.state = .idle → 0 < r.noActivity → secondMark s = true →
       y.noActivity = min (x.noActivity + 1) 14400 ∧ y.presence = x.presence ∧
       y.state = if 60 * r.noActivity ≤ min (x.noActivity + 1) 14400 then .failedQuiet else .idle) ∧
     (x.state = .failedOn ∨ x.state = .failedQuiet ∨ (x.state = .occupied ∧ (r.maxPresence = 0 ∨ tenthMark s = false)) ∨
       (x.state = .idle ∧ (r.noActivity = 0 ∨ secondMark s = false)) → y = x))

/-- R71, R72, R95: at a TICK that is no discipline mark, with no command pending in MP and no plan pending, the position of a
coordinated plan advances by 1, by 1 + s with a payout s above 0, and not at all with a payout below 0 or while the hold count
is above 0; B is reduced by the payout. -/
def Obligations.TickAdvancesTheCycle : Prop :=
  ∀ (d : BitVec 24) (r : BitVec 3) (x : BitVec 48) (s : State) (img : Image), s.cf.image = some img →
    pendingCommand s.mp = none → coordinatedActive s = true → s.ck.pendingPlan = s.ck.active → (s.tb.m + 1) % 1000 ≠ 0 →
    let pay : Int := if (s.tb.m + 1) % 100 = 0 then
      (if s.ck.b < 0 then -(min s.ck.b.natAbs img.slew : Nat) else (min s.ck.b.natAbs img.slew : Nat)) else 0
    ∃ t, exec (.tick d r x) s = .next t ∧ t.ck.b = s.ck.b - pay ∧
      (pay < 0 → t.ck.p = s.ck.p % s.ck.c ∧ (t.ck.hold : Int) = -pay - 1) ∧
      (0 ≤ pay → 0 < s.ck.hold → t.ck.p = s.ck.p % s.ck.c ∧ t.ck.hold = s.ck.hold - 1) ∧
      (0 ≤ pay → s.ck.hold = 0 → (t.ck.p : Int) = ((s.ck.p : Int) + 1 + pay) % s.ck.c ∧ t.ck.hold = 0) ∧
      t.ck.active = s.ck.active ∧ t.ck.c = s.ck.c ∧ t.ck.o = s.ck.o ∧ t.ck.record = s.ck.record ∧
      t.ck.unsync = s.ck.unsync ∧ t.ck.unsyncCount = s.ck.unsyncCount

/-! ## Chapter 1: groups -/

/-- PREP_END (R11): the group enters GREEN with its minimum green loaded, its call is cleared (R25), and in FLASH ENTRY it is given
an ordinary leave request unless it holds one (R15). MIN_GREEN_END (R12, R13): a held leave request of either kind is taken at
that same mark, and the group enters CLEARANCE with E at 0. CLEARANCE_END (R14, R9): the group enters RED; where it holds an entry
request in RUN and its gate's conditions hold, it goes on at that same mark into PREP, or into GREEN with a prep time of 0. An
entry request held where the mark begins in GREEN is judged in the state the mark leads to (log entry 40). The rows stand for the
count that brings the timer to 0 (log entry 4). -/
def Obligations.GroupIntervalsEnd : Prop :=
  (∀ (g : Group) (s : State) (img : Image), s.cf.image = some img → s.ge[g].phase = .prep → s.ge[g].timer ≤ 1 →
     ∃ t, exec (.prepEnd g) s = .next t ∧ Only [.ge, .sq] s t ∧
       t.ge[g] = { phase := .green, timer := img.groups[g].minGreen, minGreenDone := false, e := s.ge[g].e, entry := false,
                   leave := if s.os.mode = .flashEntry ∧ s.ge[g].leave = none then some .ordinary else s.ge[g].leave } ∧
       (∀ a : Group, a ≠ g → t.ge[a] = s.ge[a]) ∧ t.sq = { s.sq with calls := put s.sq.calls g false }) ∧
  (∀ (g : Group) (s : State) (img : Image), s.cf.image = some img → s.ge[g].phase = .green →
     s.ge[g].minGreenDone = false → s.ge[g].timer ≤ 1 →
     ∃ t, exec (.minGreenEnd g) s = .next t ∧ Only [.ge] s t ∧ (∀ a : Group, a ≠ g → t.ge[a] = s.ge[a]) ∧
       t.ge[g] = if s.ge[g].leave = none
         then { phase := .green, timer := 0, minGreenDone := true, e := s.ge[g].e, entry := false, leave := none }
         else { phase := .clearance, timer := img.groups[g].clearance, minGreenDone := false, e := 0, entry := s.ge[g].entry,
                leave := none }) ∧
  (∀ (g : Group) (s : State) (img : Image), s.cf.image = some img → s.ge[g].phase = .clearance → s.ge[g].timer ≤ 1 →
     ∃ t, exec (.clearanceEnd g) s = .next t ∧ Only [.ge, .sq] s t ∧ (∀ a : Group, a ≠ g → t.ge[a] = s.ge[a]) ∧
       (¬(s.os.mode = .run ∧ s.ge[g].entry = true ∧ GateConditions img s.ge g) →
         t.ge[g] = { s.ge[g] with phase := .red, timer := 0, leave := none } ∧ t.sq = s.sq) ∧
       (s.os.mode = .run → s.ge[g].entry = true → GateConditions img s.ge g → 0 < img.groups[g].prep →
         t.ge[g] = { phase := .prep, timer := img.groups[g].prep, minGreenDone := false, e := s.ge[g].e, entry := false,
                     leave := none } ∧ t.sq = s.sq) ∧
       (s.os.mode = .run → s.ge[g].entry = true → GateConditions img s.ge g → img.groups[g].prep = 0 →
         t.ge[g] = { phase := .green, timer := img.groups[g].minGreen, minGreenDone := false, e := s.ge[g].e, entry := false,
                     leave := none } ∧ t.sq = { s.sq with calls := put s.sq.calls g false }))

/-- R4 to R8, R11 to R14: the first pass of a tenth mark on one group, state by state. A group that takes its leave keeps an entry
request it holds, which is judged in the state the mark leads to (log entry 40). R4 (2), R9, R10: the second pass takes the groups
in ascending order, each seeing what the lower ones have become: in RUN a group in RED with an entry request goes on into PREP, or
into GREEN with a prep time of 0, exactly when the two conditions of its gate hold, and otherwise its request stays held. R25: GE's
work of a tick installs the update at a tenth mark alone, and clears the call of a group that enters GREEN. -/
def Obligations.FirstPassMovesEachGroupAlone : Prop :=
  (∀ (r : GroupRecord) (mode : Mode) (g : GroupState),
    let h := firstPass r mode g
    (g.phase = .off → h = { g with timer := g.timer - 1, e := 255, entry := false, leave := none }) ∧
    (g.phase = .flashing → h = { g with timer := g.timer - 1, e := min (g.e + 1) 255, entry := false, leave := none }) ∧
    (g.phase = .red → h = { g with timer := g.timer - 1, e := min (g.e + 1) 255, leave := none }) ∧
    (g.phase = .clearance → h = { g with
      phase := if g.timer ≤ 1 then .red else .clearance, timer := g.timer - 1, e := min (g.e + 1) 255, leave := none }) ∧
    (g.phase = .prep → 1 < g.timer → h = { g with timer := g.timer - 1, e := min (g.e + 1) 255, entry := false }) ∧
    (g.phase = .prep → g.timer ≤ 1 → h.phase = .green ∧ h.timer = r.minGreen ∧ h.minGreenDone = false ∧ h.entry = false ∧
      h.e = min (g.e + 1) 255 ∧ (mode ≠ .flashEntry → h.leave = g.leave)) ∧
    (g.phase = .green →
      (g.leave = none → h = { g with
        timer := g.timer - 1, minGreenDone := g.minGreenDone || decide (g.timer ≤ 1), e := min (g.e + 1) 255, entry := false }) ∧
      (g.leave = some .ordinary → g.minGreenDone = false → 1 < g.timer → h = { g with
        timer := g.timer - 1, e := min (g.e + 1) 255, entry := false }) ∧
      (g.leave = some .truncating ∨ g.leave = some .ordinary ∧ (g.minGreenDone = true ∨ g.timer ≤ 1) → h = { g with
        phase := .clearance, timer := r.clearance, minGreenDone := false, e := 0, leave := none }))) ∧
  (∀ (img : Image) (mode : Mode) (ge : Vector GroupState 16) (g : Group),
    let first := fun a : Group => firstPass img.groups[a] mode ge[a]
    let t := groupUpdate img mode ge
    let seen := tab 16 fun a : Group => if a < g then t[a] else first a
    let opens := mode = .run ∧ (first g).phase = .red ∧ (first g).entry = true ∧ GateConditions img seen g
    (¬opens → t[g] = first g) ∧
      (opens → 0 < img.groups[g].prep → t[g] = { first g with
        phase := .prep, timer := img.groups[g].prep, entry := false, minGreenDone := false }) ∧
      (opens → img.groups[g].prep = 0 → t[g] = { first g with
        phase := .green, timer := img.groups[g].minGreen, entry := false, minGreenDone := false })) ∧
  ∀ (s : State) (img : Image), s.cf.image = some img →
    let t := geWork s
    (tenthMark s = false → t = s) ∧
      (tenthMark s = true → Only [.ge, .sq] s t ∧ t.ge = groupUpdate img s.os.mode s.ge ∧
        t.sq = { s.sq with calls := t.sq.calls } ∧ ∀ g : Group, t.sq.calls[g] = true ↔
          s.sq.calls[g] = true ∧ ¬(t.ge[g].phase = .green ∧ s.ge[g].phase ≠ .green))

/-- R10, the law of the gate: no two conflicting groups hold right-of-way together. Every step keeps it, with the law of the
station mode. -/
def Obligations.NoConflictingRightOfWay : Prop := Kept fun s => ModeLaw s ∧ GateLaw s

/-- R9, R11, the law of the intergreen: while a group runs its PREP, every intergreen toward it will have elapsed by the end of that
PREP, which every step keeps, with the laws of the gate and of the station mode; and at a tenth mark at which a group enters GREEN,
the E of every group that conflicts with it stands at its intergreen or above. -/
def Obligations.IntergreensElapseBeforeGreen : Prop :=
  (Kept fun s => ModeLaw s ∧ GateLaw s ∧ IntergreenLaw s) ∧
  (∀ (s : State) (img : Image) (g : Group), s.cf.image = some img → GateLaw s → IntergreenLaw s →
     let ge := groupUpdate img s.os.mode s.ge
     s.ge[g].phase ≠ .green → ge[g].phase = .green →
     ∀ (a : Group) (i : Nat), img.inter a g = some i → i ≤ ge[a].e)

/-- R19, Table 1.4: the commanded lamp of a group by its state and kind. R166: the phase of the flash generator. R167: the outputs
of a channel by its lamp source, in every mode; the source NO-PLAN RED FLASH needs no image. -/
def Obligations.LampsFollowStateSourceAndPhase : Prop :=
  (∀ (r : GroupRecord) (l : Lamp),
     groupLamp r .off l = .off ∧
     groupLamp r .red l = (if l = .red then .steady else .off) ∧
     (r.kind = .vehicle → groupLamp r .prep l = (if l = .green then .off else .steady)) ∧
     groupLamp r .green l = (if l = .green then .steady else .off) ∧
     (r.kind = .vehicle → groupLamp r .clearance l = (if l = .amber then .steady else .off)) ∧
     (r.kind = .pedestrian → groupLamp r .clearance l = (if l = .red then .flashing r.phase else .off)) ∧
     groupLamp r .flashing l = (match r.flash with
       | .flashAmber => if l = .amber then .flashing r.phase else .off
       | .flashRed => if l = .red then .flashing r.phase else .off
       | .dark => .off)) ∧
  ∀ (s : State) (ch : Group) (l : Lamp),
    (flashPhase s = .a ↔ s.tb.m % 100 < 50) ∧
    (s.os.source[ch] = .noPlanRedFlash → lampCommand s ch l = if l = .red then .flashing .a else .off) ∧
    (s.os.source[ch] = .dark → lampCommand s ch l = .off) ∧
    (∀ img, s.cf.image = some img →
      (s.os.source[ch] = .sequencer → lampCommand s ch l = groupLamp img.groups[ch] s.ge[ch].phase l) ∧
      (s.os.source[ch] = .flash → lampCommand s ch l = groupLamp img.groups[ch] .flashing l)) ∧
    (lampOutput s ch l = true ↔ lampCommand s ch l = .steady ∨ lampCommand s ch l = .flashing (flashPhase s))

/-! ## Chapter 2: the Stage Sequencer -/

/-- R30 to R33: the termination latch. An absent latch, or one holding GAP, takes FORCE or MAX, FORCE before MAX; an absent one takes
GAP where neither holds; any other latch keeps its cause. FORCE is taken in a free plan too, for a flag set before its adoption
(log entry 17), and a max timer found running for the coordinated stage is set to 0 (log entry 15). A change that starts withdraws
the leave request of a group of its target, in PREP too (log entry 51). R36, R26, R27: the seven stages that follow the current one are examined in cyclic order, and the first that passes
is chosen. At an evaluation of a COMPLETE stage with nothing to take from PE or OS: R28, the passage timer; R29, the max timer
starts at 0 where another stage has demand, counts by one at a tenth mark, up to 1800, while no change starts, and never runs for the
coordinated stage; R33, a force-off point crossed sets the flag,
and FORCE ends the stage once its minimum greens have run; R31, a GAP is withdrawn by a reload above 0. -/
def Obligations.TerminationCauseAndNextStage : Prop :=
  (∀ (s : State) (st : Stage),
     let done := ∀ g : Group, inStage s st g = true → s.ge[g].minGreenDone = true
     let force := s.sq.forceOff = true ∧ coordinatedStage s ≠ some st ∧ done
     let max := s.sq.maxRunning = true ∧ maxGreenTime s st ≤ s.sq.maxTimer
     let gap := coordinatedStage s ≠ some st ∧ s.sq.passage = 0 ∧ done
     (s.sq.latch ≠ none → s.sq.latch ≠ some .gap → nextLatch s st = s.sq.latch) ∧
     (s.sq.latch = none ∨ s.sq.latch = some .gap → force → nextLatch s st = some .force) ∧
     (s.sq.latch = none ∨ s.sq.latch = some .gap → ¬force → max → nextLatch s st = some .max) ∧
     (s.sq.latch = none → ¬force → ¬max → gap → nextLatch s st = some .gap) ∧
     (s.sq.latch = none → ¬force → ¬max → ¬gap → nextLatch s st = none) ∧
     (s.sq.latch = some .gap → ¬force → ¬max → nextLatch s st = some .gap)) ∧
  (∀ (s : State) (st : Stage) (img : Image), s.sq.current = some st → s.cf.image = some img →
     (∀ u : Stage, candidatePasses s u = true ↔ img.stages[u].enabled = true ∧ StageHasDemand img s u ∧
       (coordinatedActive s = false ∨ coordinatedStage s = some u ∨ s.ck.report.permissive[u] = true)) ∧
     (∀ u : Stage, coordinatedStage s = some u ↔ ∃ r, activePlan s = some r ∧ r.cycle ≠ 0 ∧ r.coordinated = some u) ∧
     (selectNext s = none ↔ ∀ u : Stage, u ≠ st → candidatePasses s u = false) ∧
     ∀ u : Stage, selectNext s = some u ↔ u ≠ st ∧ candidatePasses s u = true ∧
       ∀ v : Stage, v ≠ st → (v - st).val < (u - st).val → candidatePasses s v = false) ∧
  ∀ (s : State) (st : Stage) (img : Image), s.cf.image = some img → Settled s st →
    let t := sqEvaluation s
    let stays := t.ge = s.ge ∧ t.sq.phase = .complete ∧ t.sq.target = none
    let crossed := s.ck.report.crossed[st] = true
    Only [.ge, .sq, .pl] s t ∧ GreensReread s t ∧ t.sq.current = some st ∧ t.sq.calls = s.sq.calls ∧
      (tenthMark s = true → s.sq.passageRunning = true →
        (Extended img s st → t.sq.passage = img.stages[st].passage) ∧
        (¬Extended img s st → t.sq.passage = s.sq.passage - 1)) ∧
      (coordinatedStage s = some st → t.sq.maxRunning = false ∧ t.sq.maxTimer = 0) ∧
      (s.sq.maxRunning = false → (∀ v : Stage, v ≠ st → ¬StageHasDemand img s v) → t.sq.maxRunning = false) ∧
      (coordinatedStage s ≠ some st → s.sq.maxRunning = true →
        (selectNext s = none → t.sq.target = none) ∧
        (t.sq.target = none → t.sq.maxRunning = true ∧
          t.sq.maxTimer = if tenthMark s = true then min (s.sq.maxTimer + 1) 1800 else s.sq.maxTimer)) ∧
      (coordinatedStage s ≠ some st → s.sq.maxRunning = false → (∃ v : Stage, v ≠ st ∧ StageHasDemand img s v) →
        s.sq.latch = none → s.sq.forceOff = false → ¬crossed → MaxGreenAhead s st → 1 < s.sq.passage →
        ¬Extended img s st ∨ 0 < img.stages[st].passage →
        stays ∧ t.sq.latch = none ∧ t.sq.maxRunning = true ∧ t.sq.maxTimer = 0) ∧
      (coordinatedStage s ≠ some st → crossed ∨ s.sq.forceOff = true → s.sq.latch = none ∨ s.sq.latch = some .gap →
        MinGreensRun s st →
        (selectNext s = none → stays ∧ t.sq.latch = some .force ∧ t.sq.forceOff = true) ∧
        ∀ u, selectNext s = some u → ChangeStarted .force false u s t) ∧
      (coordinatedStage s ≠ some st → crossed ∨ s.sq.forceOff = true → s.sq.latch = none → ¬MinGreensRun s st →
        MaxGreenAhead s st → stays ∧ t.sq.latch = none ∧ t.sq.forceOff = true) ∧
      (coordinatedStage s ≠ some st → tenthMark s = true → s.sq.passageRunning = true → Extended img s st →
        0 < img.stages[st].passage → s.sq.latch = some .gap → s.sq.forceOff = false → ¬crossed → MaxGreenAhead s st →
        stays ∧ t.sq.latch = none)

/-- PASSAGE_TIMER_EXPIRY (R28, R31, R36, R37): at passage 0 with no extension input active and the max green not reached, the latch
takes GAP, the stage rests in green where no stage passes, and the change starts where one does; a PE command, a halt request or
the coordinated stage lets the timer run out without a latch; a latch already set keeps its cause, and the stage ends with it
where selection chooses (in the coordinated stage too, log entry 13). A change that starts withdraws the leave request of a group of
its target, in PREP too (log entry 51). MAX_TIMER_EXPIRY (R32, R30): at the max green the latch takes MAX, or
FORCE where that condition stands too, in a free plan as well (log entry 17). HOLD_EXTENSION_EXPIRY (R35): at ten times the hold
cap YIELD is taken where selection chooses a stage, whether a platoon hold applies or not, and the extension ends either way. The
rows stand for the count that brings each timer there (log entry 4). R34, R35, at an evaluation of the COMPLETE coordinated stage:
YIELD is taken in an open window or a running extension where no platoon hold applies and selection chooses a stage; a platoon hold
postpones it while the window is open; the first evaluation after the window with a platoon hold starts the extension at 0; a
running one counts by one at a tenth mark; and at ten times the hold cap YIELD is taken where selection chooses a stage, and the
extension ends either way. -/
def Obligations.StageTimersExpire : Prop :=
  (∀ (s : State) (st : Stage) (img : Image), s.cf.image = some img → s.os.mode = .run ∨ s.os.mode = .flashEntry →
     s.sq.current = some st → s.sq.phase = .complete → s.sq.passageRunning = true → s.sq.passage ≤ 1 → ¬Extended img s st →
     s.sq.forceOff = false → (s.sq.maxRunning = true → s.sq.maxTimer < 10 * img.stages[st].maxGreen) →
     ∃ t, exec .passageTimerExpiry s = .next t ∧ Only [.ge, .sq, .pl] s t ∧ GreensReread s t ∧ t.sq.current = some st ∧
       (∀ cause, s.sq.latch = some cause →
         (s.sq.command ≠ none ∨ s.sq.haltRequest = true ∨ selectNext s = none →
           t.ge = s.ge ∧ t.sq = { s.sq with passage := 0 }) ∧
         ∀ u, s.sq.command = none → s.sq.haltRequest = false → selectNext s = some u →
           ChangeStarted cause false u s t ∧ t.sq.passage = 0) ∧
       (s.sq.latch = none → s.sq.command ≠ none ∨ s.sq.haltRequest = true ∨ coordinatedStage s = some st ∨ ¬MinGreensRun s st →
         t.ge = s.ge ∧ t.sq = { s.sq with passage := 0 }) ∧
       (s.sq.latch = none → s.sq.command = none → s.sq.haltRequest = false → coordinatedStage s ≠ some st → MinGreensRun s st →
         (selectNext s = none → t.ge = s.ge ∧ t.sq = { s.sq with passage := 0, latch := some .gap }) ∧
         ∀ u, selectNext s = some u → ChangeStarted .gap false u s t ∧ t.sq.passage = 0)) ∧
  (∀ (s : State) (st : Stage), s.os.mode = .run ∨ s.os.mode = .flashEntry → s.sq.current = some st → s.sq.phase = .complete →
     s.sq.command = none → s.sq.haltRequest = false → s.sq.maxRunning = true →
     maxGreenTime s st ≤ min (s.sq.maxTimer + 1) 1800 → coordinatedStage s ≠ some st →
     s.sq.latch = none ∨ s.sq.latch = some .gap →
     ∀ cause : TermCause, (s.sq.forceOff = true ∧ MinGreensRun s st → cause = .force) →
     (¬(s.sq.forceOff = true ∧ MinGreensRun s st) → cause = .max) →
     ∃ t, exec .maxTimerExpiry s = .next t ∧ Only [.ge, .sq, .pl] s t ∧ GreensReread s t ∧ t.sq.current = some st ∧
       (selectNext s = none →
         t.ge = s.ge ∧ t.sq = { s.sq with maxTimer := min (s.sq.maxTimer + 1) 1800, latch := some cause }) ∧
       ∀ u, selectNext s = some u → ChangeStarted cause false u s t ∧ t.sq.passage = s.sq.passage) ∧
  (∀ (s : State) (r : PlanRecord), s.os.mode = .run ∨ s.os.mode = .flashEntry → activePlan s = some r →
     s.sq.holdRunning = true → 10 * r.holdCap ≤ s.sq.hold + 1 →
     let atCoord := s.sq.phase = .complete ∧ s.sq.command = none ∧ s.sq.haltRequest = false ∧
       ∃ st, s.sq.current = some st ∧ coordinatedStage s = some st
     ∃ t, exec .holdExtensionExpiry s = .next t ∧ Only [.ge, .sq, .pl] s t ∧ GreensReread s t ∧ t.sq.hold = 0 ∧
       t.sq.holdRunning = false ∧ t.sq.current = s.sq.current ∧
       (∀ u, atCoord → s.sq.latch = none → selectNext s = some u →
         ChangeStarted .yield false u s t ∧ t.sq.passage = s.sq.passage) ∧
       (¬atCoord ∨ s.sq.latch ≠ none ∨ selectNext s = none →
         t.ge = s.ge ∧ t.sq = { s.sq with hold := 0, holdRunning := false })) ∧
  ∀ (s : State) (st : Stage), Settled s st → coordinatedStage s = some st → s.sq.latch = none →
    let t := sqEvaluation s
    let stays := t.ge = s.ge ∧ t.sq.phase = .complete ∧ t.sq.target = none ∧ t.sq.latch = none
    GreensReread s t ∧ t.sq.yieldWasOpen = s.ck.report.yieldOpen ∧
      (s.ck.report.yieldOpen = true ∨ s.sq.holdRunning = true → ¬PlatoonHolds s →
        (selectNext s = none → stays) ∧ ∀ u, selectNext s = some u → ChangeStarted .yield false u s t) ∧
      (s.ck.report.yieldOpen = true → s.sq.holdRunning = false → PlatoonHolds s → stays ∧ t.sq.holdRunning = false) ∧
      (s.ck.report.yieldOpen = false → s.sq.holdRunning = false → s.sq.yieldWasOpen = false ∨ ¬PlatoonHolds s →
        stays ∧ t.sq.holdRunning = false) ∧
      (∀ r, activePlan s = some r → s.sq.yieldWasOpen = true → s.ck.report.yieldOpen = false → PlatoonHolds s →
        (r.holdCap = 0 → s.sq.holdRunning = false → stays ∧ t.sq.holdRunning = false) ∧
        (0 < r.holdCap → stays ∧ t.sq.holdRunning = true ∧ t.sq.hold = 0)) ∧
      ∀ r, activePlan s = some r → s.sq.holdRunning = true →
        s.sq.yieldWasOpen = false ∨ s.ck.report.yieldOpen = true ∨ ¬PlatoonHolds s →
        let hold := if tenthMark s = true then min (s.sq.hold + 1) 300 else s.sq.hold
        let last := tenthMark s = true ∧ 10 * r.holdCap ≤ hold
        (¬PlatoonHolds s ∨ last → ∀ u, selectNext s = some u → ChangeStarted .yield false u s t) ∧
        ((PlatoonHolds s ∧ ¬last) ∨ selectNext s = none →
          stays ∧ (last → t.sq.hold = 0 ∧ t.sq.holdRunning = false) ∧ (¬last → t.sq.hold = hold ∧ t.sq.holdRunning = true))

/-- STAGE_CHANGE_COMPLETE (R39, R42): the target becomes the current stage with its passage timer loaded; a recorded redirect to
another stage is taken at once with cause PREEMPT. The row stands for the evaluation that finds the change complete (log entry 4).
PL reads the state after all steps, so a stage left at once shows no green to its links (log entry 47), and the change that leaves it
withdraws the leave request of a group of its target, in PREP too (log entry 51).
An evaluation during a change (R38, R33, R39): each group outside the target in PREP or GREEN without a leave request is given one
of the change's kind, a force-off point crossed of the target sets the flag, and the change goes on until every group of the target
is in GREEN. That the point sets it also where the target is the current stage itself, in a change back to it, is the model's choice
(log entry 53). -/
def Obligations.StageChangeCompleteMakesTheTargetCurrent : Prop :=
  (∀ (s : State) (u : Stage), s.os.mode = .run ∨ s.os.mode = .flashEntry → s.sq.target = some u →
    (∀ g : Group, inStage s u g = true → s.ge[g].phase = .green) →
    ∃ t, exec .stageChangeComplete s = .next t ∧ Only [.ge, .sq, .pl] s t ∧ GreensReread s t ∧ t.sq.current = some u ∧
      t.sq.passage = passageTime s u ∧ t.sq.command = s.sq.command ∧
      (s.sq.command = none ∨ (∃ b, s.sq.command = some (u, b)) →
        t.ge = s.ge ∧ t.sq = { s.sq with
          current := some u, target := none, phase := .complete, passage := passageTime s u, passageRunning := true,
          entering := t.sq.entering, changeTruncating := false }) ∧
      ∀ v b, s.sq.command = some (v, b) → v ≠ u → ChangeStarted .preempt b v s t) ∧
  ∀ (s : State) (u : Stage), s.sq.target = some u → s.sq.phase = .changing → s.sq.command = none → s.sq.haltRequest = false →
    s.sq.arrivals = [] →
    let t := sqEvaluation s
    let whole := ∀ g : Group, inStage s u g = true → s.ge[g].phase = .green
    Only [.ge, .sq, .pl] s t ∧ GreensReread s t ∧ (whole → t.sq.current = some u) ∧
      (¬whole → t.sq.target = some u ∧ t.sq.phase = .changing ∧ t.sq.current = s.sq.current ∧ t.sq.latch = s.sq.latch ∧
        t.sq.lastCause = s.sq.lastCause ∧
        (t.sq.forceOff = true ↔
          s.sq.forceOff = true ∨ (s.ck.report.crossed[u] = true ∧ coordinatedStage s ≠ some u)) ∧
        ∀ g : Group, t.ge[g] =
          if inStage s u g = false ∧ (s.ge[g].phase = .prep ∨ s.ge[g].phase = .green) ∧ s.ge[g].leave = none
          then { s.ge[g] with leave := some (if s.sq.changeTruncating = true then .truncating else .ordinary) } else s.ge[g])

/-- PE_COMMAND (R43, R41, R42): by the table of R43; the max timer and a hold extension end in every row of it (R29, R35, log entry
44). A change that starts withdraws the leave request of a group of its target, in PREP too (log entry 51). The clauses on group
requests leave aside the replacement of a truncating command by a non-truncating one, which PE_COMMAND_RELEASE states. -/
def Obligations.PeCommandActsByTheSequencersState : Prop :=
  ∀ (target : Stage) (truncating : Bool) (s : State),
    let stillRed := ∀ g : Group, s.sq.entering[g] = true → s.ge[g].phase = .red ∨ s.ge[g].phase = .clearance
    (s.os.mode ≠ .run ∨ s.sq.haltRequest = true → exec (.peCommand target truncating) s = .next s) ∧
    (s.os.mode = .run → s.sq.haltRequest = false →
      ∃ t, exec (.peCommand target truncating) s = .next t ∧ Only [.ge, .sq, .pl] s t ∧ GreensReread s t ∧
        t.sq.command = some (target, truncating) ∧ t.sq.forceOff = false ∧ t.sq.maxRunning = false ∧ t.sq.maxTimer = 0 ∧
        t.sq.holdRunning = false ∧ t.sq.hold = 0 ∧ t.sq.calls = s.sq.calls ∧ t.sq.current = s.sq.current ∧
        t.sq.passage = s.sq.passage ∧
        (s.sq.phase = .complete → s.sq.current = some target →
          t.sq.phase = .complete ∧ t.sq.latch = none ∧ t.sq.lastCause = s.sq.lastCause ∧
          (commandTruncates s.sq = false ∨ truncating = true → t.ge = s.ge)) ∧
        (s.sq.phase = .complete → s.sq.current ≠ some target →
          t.sq.target = some target ∧ t.sq.phase = .changing ∧ t.sq.lastCause = some .preempt ∧ t.sq.latch = none ∧
          (commandTruncates s.sq = false ∨ truncating = true → ChangeStarted .preempt truncating target s t)) ∧
        (∀ u, s.sq.phase = .changing → s.sq.target = some u → u = target ∨ ¬stillRed →
          t.sq.phase = .changing ∧ t.sq.target = some u ∧ t.sq.lastCause = s.sq.lastCause ∧
          (truncating = true → ∀ g : Group, t.ge[g] =
            if inStage s u g = false ∧ (s.ge[g].phase = .green ∨ s.ge[g].phase = .prep)
            then { s.ge[g] with leave := some .truncating } else s.ge[g]) ∧
          (truncating = false → commandTruncates s.sq = false → t.ge = s.ge)) ∧
        ∀ u, s.sq.phase = .changing → s.sq.target = some u → u ≠ target → stillRed →
          t.sq.phase = .changing ∧ t.sq.target = some target ∧ t.sq.lastCause = some .preempt ∧
          ∀ g : Group, t.ge[g].phase = s.ge[g].phase ∧
            (inStage s target g = true → s.ge[g].phase ≠ .green → t.ge[g].entry = true) ∧
            (inStage s target g = true → s.ge[g].phase = .green ∨ s.ge[g].phase = .prep → t.ge[g].leave = none) ∧
            (inStage s target g = false → t.ge[g].entry = false) ∧
            (inStage s target g = false → s.ge[g].phase = .green → t.ge[g].leave.isSome = true))

/-- PE_COMMAND_RELEASE (R44): the command is released, or a truncating one replaced by a non-truncating one; each truncating leave
request still held in GREEN or PREP becomes an ordinary one, and everything else stands. -/
def Obligations.PeCommandReleaseDropsTruncation : Prop :=
  ∀ (downgrade : Bool) (s : State) (st : Stage) (truncating : Bool), s.sq.command = some (st, truncating) →
    downgrade = false ∨ truncating = true →
    ∃ t, exec (.peCommandRelease downgrade) s = .next t ∧ Only [.ge, .sq] s t ∧ TruncationDropped truncating s t ∧
      t.sq = { s.sq with
        command := if downgrade then some (st, false) else none,
        changeTruncating := if truncating then false else s.sq.changeTruncating }

/-- HALT (R45): the request is taken. With some group still in right-of-way the latch and last cause are FLASH, the command and
target are gone and every green holds a leave request; with every group in RED or OFF the halt is done and MANUAL FLASH is
entered. HALT_DONE (R45, R169, R165): the report that every group is in RED or OFF takes the station into MANUAL FLASH, with a
FLASH-ALERT offered. The rows stand for the evaluation at which each falls due (log entry 4). -/
def Obligations.HaltWindsDownToManualFlash : Prop :=
  (∀ (s : State) (img : Image), s.cf.image = some img → s.os.mode = .flashEntry → s.sq.haltRequest = true →
     s.sq.latch ≠ some .flash →
     ∃ t, exec .halt s = .next t ∧ Only [.os, .ge, .sq, .pl, .lu] s t ∧ t.sq.lastCause = some .flash ∧
       t.sq.calls = s.sq.calls ∧ t.sq.target = none ∧ t.sq.phase = .changing ∧ t.sq.command = none ∧
       t.sq.passageRunning = false ∧ t.sq.maxRunning = false ∧ t.sq.holdRunning = false ∧ t.sq.hold = 0 ∧
       (allRedOrOff s = false →
         t.os = s.os ∧ t.lu = s.lu ∧ GreensReread s t ∧ t.sq.latch = some .flash ∧ t.sq.current = s.sq.current ∧
         t.sq.haltRequest = true ∧
         ∀ g : Group, t.ge[g].phase = s.ge[g].phase ∧ t.ge[g].timer = s.ge[g].timer ∧ t.ge[g].e = s.ge[g].e ∧
           t.ge[g].entry = false ∧
           (s.ge[g].phase = .green → t.ge[g].leave.isSome = true ∧
             (commandTruncates s.sq = true ∨ s.ge[g].leave ≠ some .truncating → t.ge[g].leave = some .ordinary))) ∧
       (allRedOrOff s = true →
         t.os.mode = .manualFlash ∧ SequencerStopped t.sq ∧ QueueEmptied t.pl ∧ SourcesFrom img .flash t.os ∧
         (∀ g : Group, img.groups[g].enabled = true → t.ge[g].phase = .flashing) ∧ Offered (.flashAlert .manual) s t)) ∧
  (∀ (s : State) (img : Image), s.cf.image = some img → s.os.mode = .flashEntry → s.sq.haltRequest = true →
     s.sq.latch = some .flash → (∀ g : Group, s.ge[g].phase = .red ∨ s.ge[g].phase = .off) →
     ∃ t, exec .haltDone s = .next t ∧ Only [.os, .ge, .sq, .pl, .lu] s t ∧
       EnteredFlash img .manualFlash .manual s t ∧ t.os.fault = s.os.fault ∧ t.os.additional = s.os.additional)

/-- R46: in every mode but RUN and FLASH ENTRY the Stage Sequencer holds its stopped values. R23: the phase is COMPLETE only with a
current stage and no change in flight. R182, R183: the port is IDLE while select is high. 00_scope convention 9: each saturating
counter stays within its range. Every step keeps each. -/
def Obligations.SequencerPortAndCountersHold : Prop := Kept StoppedLaw ∧ Kept PhaseLaw ∧ Kept PortLaw ∧ Kept CounterLaw

/-! ## Chapter 3: detectors -/

/-- ON_EDGE (R52, R53, R25, R62, R136): the running state, the call, and for a COUNT detector the exit counts of the links whose
green it meets. The row stands for the sample that brings the edge about (log entry 4). -/
def Obligations.OnEdgeActsByTheDetectorRecord : Prop :=
  ∀ (d : Detector) (s : State) (img : Image), s.cf.image = some img → s.du[d].filtered = false →
    10 * img.detectors[d].onFilter ≤ s.du[d].count →
    let r := img.detectors[d]
    let counts := fun p : Place => (∃ e l, s.nt.places[p] = some e ∧ e.link = some l ∧ l.exitDetector = some d) ∧
      ∃ ls, s.pl.links[p] = some ls ∧ ls.green = true
    ∃ t, exec (.onEdge d) s = .next t ∧ Only [.sq, .du, .pl, .lu] s t ∧
      t.du[d] = { filtered := true, count := 0, state := .occupied, presence := 0, noActivity := 0, pending := true } ∧
      (∀ a : Detector, a ≠ d → t.du[a] = s.du[a]) ∧ t.sq = { s.sq with calls := t.sq.calls } ∧
      (∀ g : Group, t.sq.calls[g] = true ↔ s.sq.calls[g] = true ∨
        (r.callGroup = some g ∧ (r.kind = .pulse ∨ r.locking = true) ∧ s.ge[g].phase ≠ .green ∧ s.ge[g].phase ≠ .off)) ∧
      (r.kind ≠ .count → t.pl = s.pl ∧ t.lu = s.lu) ∧
      (r.kind = .count → t.pl.queue = s.pl.queue ∧ ∀ p : Place,
        (¬counts p → t.pl.links[p] = s.pl.links[p]) ∧
        ∀ ls, counts p → s.pl.links[p] = some ls →
          ∃ ls', t.pl.links[p] = some ls' ∧ ls'.exitCount = min (ls.exitCount + 1) 255 ∧ ls'.green = true ∧
            ls'.greenTimer = ls.greenTimer)

/-- OFF_EDGE (R52): the detector goes IDLE and its timers keep their values. FAILED_ON and FAILED_QUIET (R57, R59): the count that
reaches the limit judges the detector. Nothing else changes. The rows stand for the sample or count that brings each about (log
entry 4). -/
def Obligations.DetectorEventsMoveOneDetector : Prop :=
  (∀ (d : Detector) (s : State) (img : Image), s.cf.image = some img → s.du[d].filtered = true →
     10 * img.detectors[d].offFilter ≤ s.du[d].count →
     exec (.offEdge d) s =
       .next (s.withDu (put s.du d { s.du[d] with filtered := false, count := 0, state := .idle }))) ∧
  ((∀ (d : Detector) (s : State) (img : Image), s.cf.image = some img → s.du[d].state = .occupied →
     0 < img.detectors[d].maxPresence → img.detectors[d].maxPresence ≤ 255 →
     10 * img.detectors[d].maxPresence ≤ s.du[d].presence + 1 →
     exec (.failedOn d) s =
       .next (s.withDu (put s.du d { s.du[d] with presence := min (s.du[d].presence + 1) 2550, state := .failedOn }))) ∧
   ∀ (d : Detector) (s : State) (img : Image), s.cf.image = some img → s.du[d].state = .idle →
     0 < img.detectors[d].noActivity → img.detectors[d].noActivity ≤ 240 →
     60 * img.detectors[d].noActivity ≤ s.du[d].noActivity + 1 →
     exec (.failedQuiet d) s =
       .next (s.withDu (put s.du d { s.du[d] with noActivity := min (s.du[d].noActivity + 1) 14400, state := .failedQuiet })))

/-! ## Chapters 4 and 5: the Cycle Clock -/

/-- HOLD_END, UNSYNC_GIVE_UP and PLAN_HOLD_EXPIRY (R72, R79, R131): each changes its own count and flag and nothing else. BEACON_DUE
(R81): the beacon count reaches the period and a BEACON is offered to the Line Unit. The rows stand for the count that brings each
about (log entry 4). R80, R81, R131: at a TICK with no command pending in MP, a second mark lowers the plan-hold timer by one while it
is above 0 and raises the beacon count by one while it is below the period, also where a plan is adopted; at any other tick both
stand. -/
def Obligations.ClockCountsRunOut : Prop :=
  ((∀ s : State, s.ck.hold = 1 → exec .holdEnd s = .next (s.withCk { s.ck with hold := 0 })) ∧
   (∀ s : State, coordinatedActive s = true → s.ck.unsync = true → 2 ≤ s.ck.unsyncCount →
     (∀ p : Place, ∀ e, s.nt.places[p] = some e → ¬Qualifies s.ck.c e) →
     exec .unsyncGiveUp s = .next (s.withCk { s.ck with unsync := false, unsyncCount := 0 })) ∧
   ∀ s : State, s.ck.planHold = 1 → exec .planHoldExpiry s = .next (s.withCk { s.ck with planHold := 0 })) ∧
  (∀ (s : State) (img : Image), s.cf.image = some img → s.ck.beaconCount + 1 = img.beaconPeriod →
     ∃ t, exec .beaconDue s = .next t ∧ Only [.ck, .lu] s t ∧ t.ck = { s.ck with beaconCount := img.beaconPeriod } ∧
       Offered .beacon s t) ∧
  ∀ (d : BitVec 24) (r : BitVec 3) (x : BitVec 48) (s : State) (img : Image) (a : Plan), s.cf.image = some img →
    s.ck.active = some a → pendingCommand s.mp = none →
    ∃ t, exec (.tick d r x) s = .next t ∧
      ((s.tb.m + 1) % 100 = 0 → t.ck.planHold = s.ck.planHold - 1 ∧
        t.ck.beaconCount = if s.ck.beaconCount < img.beaconPeriod then s.ck.beaconCount + 1 else s.ck.beaconCount) ∧
      ((s.tb.m + 1) % 100 ≠ 0 → t.ck.planHold = s.ck.planHold ∧ t.ck.beaconCount = s.ck.beaconCount)

/-- PLAN_ADOPTION (R76, R77, R75, R22): the pending plan becomes the active plan, P is 0, B and the hold count are 0, the
unsynchronized flag is set exactly for a coordinated plan, and a hold extension of the Stage Sequencer ends; that the yield window
then counts as not having been open is the model's reading (log entry 16). The row stands for the moment at which the adoption falls
due (log entries 4 and 32). At a TICK that is no discipline mark, with no command pending in MP, a differing pending plan is adopted
where the advance crosses cycle zero, from a free plan at a second mark, and at no other; there the row falls due too. -/
def Obligations.PlanAdoptionTakesThePendingPlan : Prop :=
  (∀ (s : State) (img : Image) (a p : Plan), s.cf.image = some img → s.ck.active = some a → s.ck.pendingPlan = some p →
    a ≠ p → adoptionDue img s = true →
    ∃ t, exec .planAdoption s = .next t ∧ Only [.ck, .sq] s t ∧ Adopted img p s.ck t.ck ∧
      t.ck.planHold = s.ck.planHold ∧ t.ck.beaconCount = s.ck.beaconCount ∧
      t.sq = { s.sq with hold := 0, holdRunning := false, yieldWasOpen := false }) ∧
  ∀ (d : BitVec 24) (r : BitVec 3) (x : BitVec 48) (s : State) (img : Image) (a p : Plan), s.cf.image = some img →
    s.ck.active = some a → s.ck.pendingPlan = some p → a ≠ p → pendingCommand s.mp = none → ClockLaw s →
    (s.tb.m + 1) % 1000 ≠ 0 →
    let second := (s.tb.m + 1) % 100 = 0
    let pay := if second then paid img s.ck.b else 0
    let k := if pay < 0 ∨ 0 < s.ck.hold then 0 else 1 + pay.toNat
    let due := (img.plans[a].cycle = 0 ∧ second) ∨
      (img.plans[a].cycle ≠ 0 ∧ ∃ i, 1 ≤ i ∧ i ≤ k ∧ (s.ck.p + i) % s.ck.c = 0)
    (k < s.ck.c ∨ s.ck.c = 0 → (adoptionDue img s = true ↔ due)) ∧
    ∃ t, exec (.tick d r x) s = .next t ∧ t.ck.pendingPlan = some p ∧
      (k < s.ck.c ∨ s.ck.c = 0 → (due → Adopted img p s.ck t.ck) ∧ (¬due → t.ck.active = some a))

/-- R71, R96: the position lies in 0 to C - 1 while the plan is coordinated and is 0 while it is free, and the balance never
exceeds half the cycle length. Every step keeps both. -/
def Obligations.PositionAndBalanceStayInTheCycle : Prop := Kept fun s => ClockLaw s ∧ BalanceLaw s

/-- R69: the reference position is (P - O) mod C while the active plan is coordinated, lies in 0 to C - 1, is 0 where P equals O, and
is 0 while the active plan is free or absent. R89: the wrapped error lies in -C/2 to C/2 - 1 and is d, or d - C from half a cycle
on. -/
def Obligations.ReferencePositionAndWrappedError : Prop :=
  (∀ s : State, ClockLaw s →
     (coordinatedActive s = true → (reference s : Int) = ((s.ck.p : Int) - s.ck.o) % s.ck.c ∧ reference s < s.ck.c ∧
       (s.ck.p = s.ck.o → reference s = 0)) ∧
     (coordinatedActive s = false → (∃ img, s.cf.image = some img) ∨ s.ck.active = none → reference s = 0)) ∧
  (∀ c e r : Nat, 0 < c → c % 100 = 0 → e < c → r < c →
     let d : Int := ((e : Int) - r) % c
     (d < c / 2 → wrappedError c e r = d) ∧ ((c : Int) / 2 ≤ d → wrappedError c e r = d - c) ∧
       -((c : Int) / 2) ≤ wrappedError c e r ∧ wrappedError c e r ≤ (c : Int) / 2 - 1)

/-- R73, R74, R75: the report of an ordinary tick. With an advance of k below C the points crossed are P + 1 to P + k modulo C; a
window is open exactly when the new position lies in it, ends included and past cycle zero where it wraps, or its start was
crossed; an absent force-off point is never crossed. The report of a jump-in opens a window exactly when the position lies in it, and
tells no crossing. R75, R70: a TICK that adopts no plan, with no command pending in MP, leaves this report for the Stage Sequencer:
for a coordinated plan that of the new position with the crossings of the advance made, also at a held tick and with a payout, drawn
at a discipline mark from the B just set; at the tick of a jump-in that of the position before the jump; and for a free plan all
closed. The neighbor table is read before or after this tick's ageing (log entry 1). -/
def Obligations.ReportTellsWindowsAndCrossings : Prop :=
  (∀ (c p k : Nat) (r : PlanRecord), p < c → k < c →
    (∀ x, x < c → (crosses c p k x = true ↔ ∃ i, 1 ≤ i ∧ i ≤ k ∧ x = (p + i) % c)) ∧
    let q := (p + k) % c
    let w := reportFor r q (crosses c p k) true
    (w.yieldOpen = true ↔ Inside q (10 * r.yieldStart) (10 * r.yieldEnd) ∨ crosses c p k (10 * r.yieldStart) = true) ∧
    ∀ i : Stage,
      (w.permissive[i] = true ↔ Inside q (10 * r.stages[i].permStart) (10 * r.stages[i].permEnd) ∨
        crosses c p k (10 * r.stages[i].permStart) = true) ∧
      (w.crossed[i] = true ↔ ∃ x, r.stages[i].forceOff = some x ∧ crosses c p k (10 * x) = true)) ∧
  (∀ (r : PlanRecord) (p : Nat),
    let w := reportFor r p (fun _ => false) false
    (w.yieldOpen = true ↔ Inside p (10 * r.yieldStart) (10 * r.yieldEnd)) ∧
    ∀ i : Stage, (w.permissive[i] = true ↔ Inside p (10 * r.stages[i].permStart) (10 * r.stages[i].permEnd)) ∧
      w.crossed[i] = false) ∧
  ∀ (d : BitVec 24) (r : BitVec 3) (x : BitVec 48) (s : State) (img : Image) (a : Plan), s.cf.image = some img →
    s.ck.active = some a → pendingCommand s.mp = none →
    ∃ t nt, exec (.tick d r x) s = .next t ∧ (nt = s.nt ∨ nt = (ntWork s).nt) ∧
      let plan := img.plans[a]
      let mark := (s.tb.m + 1) % 1000 = 0
      let jump := mark ∧ s.ck.unsync = true ∧ ∃ (p : Place) (e : Entry), nt.places[p] = some e ∧ Qualifies s.ck.c e
      let b := if mark ∧ s.ck.unsync = false
        then (discipline img (contributors (s.withNt nt)) (reference s) s.ck).b else s.ck.b
      let k := ticksAdvanced (if (s.tb.m + 1) % 100 = 0 then paid img b else 0) s.ck.hold
      (t.ck.pendingPlan = some a → t.ck.active = some a) ∧
      (t.ck.active = some a →
        (plan.cycle = 0 → AllClosed t.ck.report) ∧
        (plan.cycle ≠ 0 → jump → t.ck.report = reportFor plan s.ck.p (fun _ => false) false) ∧
        (plan.cycle ≠ 0 → ¬jump → t.ck.p = (s.ck.p + k) % s.ck.c ∧
          t.ck.report = reportFor plan t.ck.p (crosses s.ck.c s.ck.p k) true))

/-- R79, R88: the qualifying neighbors, of whom a jump-in copies the one of the highest weight, and of those the one of the lowest
address; the reference position is then the estimate from its last beacon, and B, the hold count and the flag are clear. R70, R79: a
TICK at a discipline mark, with no command pending in MP and the flag set, makes the jump-in, or without a qualifying neighbor
raises the mark count, at the third mark clearing the flag; either counts as a mark since the last evaluation, also before the first
(log entry 14); the neighbor table is read before or after this tick's ageing (log entry
1). -/
def Obligations.JumpInCopiesTheBestNeighbor : Prop :=
  (∀ (s : State) (e : Entry),
    (e ∈ contributors s ↔ (∃ p : Place, s.nt.places[p] = some e) ∧ Qualifies s.ck.c e) ∧
    (TableLaw s → (bestNeighbor (contributors s) = some e ↔ BestOf s e)) ∧
    ∀ b, e.last = some b → 0 < s.ck.c →
      let t := s.withCk (jumpIn e s.ck)
      reference t = (b.reference + e.age + 1) % s.ck.c ∧ t.ck.b = 0 ∧ t.ck.hold = 0 ∧ t.ck.unsync = false ∧
        t.ck.unsyncCount = 0) ∧
  ∀ (d : BitVec 24) (r : BitVec 3) (x : BitVec 48) (s : State) (img : Image), s.cf.image = some img → TableLaw s →
    pendingCommand s.mp = none → coordinatedActive s = true → s.ck.unsync = true → (s.tb.m + 1) % 1000 = 0 →
    ∃ t nt, exec (.tick d r x) s = .next t ∧ (nt = s.nt ∨ nt = (ntWork s).nt) ∧
      (∀ e b, BestOf (s.withNt nt) e → e.last = some b →
        t.ck.p = ((b.reference + e.age + 1) % s.ck.c + s.ck.o) % s.ck.c ∧ t.ck.b = 0 ∧ t.ck.hold = 0 ∧ t.ck.unsync = false ∧
          t.ck.unsyncCount = 0 ∧ t.ck.active = s.ck.active ∧ t.ck.c = s.ck.c ∧ t.ck.o = s.ck.o ∧
          t.ck.record = { s.ck.record with marks := min (s.ck.record.marks + 1) 255 }) ∧
      ((∀ e, ¬BestOf (s.withNt nt) e) → t.ck.pendingPlan = s.ck.active →
        Advanced (paid img s.ck.b) s.ck t.ck ∧ t.ck.record = { s.ck.record with marks := min (s.ck.record.marks + 1) 255 } ∧
          (s.ck.unsyncCount < 2 → t.ck.unsync = true ∧ t.ck.unsyncCount = s.ck.unsyncCount + 1) ∧
          (2 ≤ s.ck.unsyncCount → t.ck.unsync = false ∧ t.ck.unsyncCount = 0))

/-- R92: the correction is the average divided by 2 to the power g, rounded to the nearest whole number, a tie to the even neighbour,
with the sign of the average and a magnitude of at most the average's. R93: a correction not above the deadband in magnitude
becomes 0, the deadband itself included, and any other is kept. -/
def Obligations.GainRoundsToEvenAndDeadbandZeroes : Prop :=
  (∀ (a : Int) (g : Nat), g ≤ 4 →
     (g = 0 → gain a g = a) ∧ 2 * (2 ^ g * gain a g - a).natAbs ≤ 2 ^ g ∧
     (0 < g → 2 * (2 ^ g * gain a g - a).natAbs = 2 ^ g → gain a g % 2 = 0) ∧
     gain (-a) g = -gain a g ∧ (0 ≤ a → 0 ≤ gain a g) ∧ (gain a g).natAbs ≤ a.natAbs) ∧
  (∀ (d : Int) (deadband : Nat),
     (d.natAbs ≤ deadband → applyDeadband d deadband = 0) ∧ (deadband < d.natAbs → applyDeadband d deadband = d))

/-- R88, R90, R94, R97: the discipline evaluation. Without weight B stands and the record reads NO-NEIGHBOR; with weight B takes the
correction after the deadband, replacing what was left, and the record tells the figures. R91: the average is the quotient rounded
to the nearest whole tick, ties away from zero; errors within half a cycle average within half a cycle. R70, R86, R95, R97, R130: a
TICK at a discipline mark, with no command pending in MP, makes the evaluation for a coordinated plan whose flag is clear, from the
neighbor table as it stands before or after this tick's ageing (log entry 1), pays from the B just set, and lets plan following set
the pending plan unless the plan-hold timer runs; with a free plan the mark is counted as one since the last evaluation, also before
the first (log entry 14). -/
def Obligations.EvaluationReplacesTheBalance : Prop :=
  (∀ (c : Nat) (e : Entry) (b : LastBeacon), e.last = some b → estimate c e = (b.reference + e.age + 1) % c) ∧
  (∀ (img : Image) (es : List Entry) (r : Nat) (k : CkState),
     let w := (es.map fun e => e.weight).sum
     let sum : Int := (es.map fun e => (e.weight : Int) * wrappedError k.c (estimate k.c e) r).sum
     let d := applyDeadband (gain (average sum w) img.gainShift) img.deadband
     (w = 0 → discipline img es r k = { k with record :=
       { outcome := .noNeighbor, contributors := es.length, weight := 0, average := 0, correction := 0, marks := 0 } }) ∧
     (0 < w → discipline img es r k = { k with
       b := d,
       record := { outcome := if d = 0 then .zeroed else .applied, contributors := es.length, weight := w,
                   average := average sum w, correction := d, marks := 0 } })) ∧
  (∀ (sum : Int) (w : Nat), 0 < w →
     2 * (average sum w * w - sum).natAbs ≤ w ∧
     (2 * (average sum w * w - sum).natAbs = w → sum.natAbs < (average sum w * w).natAbs) ∧
     (0 ≤ sum → 0 ≤ average sum w) ∧ (sum ≤ 0 → average sum w ≤ 0) ∧
     ∀ h : Nat, -(h : Int) * w ≤ sum → sum ≤ ((h : Int) - 1) * w → -(h : Int) ≤ average sum w ∧ average sum w ≤ (h : Int) - 1) ∧
  ∀ (d : BitVec 24) (r : BitVec 3) (x : BitVec 48) (s : State) (img : Image) (a : Plan), s.cf.image = some img →
    s.ck.active = some a → pendingCommand s.mp = none → (s.tb.m + 1) % 1000 = 0 →
    ∃ t nt, exec (.tick d r x) s = .next t ∧ (nt = s.nt ∨ nt = (ntWork s).nt) ∧
      let k := discipline img (contributors (s.withNt nt)) (reference s) s.ck
      (coordinatedActive s = true → s.ck.unsync = false → t.ck.record = k.record ∧
        (t.ck.pendingPlan = some a → t.ck.active = some a ∧ t.ck.unsync = false ∧ Advanced (paid img k.b) k t.ck)) ∧
      (coordinatedActive s = false →
        t.ck.record = { s.ck.record with marks := min (s.ck.record.marks + 1) 255 } ∧
        (t.ck.pendingPlan = some a → t.ck.active = some a ∧ t.ck.p = s.ck.p ∧ t.ck.b = s.ck.b) ∧
        ∀ p, t.ck.pendingPlan = some p → p ≠ a → t.ck.active = some p) ∧
      (∀ p, s.ck.planHold = 0 → PlanFollowed img nt a p → t.ck.pendingPlan = some p) ∧
      (0 < s.ck.planHold ∨ (∀ p, ¬PlanFollowed img nt a p) → t.ck.pendingPlan = s.ck.pendingPlan)

/-! ## Chapter 6: the corridor line -/

/-- LINE_FREE (R100, R107, R108, R112): the line state goes FREE and the assembler READY; DEFER is left with a draw, and every other
access state stands. A frame still incomplete then is counted as a fragment, the line-free interval holding the intra-frame gap
(log entry 21). LINE_BUSY (R100): nothing but the line state changes. BACKOFF_SLOT_END (R108): the count goes down, and at 0 an
attempt begins. INTRA_FRAME_GAP (R112): the incomplete frame is a fragment. -/
def Obligations.LineEventsMoveTheAccessState : Prop :=
  (∀ s : State, s.lu.busy = true → s.lu.access ≠ .disabled → s.lu.access ≠ .sending →
    ∃ t, exec .lineFree s = .next t ∧ Only [.lu] s t ∧ t.lu.assembler = .ready ∧ t.lu.clash = s.lu.clash ∧
      ((∀ bs, s.lu.assembler ≠ .assembling bs) → t.lu.counters = s.lu.counters) ∧
      ((∃ bs, s.lu.assembler = .assembling bs) →
        t.lu.counters = { s.lu.counters with fragments := min (s.lu.counters.fragments + 1) 65535 }) ∧
      (s.lu.access ≠ .defer → t.lu = { s.lu with busy := false, assembler := .ready, counters := t.lu.counters }) ∧
      (s.lu.access = .defer → s.lu.inHand ≠ none ∨ s.lu.queue ≠ [] → Drawn s t)) ∧
  (∀ s : State, s.lu.access ≠ .disabled → exec .lineBusy s = .next (s.withLu { s.lu with busy := true })) ∧
  (∀ s : State, s.lu.access = .backoff → s.lu.busy = false →
    (1 < s.lu.slots → exec .backoffSlotEnd s = .next (s.withLu { s.lu with slots := s.lu.slots - 1 })) ∧
    (s.lu.slots = 1 → s.lu.inHand ≠ none ∨ s.lu.queue ≠ [] →
      ∃ t, exec .backoffSlotEnd s = .next t ∧ Only [.lu] s t ∧ AttemptBegun s t ∧ t.lu.sequence = s.lu.sequence ∧
        t.lu.assembler = s.lu.assembler ∧ t.lu.counters = s.lu.counters ∧ t.lu.clash = s.lu.clash)) ∧
  ∀ (s : State) (bs : List Byte), s.lu.access ≠ .disabled → s.lu.assembler = .assembling bs →
    exec .intraFrameGap s = .next (s.withLu { s.lu with
      assembler := .waitFree, counters := { s.lu.counters with fragments := min (s.lu.counters.fragments + 1) 65535 } })

/-- BYTE_NOT_RECEIVED_BACK and the readback of BYTE_RECEIVED (R110, R106): a byte that reads back right lets the attempt go on, the
last one ends it in success, and any other fails it; the sixth failed attempt drops the frame. -/
def Obligations.ReadbackJudgesEachByte : Prop :=
  (∀ (s : State) (h : InHand), s.lu.access = .sending → s.lu.inHand = some h →
    ∃ t, exec .byteNotReceivedBack s = .next t ∧ Only [.lu, .ck] s t ∧ AttemptLost h s t ∧
      t.lu.assembler = s.lu.assembler ∧ t.lu.clash = s.lu.clash) ∧
  ∀ (b : Byte) (framingError : Bool) (s : State) (tx : Sending) (h : InHand), s.lu.access ≠ .disabled →
    s.lu.sending = some tx → s.lu.inHand = some h →
    ∃ t, exec (.byteReceived b framingError) s = .next t ∧ Only [.lu, .ck, .nt, .pl, .pe, .sq] s t ∧ t.lu.busy = true ∧
      (framingError = false → tx.bytes[tx.next]? = some b → tx.next + 1 < tx.bytes.length →
        t.lu.sending = some { tx with next := tx.next + 1 } ∧ t.lu.access = s.lu.access ∧ t.lu.inHand = s.lu.inHand ∧
          t.lu.driverEnable = s.lu.driverEnable ∧ t.lu.queue = s.lu.queue ∧ t.lu.exponent = s.lu.exponent ∧ t.ck = s.ck) ∧
      (framingError = false → tx.bytes[tx.next]? = some b → tx.next + 1 = tx.bytes.length → AttemptWon h s t) ∧
      (framingError = true ∨ tx.bytes[tx.next]? ≠ some b → AttemptLost h s t)

/-- BYTE_RECEIVED by Table 6.4 (R112) while no attempt of this station is on the line, and FRAME_RECEIVED (R113, R114): a complete
frame is counted once, as a CRC error, malformed, an address clash or received; the echo of a successful attempt is none of these. -/
def Obligations.AssemblerAndJudgeFollowTheirTables : Prop :=
  (∀ (b : Byte) (framingError : Bool) (s : State), s.lu.access ≠ .disabled → s.lu.sending = none →
    let u := { s.lu with busy := true }
    let fragment := { u with
      assembler := .waitFree, counters := { u.counters with fragments := min (u.counters.fragments + 1) 65535 } }
    (s.lu.assembler = .waitFree → exec (.byteReceived b framingError) s = .next (s.withLu u)) ∧
    (s.lu.assembler = .ready → exec (.byteReceived b framingError) s = .next (s.withLu
      (if b = 0xC3 ∧ framingError = false then { u with assembler := .assembling [b] } else fragment))) ∧
    ∀ bs, s.lu.assembler = .assembling bs →
      (framingError = true → exec (.byteReceived b framingError) s = .next (s.withLu fragment)) ∧
      (framingError = false → bs.length < 2 ∨
          (2 ≤ bs.length ∧ ∃ n, (num (bs ++ [b]) 2, n) ∈ frameKinds ∧ bs.length + 1 < n) →
        exec (.byteReceived b framingError) s = .next (s.withLu { u with assembler := .assembling (bs ++ [b]) })) ∧
      (framingError = false → bs.length = 2 → (∀ n, (b.toNat, n) ∉ frameKinds) →
        exec (.byteReceived b framingError) s = .next (s.withLu { u with
          assembler := .waitFree, counters := { u.counters with malformed := min (u.counters.malformed + 1) 65535 } }))) ∧
  (∀ (s : State) (img : Image) (last : Byte) (f : List Byte), Completes s img last f →
    let u := { s.lu with busy := true, assembler := .waitFree }
    let c := s.lu.counters
    ∃ t, exec (.frameReceived last) s = .next t ∧ exec (.byteReceived last false) s = .next t ∧
      (¬Intact f → t = s.withLu { u with counters := { c with crcErrors := min (c.crcErrors + 1) 65535 } }) ∧
      (Intact f → ¬FieldsGood f → t = s.withLu { u with counters := { c with malformed := min (c.malformed + 1) 65535 } }) ∧
      (Intact f → FieldsGood f → num f 1 = img.address →
        t = s.withLu { u with clash := true, counters := { c with clashes := min (c.clashes + 1) 65535 } }) ∧
      (GoodFromOther s img last f → Only [.lu, .nt, .pl, .pe, .sq] s t ∧
        t.lu = { u with counters := { c with received := min (c.received + 1) 65535 } })) ∧
  ∀ (s : State) (img : Image) (tx : Sending) (h : InHand) (bs : List Byte) (last : Byte), s.cf.image = some img →
    s.lu.access ≠ .disabled → s.lu.sending = some tx → s.lu.inHand = some h → tx.bytes[tx.next]? = some last →
    tx.next + 1 = tx.bytes.length → s.lu.assembler = .assembling bs → 3 ≤ bs.length →
    (num bs 2, bs.length + 1) ∈ frameKinds → Intact (bs ++ [last]) → FieldsGood (bs ++ [last]) →
    num (bs ++ [last]) 1 = img.address →
    ∃ t, exec (.frameReceived last) s = .next t ∧ Only [.lu, .ck] s t ∧ AttemptWon h s t ∧ t.lu.clash = s.lu.clash ∧
      t.lu.counters = { s.lu.counters with sent := min (s.lu.counters.sent + 1) 65535 }

/-- R104, R105, R107: the offer of a frame. A DISABLED Line Unit discards it; with work in hand it is placed, replaces the queued
frame of its kind and target in place, or is refused as a fourth PLATOON, and a FLASH-ALERT removes the PLATOON and PREEMPT-ALERT
frames; an IDLE Line Unit leaves IDLE for DEFER on a BUSY line and for a draw on a FREE one. -/
def Obligations.OfferIsAnsweredByTheTable : Prop :=
  ∀ (f : TxFrame) (s : State),
    (s.lu.access = .disabled → offer f s = s) ∧
    (s.lu.access = .defer ∨ s.lu.access = .backoff ∨ s.lu.access = .sending → QueueLaw s →
      let t := offer f s
      let taken := fun q : Queued => kindRank q.frame = kindRank f ∧ (kindRank f = 2 → frameTarget q.frame = frameTarget f)
      let stays := fun q : Queued => q ∈ s.lu.queue ∧ (kindRank f = 0 → kindRank q.frame = 3)
      Only [.lu] s t ∧ t.lu = { s.lu with queue := t.lu.queue, nextEntry := t.lu.nextEntry } ∧ QueueLaw t ∧
      (∀ old, old ∈ s.lu.queue → taken old →
        t.lu.nextEntry = s.lu.nextEntry ∧
          ∀ q, q ∈ t.lu.queue ↔ q = { frame := f, entered := old.entered } ∨ (stays q ∧ ¬taken q)) ∧
      ((∀ q ∈ s.lu.queue, ¬taken q) → kindRank f = 2 → platoonFrames s.lu.queue = 3 → t = s) ∧
      ((∀ q ∈ s.lu.queue, ¬taken q) → kindRank f ≠ 2 ∨ platoonFrames s.lu.queue < 3 →
        t.lu.nextEntry = s.lu.nextEntry + 1 ∧
          ∀ q, q ∈ t.lu.queue ↔ q = { frame := f, entered := s.lu.nextEntry } ∨ stays q)) ∧
    (s.lu.access = .idle → s.lu.queue = [] → s.lu.inHand = none →
      let u := { s.lu with queue := [{ frame := f, entered := s.lu.nextEntry }], nextEntry := s.lu.nextEntry + 1 }
      (s.lu.busy = true → offer f s = s.withLu { u with access := .defer }) ∧
      (s.lu.busy = false → Only [.lu] s (offer f s) ∧ Drawn (s.withLu u) (offer f s)))

/-- R101, R102, R82, R111: the frame that LU sends begins with the lead byte, the station address and the kind, has the length of
its kind, carries the fields it was given or sampled, and passes both checks of a receiver (R113). R109: one step of the sequence
generator, which never reaches zero. -/
def Obligations.OwnFramesAreGoodFrames : Prop :=
  (∀ (s : State) (f : TxFrame), Between 1 62 (stationAddress s) → FrameInRange s f →
    let bs := frameBytes s f
    byteAt bs 0 = 0xC3 ∧ num bs 1 = stationAddress s ∧ (num bs 2, bs.length) ∈ frameKinds ∧ Intact bs ∧ FieldsGood bs ∧
      match f with
      | .flashAlert cause => num bs 2 = 0x51 ∧ num bs 3 = (match cause with | .manual => 1 | .fault => 2)
      | .preemptAlert target serial eta => num bs 2 = 0x52 ∧ num bs 3 = target ∧ num bs 4 = serial % 256 ∧ num bs 5 = 2 ∧
          256 * num bs 6 + num bs 7 = eta % 65536
      | .platoon target serial elapsed duration => num bs 2 = 0x53 ∧ num bs 3 = target ∧ num bs 4 = serial % 256 ∧
          256 * num bs 5 + num bs 6 = elapsed % 65536 ∧ 256 * num bs 7 + num bs 8 = duration ∧ num bs 9 = 0
      | .beacon => num bs 2 = 0x54 ∧
          num bs 3 = (if s.os.mode ≠ .run then 4 else if s.pe.service.isSome = true then 3
            else if coordinatedActive s = true then 1 else 2) ∧
          s.ck.active.map (fun p => p.val + 1) = some (num bs 4) ∧ 100 * num bs 5 = s.ck.c ∧
          256 * num bs 6 + num bs 7 = reference s ∧ s.cf.image.map (fun img => img.beaconPeriod) = some (num bs 8) ∧
          ((byteAt bs 9).getLsbD 0 = true ↔ s.pl.accepting = true ∧ (s.os.mode = .startRed ∨ s.os.mode = .run)) ∧
          (byteAt bs 9).getLsbD 1 = s.ck.unsync ∧ ((byteAt bs 9).getLsbD 2 = true ↔ 0 < s.ck.planHold) ∧
          ((byteAt bs 9).getLsbD 3 = true ↔ s.os.mode = .faultFlash) ∧
          num bs 9 / 16 = classCode (s.pe.service.map fun v => v.cls)) ∧
  ∀ r : BitVec 16,
    (sequenceStep r).getLsbD 0 = (r.getLsbD 15 ^^ r.getLsbD 13 ^^ r.getLsbD 12 ^^ r.getLsbD 10) ∧
      (∀ i < 15, (sequenceStep r).getLsbD (i + 1) = r.getLsbD i) ∧ (r ≠ 0 → sequenceStep r ≠ 0)

/-- R103, the law of the transmit queue, and R104, R106 to R110, what each access state holds. Every step keeps each. -/
def Obligations.TransmitQueueAndAccessStatesHold : Prop := Kept QueueLaw ∧ Kept LineLaw

/-! ## Chapter 7: the Neighbor Table -/

/-- FRAME_RECEIVED of a BEACON (R115, R122, R123): it is written into its sender's entry, else into a new unpinned entry in the
lowest-numbered free place, else in the place of the oldest unpinned STALE entry; where there is none it is refused and counted. Whether the coming tick's
ageing passes the entry over is a free value (R125, log entry 49). -/
def Obligations.BeaconIsWrittenIntoTheTable : Prop :=
  ∀ (s : State) (img : Image) (last : Byte) (f : List Byte), GoodFromOther s img last f → num f 2 = 0x54 → TableLaw s →
    ∃ t b, exec (.frameReceived last) s = .next t ∧ Only [.lu, .nt] s t ∧ BeaconRead f b ∧
      let fresh : Entry := { address := num f 1, pinned := false, state := .heard, last := some b, age := 0,
                             weight := img.defaultWeight, link := none }
      let written := fun (p : Place) (e : Entry) => { s.nt with
        places := put s.nt.places p (some e),
        passOver := put s.nt.passOver p (Config.beaconBeforeAgeing s.free (num f 1)) }
      let replaceable := fun (p : Place) (e : Entry) => s.nt.places[p] = some e ∧ e.pinned = false ∧ e.state = .stale
      (∀ (p : Place) (e : Entry), s.nt.places[p] = some e → e.address = num f 1 →
        t.nt = written p { e with last := some b, age := 0, state := .heard }) ∧
      ((∀ (p : Place) (e : Entry), s.nt.places[p] = some e → e.address ≠ num f 1) →
        (∀ p : Place, s.nt.places[p] = none → (∀ q : Place, q < p → s.nt.places[q] ≠ none) →
          t.nt = written p fresh) ∧
        ((∀ p : Place, s.nt.places[p] ≠ none) →
          (∀ (p : Place) (e : Entry), replaceable p e → (∀ (q : Place) (d : Entry), replaceable q d → q ≠ p → d.age < e.age ∨ (d.age = e.age ∧ p < q)) →
            t.nt = written p fresh) ∧
          ((∀ (p : Place) (e : Entry), ¬replaceable p e) → t.nt = { s.nt with refused := min (s.nt.refused + 1) 255 })))

/-- FRAME_RECEIVED of an alert. A FLASH-ALERT sets its sender's entry to mode FLASH (R126), removes its notices (R144) and its
pending line alert (R159). A PREEMPT-ALERT for this station becomes the pending line alert or is counted as ignored (R159), and one
for another station is only counted as received (R115). -/
def Obligations.AlertsReachTheirBlocks : Prop :=
  ∀ (s : State) (img : Image) (last : Byte) (f : List Byte), GoodFromOther s img last f →
    (num f 2 = 0x51 → TableLaw s →
      ∃ t, exec (.frameReceived last) s = .next t ∧ Only [.lu, .nt, .pl, .pe] s t ∧ t.nt.refused = s.nt.refused ∧
        t.nt.passOver = s.nt.passOver ∧
        (∀ p : Place, t.nt.places[p] = (s.nt.places[p]).map fun e =>
          if e.address = num f 1 then { e with last := e.last.map fun b => { b with mode := .flash } } else e) ∧
        t.pl = { s.pl with queue := s.pl.queue.filter (fun n => n.sender ≠ num f 1), accepting := t.pl.accepting } ∧
        AcceptingFollows s t ∧
        t.pe = { s.pe with alert := if s.pe.alert.map (fun a => a.sender) = some (num f 1) then none else s.pe.alert }) ∧
    (num f 2 = 0x52 → num f 3 = img.address ∨ num f 3 = 63 →
      let r := img.cls .emergency
      let eta := 256 * num f 6 + num f 7
      let held := s.pe.alert.map (fun a => (a.sender, a.serial)) = some (num f 1, num f 4)
      ∃ t, exec (.frameReceived last) s = .next t ∧ Only [.lu, .pe] s t ∧
        (s.os.mode = .run → r.acceptAlerts = true → ¬held → t.pe = { s.pe with
          alert := some { sender := num f 1, serial := num f 4, countdown := eta - 10 * r.lineLead } }) ∧
        (s.os.mode ≠ .run ∨ r.acceptAlerts = false ∨ held → t.pe = { s.pe with ignored := min (s.pe.ignored + 1) 65535 })) ∧
    (num f 2 = 0x52 ∨ num f 2 = 0x53 → num f 3 ≠ img.address → num f 3 ≠ 63 →
      ∃ t, exec (.frameReceived last) s = .next t ∧ Only [.lu] s t)

/-- R123, the law of the neighbor table: no two entries with one address and none with the station's own. R124: the ages of HEARD
and STALE entries stay below their limits. Every step keeps each. -/
def Obligations.NeighborTableLawHolds : Prop := Kept TableLaw ∧ Kept AgeLaw

/-! ## Chapter 8: platoons -/

/-- NOTICE_FORMED (R136, R137), which a link whose exit detector is not of kind COUNT never has (R62), NOTICE_ACTIVATION (R141, R142),
NOTICE_END (R141) and PL's countdown at a tenth mark; the green timer of a link, counted at a tenth mark while the link's green
flag is set (R135). The rows stand for the edge or count that brings each about (log entry 4). -/
def Obligations.NoticesFormActivateAndEnd : Prop :=
  (∀ (p : Place) (s : State) (img : Image) (e : Entry) (l : Link) (d : Detector), s.cf.image = some img →
    s.nt.places[p] = some e → e.link = some l → l.exitDetector = some d → img.detectors[d].kind ≠ .count →
    exec (.noticeFormed p) s = .next s) ∧
  (∀ (p : Place) (s : State) (img : Image) (e : Entry) (l : Link) (d : Detector) (ls : LinkSend), s.cf.image = some img →
    s.nt.places[p] = some e → e.link = some l → s.pl.links[p] = some ls → l.exitDetector = some d →
    img.detectors[d].kind = .count → ls.green = true → ls.sent = false →
    ls.exitCount + 1 = l.threshold → l.threshold ≤ 255 →
    let accepts := e.state = .heard ∧ ∃ b, e.last = some b ∧ b.accepting = true
    let serial := (ls.serial + 1) % 256
    let f := TxFrame.platoon e.address serial ls.greenTimer (max 50 (min (l.threshold * l.headway) 600))
    let marked := { ls with exitCount := l.threshold, sent := true }
    ∃ t, exec (.noticeFormed p) s = .next t ∧ Only [.pl, .lu] s t ∧
      (¬accepts → t.lu = s.lu ∧ t.pl = { s.pl with
        links := put s.pl.links p (some marked), withheld := min (s.pl.withheld + 1) 65535 }) ∧
      (accepts → offerAnswer s.lu f = .refused → t.lu = s.lu ∧ t.pl = { s.pl with
        links := put s.pl.links p (some { marked with serial := serial }), withheld := min (s.pl.withheld + 1) 65535 }) ∧
      (accepts → offerAnswer s.lu f ≠ .refused → Offered f s t ∧ t.pl = { s.pl with
        links := put s.pl.links p (some { marked with serial := serial }) })) ∧
  (∀ (s : State) (n : Notice), PlatoonLaw s → n ∈ s.pl.queue →
    (n.active = false → n.t ≤ 1 →
      ∃ t, exec (.noticeActivation n.sender n.serial) s = .next t ∧ Only [.pl, .sq] s t ∧ StageCalled n.stage s t ∧
        t.pl = { s.pl with queue := t.pl.queue } ∧ t.pl.queue.Pairwise noticeOrder ∧
        t.pl.queue.Perm ({ n with t := 0, active := true } :: s.pl.queue.erase n)) ∧
    (n.active = true → n.remaining ≤ 1 →
      ∃ t, exec (.noticeEnd n.sender n.serial) s = .next t ∧ Only [.pl] s t ∧ AcceptingFollows s t ∧
        t.pl = { s.pl with queue := s.pl.queue.erase n, accepting := t.pl.accepting })) ∧
  (∀ s : State, PlatoonLaw s → tenthMark s = true →
    let t := plQueueWork s
    let due := fun n : Notice => n.active = false ∧ n.t ≤ 1
    Only [.pl, .sq] s t ∧ t.pl = { s.pl with queue := t.pl.queue, accepting := t.pl.accepting } ∧ AcceptingFollows s t ∧
      t.pl.queue.Pairwise noticeOrder ∧
      t.pl.queue.Perm (s.pl.queue.filterMap fun n =>
        if n.active = true then (if n.remaining ≤ 1 then none else some { n with remaining := n.remaining - 1 })
        else if n.t ≤ 1 then some { n with t := 0, active := true } else some { n with t := n.t - 1 }) ∧
      t.sq = { s.sq with calls := t.sq.calls } ∧
      ∀ g : Group, t.sq.calls[g] = true ↔ s.sq.calls[g] = true ∨
        ((∃ n ∈ s.pl.queue, due n ∧ inStage s n.stage g = true) ∧ s.ge[g].phase ≠ .green ∧ s.ge[g].phase ≠ .off)) ∧
  ∀ s : State,
    let t := plTimerWork s
    (tenthMark s = false → t = s) ∧
      (tenthMark s = true → Only [.pl] s t ∧ t.pl = { s.pl with links := t.pl.links } ∧ ∀ p : Place,
        (s.pl.links[p] = none → t.pl.links[p] = none) ∧
        ∀ l, s.pl.links[p] = some l →
          (l.green = true → t.pl.links[p] = some { l with greenTimer := min (l.greenTimer + 1) 65535 }) ∧
          (l.green = false → t.pl.links[p] = some l))

/-- FRAME_RECEIVED of a PLATOON for this station (R138, R139, R140): discarded outside the modes that take notices, counted as
unlinked or stale, ignored as a duplicate, or inserted in its place, with the last of 17 removed; a notice active from its insertion
places its calls, also where it is the one removed (log entry 18). -/
def Obligations.PlatoonNoticeIsExamined : Prop :=
  ∀ (s : State) (img : Image) (last : Byte) (f : List Byte), GoodFromOther s img last f → num f 2 = 0x53 →
    num f 3 = img.address ∨ num f 3 = 63 → TableLaw s → PlatoonLaw s →
    let sender := num f 1
    let serial := num f 4
    let duration := 256 * num f 7 + num f 8
    let taken := s.os.mode = .startRed ∨ s.os.mode = .run ∨ s.os.mode = .flashEntry
    ∃ t, exec (.frameReceived last) s = .next t ∧ Only [.lu, .pl, .sq] s t ∧
      (¬taken → t.pl = s.pl ∧ t.sq = s.sq) ∧
      (taken → (∀ (p : Place) (e : Entry) (l : Link), s.nt.places[p] = some e → e.address = sender → e.link = some l → l.inStage = none) →
        t.pl = { s.pl with unlinked := min (s.pl.unlinked + 1) 65535 } ∧ t.sq = s.sq) ∧
      (∀ (p : Place) (e : Entry) (l : Link) (st : Stage), taken → s.nt.places[p] = some e → e.address = sender → e.link = some l → l.inStage = some st →
        let arrives : Int := (l.travel : Int) - (256 * num f 5 + num f 6 : Nat)
        let x : Notice := { sender := sender, serial := serial, stage := st, t := arrives.toNat,
                            remaining := if 0 < arrives then duration else (duration + arrives).toNat,
                            active := decide (arrives ≤ 0), arrival := s.pl.nextArrival }
        (arrives + duration ≤ 0 → t.pl = { s.pl with stale := min (s.pl.stale + 1) 65535 } ∧ t.sq = s.sq) ∧
        (0 < arrives + duration → (∃ n ∈ s.pl.queue, n.sender = sender ∧ n.serial = serial) → t.pl = s.pl ∧ t.sq = s.sq) ∧
        (0 < arrives + duration → (∀ n ∈ s.pl.queue, ¬(n.sender = sender ∧ n.serial = serial)) →
          (0 < arrives → t.sq = s.sq) ∧ (arrives ≤ 0 → StageCalled st s t) ∧ AcceptingFollows s t ∧
          t.pl.queue.Pairwise noticeOrder ∧
          (s.pl.queue.length < 16 → t.pl.queue.Perm (x :: s.pl.queue) ∧ t.pl = { s.pl with
            queue := t.pl.queue, accepting := t.pl.accepting, nextArrival := s.pl.nextArrival + 1 }) ∧
          (s.pl.queue.length = 16 → (∃ y, (y :: t.pl.queue).Perm (x :: s.pl.queue) ∧ ∀ n ∈ t.pl.queue, noticeOrder n y) ∧
            t.pl = { s.pl with
              queue := t.pl.queue, accepting := t.pl.accepting, nextArrival := s.pl.nextArrival + 1,
              overflow := min (s.pl.overflow + 1) 65535 })))

/-- R139, the law of the platoon queue, with R143 for the accepting flag. Every step keeps it. -/
def Obligations.PlatoonQueueLawHolds : Prop := Kept PlatoonLaw

/-! ## Chapter 9: preemption -/

/-- R148 to R151, R153, R159: PE's work of a tick: the inhibit timer at a second mark in every mode, before the evaluation (log entry
48), and in RUN the samples and their filters, the tenth timers, and the request states by Table 9.2, where a line request that
falls due is raised after the rows that read the input (log entry 19); the service decisions follow. R155 at those decisions: a
higher class pushes a service in ENTRY, or in DWELL that does not end at that evaluation (log entry 3), and ends a service in EXIT.
That R157 is run at that end, and that the lockout of a stacked record leaves the line dwell timer as it is, are the model's readings
(log entry 20).
REQUEST_INPUT_ON (R148, R149, R152, R155), LINE_ALERT_COUNTDOWN_EXPIRY (R159), LINE_DWELL_EXPIRY (R149) and INHIBIT_EXPIRY (R149,
R150): the request state, and what it leads to: a service where none is active, a push of a lower class's, a wait behind a higher
one's. The clauses leave aside the states in which the open order of log entry 3 is at stake. A command placed waits for the Stage
Sequencer's next evaluation (log entry 24), and each of these rows advances the model's counter of free values (log entry 33). The
rows stand for the sample or count that brings each about (log entry 4). -/
def Obligations.RequestsRaiseServices : Prop :=
  (∀ (s : State) (img : Image), s.cf.image = some img → RequestLaw s →
    (s.os.mode ≠ .run → peWork s = s.withPe { s.pe with inhibit := inhibitDown s }) ∧
    (s.os.mode = .run → ∃ u, PeEvaluated img s u ∧ peWork s = serviceDecisions img u)) ∧
  (∀ (s : State) (img : Image) (v : Service) (c : PreClass) (y : Stage), s.pe.service = some v → higherClass c v.cls = true →
    s.pe.requested c = true → NoneAbove s c → (img.cls c).target = some y → 0 < (img.cls c).maxDwell →
    let t := serviceDecisions img s
    ((v.phase = .entry ∧ TargetAway img s v.cls) ∨ (v.phase = .dwell ∧ 0 < v.remaining ∧
        (s.pe.requested v.cls = true ∨ v.elapsed < 10 * (img.cls v.cls).minDwell)) →
      t.pe.stack = { cls := v.cls, remaining := v.remaining, phase := v.phase, fromLine := v.fromLine } :: s.pe.stack ∧
        t.pe.classes = s.pe.classes ∧ t.pe.inhibit = s.pe.inhibit ∧
        ServiceBegun (newService img c (s.pe.cls c).request) y s t) ∧
    (v.phase = .exit → StackLaw s → ∃ pe, InhibitApplied img v s.pe pe ∧ AfterService img pe s t)) ∧
  (∀ (c : PreClass) (s : State) (img : Image), s.cf.image = some img → s.os.mode = .run → (s.pe.cls c).filtered = false →
    10 * (img.cls c).onDelay ≤ (s.pe.cls c).count →
    ∃ t, exec (.requestInputOn c) s = .next t ∧ Only [.free, .pe, .sq, .lu] s t ∧ (t.pe.cls c).filtered = true ∧
      (t.pe.cls c).count = 0 ∧
      (∀ st, (s.pe.cls c).request = .none → s.pe.service = none → (∀ d, s.pe.requested d = false) →
        (img.cls c).target = some st → stageComplete s st = false →
        (t.pe.cls c).request = .requestedLocal ∧ ServiceStarted img c st false s t) ∧
      (∀ v st, (s.pe.cls c).request = .none → s.pe.service = some v → v.phase = .entry → TargetAway img s v.cls →
        higherClass c v.cls = true → NoneAbove s v.cls → (img.cls c).target = some st → stageComplete s st = false →
        (t.pe.cls c).request = .requestedLocal ∧ ServiceStarted img c st false s t ∧
          t.pe.stack = { cls := v.cls, remaining := v.remaining, phase := v.phase, fromLine := v.fromLine } :: s.pe.stack) ∧
      (∀ v, s.pe.service = some v → v.phase = .entry → TargetAway img s v.cls → higherClass c v.cls = false →
        NoneAbove s v.cls →
        t.pe.service = some v ∧ t.pe.stack = s.pe.stack ∧ t.pe.command = s.pe.command ∧ t.sq = s.sq ∧ t.lu = s.lu ∧
          ((s.pe.cls c).request = .none → (t.pe.cls c).request = .requestedLocal ∧ t.pe.lineDwell = s.pe.lineDwell) ∧
          ((s.pe.cls c).request = .requestedLine → (t.pe.cls c).request = .requestedLocal ∧ t.pe.lineDwell = 0) ∧
          ((s.pe.cls c).request = .lockedOut → (t.pe.cls c).request = .lockedOut))) ∧
  (∀ (s : State) (img : Image) (a : LineAlert), s.cf.image = some img → s.os.mode = .run → s.pe.alert = some a →
    a.countdown ≤ 1 →
    ∃ t, exec .lineAlertCountdownExpiry s = .next t ∧ Only [.free, .pe, .sq, .lu] s t ∧ t.pe.alert = none ∧
      (∀ st, (s.pe.cls .emergency).request = .none → s.pe.service = none → (∀ d, s.pe.requested d = false) →
        (img.cls .emergency).target = some st → stageComplete s st = false →
        (t.pe.cls .emergency).request = .requestedLine ∧ t.pe.lineDwell = 10 * (img.cls .emergency).lineDwell ∧
          ServiceStarted img .emergency st true s t) ∧
      (∀ v, s.pe.service = some v → v.cls = .rail → v.phase = .entry → TargetAway img s .rail →
        t.pe.service = some v ∧ t.sq = s.sq ∧ t.lu = s.lu ∧
          ((s.pe.cls .emergency).request = .none ∨ (s.pe.cls .emergency).request = .requestedLine →
            (t.pe.cls .emergency).request = .requestedLine ∧ t.pe.lineDwell = 10 * (img.cls .emergency).lineDwell) ∧
          ((s.pe.cls .emergency).request = .requestedLocal ∨ (s.pe.cls .emergency).request = .lockedOut →
            t.pe = { s.pe with alert := none }))) ∧
  ∀ (s : State) (img : Image), s.cf.image = some img → s.os.mode = .run →
    (s.pe.service = none ∧ (∀ d, d ≠ .emergency → s.pe.requested d = false)) ∨
      (∃ v, s.pe.service = some v ∧ v.cls = .rail ∧ v.phase = .entry ∧ TargetAway img s .rail) →
    ((s.pe.cls .emergency).request = .requestedLine → s.pe.lineDwell ≤ 1 →
      exec .lineDwellExpiry s = .next (nextFree (s.withPe { s.pe.setRequest .emergency .none with lineDwell := 0 }))) ∧
    ((s.pe.cls .transit).request = .inhibited → s.pe.inhibit ≤ 1 → (s.pe.cls .transit).filtered = false →
      s.pe.requested .emergency = false →
      exec .inhibitExpiry s = .next (nextFree (s.withPe { s.pe.setRequest .transit .none with inhibit := 0 }))) ∧
    ∀ st, (s.pe.cls .transit).request = .inhibited → s.pe.inhibit ≤ 1 → (s.pe.cls .transit).filtered = true →
      s.pe.requested .emergency = false → (img.cls .transit).target = some st → stageComplete s st = false →
      ∃ t, exec .inhibitExpiry s = .next t ∧ Only [.free, .pe, .sq, .lu] s t ∧ t.pe.inhibit = 0 ∧
        (t.pe.cls .transit).request = .requestedLocal ∧ (s.pe.service = none → ServiceStarted img .transit st false s t) ∧
        (s.pe.service ≠ none → t.pe.service = s.pe.service ∧ t.sq = s.sq)

/-- DWELL_ENTRY (R152, R153, R158), MIN_DWELL_EXPIRY and MAX_DWELL_EXPIRY (R153, R154) and SERVICE_END (R154, R157): the phases of a
service, the commands they place, the alert, the lockout, the inhibit and what follows the service: the records of
the stack that are not kept discarded, the kept one resumed, the service of another requested class started, or the command
released. A command placed waits for the Stage Sequencer's next
evaluation (log entry 24). The first three leave a service in EXIT also where its exit stage is its target, so that the end is seen
at a later evaluation (log entry 2). That max dwell ends DWELL where both its ends hold, and that the lockout of a stacked EMERGENCY
record leaves the line dwell timer as it is, are the model's readings (log entry 20). The rows stand for the count or evaluation that
brings each about (log entry 4). -/
def Obligations.ServicesDwellAndEnd : Prop :=
  (∀ (s : State) (img : Image) (v : Service) (st : Stage), s.cf.image = some img → s.os.mode = .run →
    s.pe.service = some v → v.phase = .entry → (img.cls v.cls).target = some st → stageComplete s st = true →
    ∃ t, exec .dwellEntry s = .next t ∧ Only [.pe, .sq, .lu] s t ∧
      (0 < v.remaining → s.pe.requested v.cls = true ∨ 0 < (img.cls v.cls).minDwell →
        DwellEntered img v st s t) ∧
      (v.remaining = 0 ∨ (s.pe.requested v.cls = false ∧ (img.cls v.cls).minDwell = 0) →
        ∃ u, Only [.pe, .sq, .lu] s u ∧ DwellEntered img v st s u ∧
          u.pe.service.map (fun w => (w.cls, w.phase, w.elapsed, w.remaining)) = some (v.cls, .dwell, 0, v.remaining) ∧
          let pe := if v.remaining = 0 then lockedOutBy v u.pe else u.pe
          (∀ x, ExitsBy img v.cls x → CommandPlaced x false u t ∧ t.pe.stack = s.pe.stack ∧ t.pe.classes = pe.classes ∧
            t.pe.lineDwell = pe.lineDwell ∧ t.pe.service.map (fun w => (w.cls, w.phase)) = some (v.cls, .exit)) ∧
          ((∀ x, ¬ExitsBy img v.cls x) → StackLaw s → ∃ pe', AfterService img pe' u t ∧
            (v.remaining = 0 → pe' = pe) ∧ (0 < v.remaining → InhibitApplied img v pe pe'))) ∧
      (∀ x, v.remaining = 0 → ExitsBy img v.cls x →
        (t.pe.cls v.cls).request = .lockedOut ∧ t.pe.service.map (fun w => w.phase) = some .exit ∧
          t.pe.command = some (x, false)) ∧
      (v.remaining = 0 → (∀ x, ¬ExitsBy img v.cls x) → s.pe.stack = [] →
        (t.pe.cls v.cls).request = .lockedOut ∧
        ((∀ d, d ≠ v.cls → s.pe.requested d = false) → t.pe.service = none ∧ t.pe.command = none) ∧
        ∀ c y, c ≠ v.cls → s.pe.requested c = true → (∀ d, higherClass d c = true → d ≠ v.cls → s.pe.requested d = false) →
          (img.cls c).target = some y →
          t.pe.service.map (fun w => (w.cls, w.phase)) = some (c, if stageComplete s y = true then .dwell else .entry))) ∧
  (∀ (s : State) (img : Image) (v : Service), s.cf.image = some img → s.os.mode = .run → s.pe.service = some v →
    v.phase = .dwell →
    (s.pe.requested v.cls = false → 0 < v.remaining → 10 * (img.cls v.cls).minDwell ≤ v.elapsed + 1 →
      ∃ t, exec .minDwellExpiry s = .next t ∧ Only [.pe, .sq, .lu] s t ∧
        ((∀ x, ¬ExitsBy img v.cls x) → StackLaw s → ∃ pe, InhibitApplied img v s.pe pe ∧ AfterService img pe s t) ∧
        (∀ x, ExitsBy img v.cls x → CommandPlaced x false s t ∧ t.lu = s.lu ∧ t.pe = { s.pe with
          command := some (x, false), service := some { v with phase := .exit, elapsed := min (v.elapsed + 1) 6000 } }) ∧
        ((∀ x, ¬ExitsBy img v.cls x) → s.pe.stack = [] → (∀ d, s.pe.requested d = false) →
          (v.cls ≠ .transit → ServiceGone s.pe s t) ∧
          (v.cls = .transit → v.byMax = false → 0 < (img.cls .transit).inhibit →
            ServiceGone { s.pe.setRequest .transit .inhibited with inhibit := (img.cls .transit).inhibit } s t) ∧
          (v.cls = .transit → v.byMax = false → (img.cls .transit).inhibit = 0 →
            InhibitSkipped img s t))) ∧
    (v.remaining ≤ 1 → (∀ x, ¬ExitsBy img v.cls x) → StackLaw s →
      ∃ t, exec .maxDwellExpiry s = .next t ∧ Only [.pe, .sq, .lu] s t ∧ AfterService img (lockedOutBy v s.pe) s t) ∧
    (v.remaining ≤ 1 → ∀ x, ExitsBy img v.cls x →
      ∃ t, exec .maxDwellExpiry s = .next t ∧ Only [.pe, .sq, .lu] s t ∧ CommandPlaced x false s t ∧ t.lu = s.lu ∧
        t.pe = { s.pe.setRequest v.cls .lockedOut with
          command := some (x, false), service := some { v with remaining := 0, phase := .exit, byMax := true },
          lineDwell := if v.cls = .emergency then 0 else s.pe.lineDwell })) ∧
  ∀ (s : State) (img : Image) (v : Service) (x : Stage), s.cf.image = some img → s.os.mode = .run →
    s.pe.service = some v → v.phase = .exit → ExitsBy img v.cls x → stageComplete s x = true →
    ∃ t, exec .serviceEnd s = .next t ∧ Only [.pe, .sq, .lu] s t ∧
      (StackLaw s → ∃ pe, InhibitApplied img v s.pe pe ∧ AfterService img pe s t) ∧
      (s.pe.stack = [] → (∀ d, s.pe.requested d = false) →
        (v.cls ≠ .transit ∨ v.byMax = true → ServiceGone s.pe s t) ∧
        (v.cls = .transit → v.byMax = false → 0 < (img.cls .transit).inhibit →
          ServiceGone { s.pe.setRequest .transit .inhibited with inhibit := (img.cls .transit).inhibit } s t) ∧
        (v.cls = .transit → v.byMax = false → (img.cls .transit).inhibit = 0 → InhibitSkipped img s t)) ∧
      (∀ r rest y, s.pe.stack = r :: rest → v.cls ≠ .transit → s.pe.requested r.cls = true → 0 < r.remaining →
        NoneAbove s r.cls → (img.cls r.cls).target = some y → stageComplete s y = false →
        CommandPlaced y (decide (r.cls ≠ .transit)) s t ∧ t.lu = s.lu ∧ t.pe = { s.pe with
          stack := rest, command := some (y, decide (r.cls ≠ .transit)),
          service := some { cls := r.cls, phase := .entry, elapsed := 0, remaining := r.remaining, fromLine := r.fromLine,
                            alertSent := decide (r.phase = .dwell), byMax := false } }) ∧
      ∀ c y, s.pe.stack = [] → v.cls ≠ .transit → s.pe.requested c = true → NoneAbove s c → (img.cls c).target = some y →
        stageComplete s y = false →
        ServiceStarted img c y (decide ((s.pe.cls c).request = .requestedLine)) s t

/-- R156, the law of the service stack. R149: REQUESTED-LINE is reached by EMERGENCY only, and INHIBITED by TRANSIT only. Every step
keeps each. -/
def Obligations.ServiceStackLawHolds : Prop := Kept StackLaw ∧ Kept RequestLaw

/-! ## Chapter 10: modes and the conflict monitor -/

/-- MODE_TIMER_EXPIRY (R164, R165, R40): START FLASH ends in START RED, and START RED in RUN with the change toward the start stage.
CONFLICT and MISMATCH (R172, R173, R174): the fault is recorded with the mode at the time, and FAULT FLASH is entered; a lamp
commanded flashing, whose count stands at 0 after each evaluation, has no MISMATCH. The rows
stand for the count that brings each about (log entry 4). -/
def Obligations.ModeEventsEnterTheirModes : Prop :=
  (∀ (s : State) (img : Image), s.cf.image = some img → s.os.timer ≤ 1 →
    (s.os.mode = .startFlash → ∃ t, exec .modeTimerExpiry s = .next t ∧ Only [.os, .ge, .sq, .pl] s t ∧
      EnteredStartRed img s t ∧ GreensEnded s t ∧ t.os.fault = s.os.fault ∧ t.os.additional = s.os.additional) ∧
    ∀ st, s.os.mode = .startRed → img.startStage = some st →
      ∃ t, exec .modeTimerExpiry s = .next t ∧ Only [.os, .ge, .sq] s t ∧
        t.os = { s.os with mode := .run, timer := 0 } ∧
        t.sq = { s.sq with target := some st, phase := .changing, changeTruncating := false, entering := t.sq.entering } ∧
        ∀ g : Group, t.ge[g] = if img.stages[st].groups[g] = true then { s.ge[g] with entry := true } else s.ge[g]) ∧
  (∀ (a b : Group) (s : State) (img : Image), s.cf.image = some img →
    s.os.mode = .startRed ∨ s.os.mode = .run ∨ s.os.mode = .flashEntry → a < b → img.conflicts a b = true →
    19 ≤ s.os.conflict[a][b] →
    ∃ t, exec (.conflict a b) s = .next t ∧ Only [.os, .ge, .sq, .pl, .pe, .lu] s t ∧ EnteredFlash img .faultFlash .fault s t ∧
      t.os.fault = some { cause := .conflict a b, mode := s.os.mode } ∧ t.os.additional = min s.os.additional 255) ∧
  (∀ (ch : Group) (l : Lamp) (s : State) (p : Phase), lampCommand s ch l = .flashing p →
    exec (.mismatch ch l) s = .next s) ∧
  ∀ (ch : Group) (l : Lamp) (s : State) (img : Image), s.cf.image = some img →
    lampCommand s ch l = .steady ∨ lampCommand s ch l = .off → s.os.mode = .startRed ∨ s.os.mode = .run ∨ s.os.mode = .flashEntry → 49 ≤ s.os.mismatch[ch][lampIndex l] →
    ∃ t, exec (.mismatch ch l) s = .next t ∧ Only [.os, .ge, .sq, .pl, .pe, .lu] s t ∧ EnteredFlash img .faultFlash .fault s t ∧
      t.os.fault = some { cause := .mismatch ch l, mode := s.os.mode } ∧ t.os.additional = min s.os.additional 255

/-- R171 to R174: one evaluation of the monitor. The conflict count of a pair goes up while both groups show right-of-way by their
sensed lamps, and the mismatch count of a lamp while its sensed state disagrees with a steady or off command; either goes to 0
otherwise. With no count at its limit nothing else happens; else FAULT FLASH is entered, the first pair in order, or with no pair
the first lamp, is recorded, and the additional faults counter goes up by one for each further condition of the same evaluation, to
255. -/
def Obligations.MonitorCountsAndLatches : Prop :=
  ∀ (s : State) (img : Image), s.cf.image = some img →
    (s.os.mode ≠ .startRed ∧ s.os.mode ≠ .run ∧ s.os.mode ≠ .flashEntry → monitorWork s = s) ∧
    (s.os.mode = .startRed ∨ s.os.mode = .run ∨ s.os.mode = .flashEntry →
      let shows := fun g : Group => sensed s g .green = true ∨ (img.groups[g].kind = .vehicle ∧ sensed s g .amber = true)
      let wrong := fun (ch : Group) (l : Lamp) => (lampCommand s ch l = .steady ∧ sensed s ch l = false) ∨
        (lampCommand s ch l = .off ∧ sensed s ch l = true)
      ∃ (pairs : Vector (Vector Nat 16) 16) (lit : Vector (Vector Nat 3) 16),
        (∀ a b : Group, (a < b ∧ img.conflicts a b = true ∧ shows a ∧ shows b → pairs[a][b] = min (s.os.conflict[a][b] + 1) 20) ∧
          (¬(a < b ∧ img.conflicts a b = true ∧ shows a ∧ shows b) → pairs[a][b] = 0)) ∧
        (∀ (ch : Group) (l : Lamp),
          (wrong ch l → lit[ch][lampIndex l] = min (s.os.mismatch[ch][lampIndex l] + 1) 50) ∧
          (¬wrong ch l → lit[ch][lampIndex l] = 0)) ∧
        let conditions := ((List.finRange 16).map fun a => (List.finRange 16).countP fun b => decide (20 ≤ pairs[a][b])).sum +
          ((List.finRange 16).map fun ch => (List.finRange 3).countP fun i => decide (50 ≤ lit[ch][i])).sum
        ((∀ a b : Group, pairs[a][b] < 20) → (∀ (ch : Group) (l : Lamp), lit[ch][lampIndex l] < 50) →
          monitorWork s = s.withOs { s.os with conflict := pairs, mismatch := lit }) ∧
        (∀ a b : Group, 20 ≤ pairs[a][b] → (∀ x y : Group, 20 ≤ pairs[x][y] → a < x ∨ (a = x ∧ b ≤ y)) →
          EnteredFlash img .faultFlash .fault s (monitorWork s) ∧
            (monitorWork s).os.fault = some { cause := .conflict a b, mode := s.os.mode } ∧
            (monitorWork s).os.additional = min (s.os.additional + (conditions - 1)) 255) ∧
        ∀ (ch : Group) (l : Lamp), 50 ≤ lit[ch][lampIndex l] → (∀ a b : Group, pairs[a][b] < 20) →
          (∀ (x : Group) (k : Lamp), 50 ≤ lit[x][lampIndex k] → ch < x ∨ (ch = x ∧ lampIndex l ≤ lampIndex k)) →
          EnteredFlash img .faultFlash .fault s (monitorWork s) ∧
            (monitorWork s).os.fault = some { cause := .mismatch ch l, mode := s.os.mode } ∧
            (monitorWork s).os.additional = min (s.os.additional + (conditions - 1)) 255)

/-- R174, the law of the fault latch: while a fault is recorded the station is in FAULT FLASH and every channel follows its flash
pattern. Every step keeps it. -/
def Obligations.FaultLatchLawHolds : Prop := Kept FaultLaw

/-- MANUAL_FLASH_ON and MANUAL_FLASH_OFF (R168, R165, R15, R45, R160), RESTART and RELOAD (R170) where they have their effect, RELOAD
also in NO-PLAN FLASH, where no image is held. PE's
messages still waiting are dropped as RUN is left (log entry 24), and RESTART clears the additional faults counter from MANUAL FLASH
too (log entry 37). A RESTART that a TICK delivers leaves START RED with its whole time to run (R164). -/
def Obligations.ModeCommandsEnterTheirModes : Prop :=
  (∀ (s : State) (img : Image), s.cf.image = some img →
    (s.os.mode = .run → (∀ v, s.pe.service = some v → v.cls ≠ .rail) →
      ∃ t, exec .manualFlashOn s = .next t ∧ Only [.os, .ge, .sq, .pe, .mp] s t ∧ t.mp.response = [0x81] ∧
        t.os = { s.os with mode := .flashEntry, timer := 0 } ∧ t.sq = { s.sq with haltRequest := true, arrivals := [] } ∧
        ServiceCancelled s t ∧ ∀ g : Group, t.ge[g] = { s.ge[g] with
          entry := false, leave := if s.ge[g].phase = .green ∧ s.ge[g].leave = none then some .ordinary else s.ge[g].leave }) ∧
    (s.os.mode = .flashEntry ∨ s.os.mode = .manualFlash → TurnedAway 0x81 .manualFlashOn s) ∧
    (s.os.mode = .manualFlash → ∃ t, exec .manualFlashOff s = .next t ∧ Only [.os, .ge, .sq, .pl, .mp] s t ∧
      t.mp.response = [0x81] ∧ EnteredStartRed img s t ∧ GreensEnded s t ∧ t.os.fault = s.os.fault) ∧
    (s.os.mode = .manualFlash ∨ s.os.mode = .faultFlash →
      ∃ t, exec .restart s = .next t ∧ Only [.os, .ge, .sq, .pl, .pe, .mp] s t ∧ t.mp.response = [0x81] ∧
        EnteredStartRed img s t ∧ t.os.fault = none ∧ t.os.additional = 0 ∧ QueueEmptied t.pl ∧
        (∀ p : Place, t.pl.links[p] = (s.pl.links[p]).map fun l =>
          { green := false, greenTimer := 0, exitCount := 0, sent := false, serial := l.serial }) ∧
        PreemptionCleared t.pe ∧ t.pe.alertSerial = s.pe.alertSerial ∧ t.pe.withheld = s.pe.withheld ∧
        t.pe.ignored = s.pe.ignored) ∧
    (∀ (d : BitVec 24) (r : BitVec 3) (x : BitVec 48), s.os.mode = .manualFlash ∨ s.os.mode = .faultFlash →
      s.mp.phase = .pending → s.mp.code = 0x40 →
      ∃ t, exec (.tick d r x) s = .next t ∧ t.os.mode = .startRed ∧ t.os.timer = img.startRed)) ∧
  ∀ s : State,
    s.os.mode = .startFlash ∨ s.os.mode = .manualFlash ∨ s.os.mode = .faultFlash ∨ s.os.mode = .noPlanFlash →
    ∃ t, exec .reload s = .next t ∧ Only [.os, .cf, .ge, .sq, .du, .ck, .lu, .nt, .pl, .pe, .mp] s t ∧
      t.mp.response = [0x81] ∧ SupervisorReset t.os ∧ LoadBegun t.cf ∧ GroupsOff t ∧ SequencerStopped t.sq ∧
      CallsCleared t.sq ∧ DetectorsReset t ∧ ClockCleared t.ck ∧ t.lu.access = .disabled ∧ LineQuiet t.lu ∧
      t.lu.sequence = 0 ∧ t.lu.counters = s.lu.counters ∧ t.lu.clash = s.lu.clash ∧
      (∀ p : Place, t.nt.places[p] = none ∧ t.nt.passOver[p] = false) ∧ t.nt.refused = s.nt.refused ∧ QueueEmptied t.pl ∧
      (∀ p : Place, t.pl.links[p] = none) ∧ t.pl.withheld = s.pl.withheld ∧ t.pl.unlinked = s.pl.unlinked ∧
      t.pl.stale = s.pl.stale ∧ t.pl.overflow = s.pl.overflow ∧ PreemptionCleared t.pe ∧ t.pe.alertSerial = 0 ∧
      t.pe.withheld = s.pe.withheld ∧ t.pe.ignored = s.pe.ignored

/-! ## Chapter 11: the Maintenance Port -/

/-- SELECT_FALL, SELECT_RISE and SPI_BYTE_TRANSFER (R182, R183, Table 11.3), and the delivery of a PENDING command at the next
TICK: after it the transaction is in ANSWER, with a status byte to shift out, and data only after ACCEPTED. -/
def Obligations.TransactionMovesByteByByte : Prop :=
  (∀ s : State,
    (s.pins.selectLow = false → exec .selectFall s = .next ((s.withPins { s.pins with selectLow := true }).withMp
      { s.mp with phase := .code, code := 0, args := [], shift := [], ignoring := false })) ∧
    (s.pins.selectLow = true → exec .selectRise s = .next ((s.withPins { s.pins with selectLow := false }).withMp
      { s.mp with phase := .idle, code := 0, args := [], shift := [], ignoring := false }))) ∧
  (∀ (b : Byte) (s : State), s.pins.selectLow = true →
    let arguments := fun code : Byte =>
      if code = 0x10 then 3 else if code = 0x20 ∨ code = 0x21 ∨ code = 0x50 then 1 else 0
    (s.mp.phase = .idle ∨ s.mp.phase = .pending → exec (.spiByteTransfer b) s = .next (s.withMp { s.mp with miso := 0 })) ∧
    (s.mp.phase = .code → exec (.spiByteTransfer b) s = .next (s.withMp { s.mp with
      miso := 0, code := b, args := [], phase := if arguments b = 0 then .pending else .arguments })) ∧
    (s.mp.phase = .arguments → exec (.spiByteTransfer b) s = .next (s.withMp { s.mp with
      miso := 0, args := s.mp.args ++ [b],
      phase := if s.mp.args.length + 1 = arguments s.mp.code then .pending else .arguments })) ∧
    (s.mp.phase = .answer → ∀ x rest, s.mp.shift = x :: rest →
      exec (.spiByteTransfer b) s = .next (s.withMp { s.mp with miso := x, shift := rest })) ∧
    (s.mp.phase = .answer → s.mp.shift = [] → exec (.spiByteTransfer b) s = .next (s.withMp { s.mp with miso := 0 }))) ∧
  ∀ (d : BitVec 24) (r : BitVec 3) (x : BitVec 48) (s : State), s.mp.phase = .pending →
    ∃ t status data, exec (.tick d r x) s = .next t ∧ t.mp.phase = .answer ∧ t.mp.shift = status :: data ∧
      t.mp.response = status :: data ∧ (status = 0x81 ∨ ((status = 0x82 ∨ status = 0x84 ∨ status = 0x88) ∧ data = []))

/-- R183, R184, Table 11.5: the status byte of every command by the station mode and its argument, and that a command turned away
has no effect. A BLOCK RESTART reaches its rows with an argument of 1 to 3 only; with any other a TICK answers it INVALID. -/
def Obligations.CommandsAnswerByTheTable : Prop :=
  ∀ s : State,
    (s.os.mode = .loading → ∀ c : Instr,
      (c ∈ [.status, .readGroups, .readNeighbors, .readPlatoons, .readPreemption, .manualFlashOn, .manualFlashOff, .restart,
          .reload, .blockRestartLine, .blockRestartNeighbors, .blockRestartDetectors] ∨ (∃ m, c = .exchangePending m) ∨
        (∃ a, c = .placeCall a) ∨ (∃ a, c = .selectPlan a) ∨ ∃ k : Byte, c = .unknownCommand k ∧ k.toNat ∉ knownCodes) →
      TurnedAway 0x82 c s) ∧
    (s.os.mode ≠ .loading →
      (∀ k : Byte, k.toNat ∉ knownCodes → TurnedAway 0x88 (.unknownCommand k) s) ∧
      (∀ a : Byte,
        ((∃ g : Group, a.toNat = g.val + 1 ∧ groupEnabled s g = true) → Answered 0x81 (.placeCall a) s) ∧
        (¬(∃ g : Group, a.toNat = g.val + 1 ∧ groupEnabled s g = true) → TurnedAway 0x88 (.placeCall a) s) ∧
        (a.toNat = 0 ∨ 4 < a.toNat → TurnedAway 0x88 (.selectPlan a) s) ∧
        (1 ≤ a.toNat → a.toNat ≤ 4 → s.os.mode = .noPlanFlash → TurnedAway 0x84 (.selectPlan a) s) ∧
        (1 ≤ a.toNat → a.toNat ≤ 4 → s.os.mode ≠ .noPlanFlash → Answered 0x81 (.selectPlan a) s)) ∧
      (∀ c : Instr, c ∈ [.status, .readGroups, .readNeighbors, .readPlatoons, .readPreemption] ∨ (∃ m, c = .exchangePending m) →
        ∃ t data, exec c s = .next t ∧ t.mp.response = 0x81 :: data) ∧
      (∀ c : Instr, c ∈ [.blockRestartLine, .blockRestartNeighbors, .blockRestartDetectors] → Answered 0x81 c s) ∧
      (s.os.mode = .run → (∀ v, s.pe.service = some v → v.cls ≠ .rail) → Answered 0x81 .manualFlashOn s) ∧
      (s.os.mode = .flashEntry ∨ s.os.mode = .manualFlash → TurnedAway 0x81 .manualFlashOn s) ∧
      (s.os.mode = .run → (∃ v, s.pe.service = some v ∧ v.cls = .rail) → TurnedAway 0x84 .manualFlashOn s) ∧
      (s.os.mode = .startFlash ∨ s.os.mode = .startRed ∨ s.os.mode = .faultFlash ∨ s.os.mode = .noPlanFlash →
        TurnedAway 0x84 .manualFlashOn s) ∧
      (s.os.mode = .manualFlash → Answered 0x81 .manualFlashOff s) ∧
      (s.os.mode ≠ .manualFlash → TurnedAway 0x84 .manualFlashOff s) ∧
      (s.os.mode = .manualFlash ∨ s.os.mode = .faultFlash → Answered 0x81 .restart s) ∧
      (s.os.mode ≠ .manualFlash → s.os.mode ≠ .faultFlash → TurnedAway 0x84 .restart s) ∧
      (s.os.mode = .startRed ∨ s.os.mode = .run ∨ s.os.mode = .flashEntry → TurnedAway 0x84 .reload s) ∧
      (s.os.mode = .startFlash ∨ s.os.mode = .manualFlash ∨ s.os.mode = .faultFlash ∨ s.os.mode = .noPlanFlash →
        Answered 0x81 .reload s)) ∧
    ∀ (d : BitVec 24) (r : BitVec 3) (x : BitVec 48) (a : Byte), s.mp.phase = .pending → s.mp.code = 0x50 → s.mp.args = [a] →
      ∃ t, exec (.tick d r x) s = .next t ∧ t.mp.shift =
        if s.os.mode = .loading then [0x82] else if 1 ≤ a.toNat ∧ a.toNat ≤ 3 then [0x81] else [0x88]

/-- STATUS (R176), READ_GROUPS (R20), READ_NEIGHBORS (R133), READ_PLATOONS (R146) and READ_PREEMPTION (R162), Tables 11.4 and 11.8:
outside LOADING each is ACCEPTED with the data length of its layout and changes nothing but the answer; the fields named here stand
in their places. -/
def Obligations.ReadCommandsShowTheState : Prop :=
  ∀ s : State, s.os.mode ≠ .loading →
    (∃ t data, exec .status s = .next t ∧ Only [.mp] s t ∧ t.mp.response = 0x81 :: data ∧ data.length = 114 ∧
      num data 0 = modeCode s.os.mode ∧ num16 data 1 = s.os.timer % 65536 ∧ num16 data 6 = s.tb.m % 65536 ∧
      num data 36 = optNum s.sq.current ∧ num data 37 = optNum s.sq.target ∧ num16 data 58 = s.ck.c % 65536 ∧
      num16 data 60 = s.ck.o % 65536 ∧ num16 data 62 = s.ck.p % 65536 ∧ num16 data 64 = reference s % 65536 ∧
      (num16 data 67 : Int) = s.ck.b % 65536 ∧ num data 81 = accessCode s.lu.access ∧
      num16 data 98 = s.lu.counters.sent % 65536 ∧ num16 data 112 = s.lu.counters.clashes % 65536) ∧
    (∃ t data, exec .readGroups s = .next t ∧ Only [.mp] s t ∧ t.mp.response = 0x81 :: data ∧ data.length = 112 ∧
      ∀ g : Group, num data (7 * g.val) = groupCode s.ge[g].phase ∧
        num16 data (7 * g.val + 2) = s.ge[g].timer % 65536 ∧ num data (7 * g.val + 4) = s.ge[g].e % 256) ∧
    (∃ t data, exec .readNeighbors s = .next t ∧ Only [.mp] s t ∧ t.mp.response = 0x81 :: data ∧ data.length = 121 ∧
      num data 120 = s.nt.refused % 256 ∧
      ∀ p : Place, (s.nt.places[p] = none → num data (15 * p.val) = 0) ∧
        ∀ e, s.nt.places[p] = some e → num data (15 * p.val) = (if e.pinned = true then 1 else 2) ∧
          num data (15 * p.val + 1) = e.address % 256 ∧ num data (15 * p.val + 2) = entryCode e.state) ∧
    (∃ t data, exec .readPlatoons s = .next t ∧ Only [.mp] s t ∧ t.mp.response = 0x81 :: data ∧ data.length = 186 ∧
      num data 0 = s.pl.queue.length % 256 ∧ num data 1 = (if s.pl.accepting = true then 1 else 0) ∧
      num16 data 178 = s.pl.withheld % 65536 ∧ num16 data 184 = s.pl.overflow % 65536) ∧
    ∃ t data, exec .readPreemption s = .next t ∧ Only [.mp] s t ∧ t.mp.response = 0x81 :: data ∧ data.length = 46 ∧
      (∀ c, num data (6 * (classIndex c).val) = requestCode (s.pe.cls c).request) ∧
      num data 18 = classCode (s.pe.service.map fun v => v.cls) ∧ num data 41 = s.pe.alertSerial % 256

/-- EXCHANGE_PENDING (R56), PLACE_CALL (R25), SELECT_PLAN (R132) and the block restarts (R63, R128, R78, R117) where each is
ACCEPTED: the answer, the effect and what stays. -/
def Obligations.CommandsActOnTheirBlocks : Prop :=
  ∀ s : State, s.os.mode ≠ .loading →
    (∀ mask : BitVec 24, ∃ t a b c, exec (.exchangePending mask) s = .next t ∧ Only [.du, .mp] s t ∧
      t.mp.response = [0x81, a, b, c] ∧
      (∀ d : Detector, (65536 * a.toNat + 256 * b.toNat + c.toNat).testBit d.val = s.du[d].pending) ∧
      ∀ d : Detector, t.du[d] = { s.du[d] with pending := s.du[d].pending && !mask.getLsbD d.val }) ∧
    (∀ (arg : Byte) (g : Group), arg.toNat = g.val + 1 → groupEnabled s g = true →
      ∃ t, exec (.placeCall arg) s = .next t ∧ Only [.sq, .mp] s t ∧ t.mp.response = [0x81] ∧ t.sq = { s.sq with
        calls := if s.ge[g].phase = .green ∨ s.ge[g].phase = .off then s.sq.calls else put s.sq.calls g true }) ∧
    (∀ (arg : Byte) (p : Plan) (img : Image), arg.toNat = p.val + 1 → s.cf.image = some img → s.os.mode ≠ .noPlanFlash →
      ∃ t, exec (.selectPlan arg) s = .next t ∧ Only [.ck, .mp] s t ∧ t.mp.response = [0x81] ∧
        t.ck = if s.ck.active = some p ∧ s.ck.pendingPlan = some p then s.ck
          else { s.ck with pendingPlan := some p, planHold := 60 * img.planHold }) ∧
    (∃ t, exec .blockRestartDetectors s = .next t ∧ Only [.du, .mp] s t ∧ t.mp.response = [0x81] ∧
      (s.cf.image ≠ none → DetectorsReset t) ∧ (s.cf.image = none → t.du = s.du)) ∧
    (∃ t, exec .blockRestartNeighbors s = .next t ∧ Only [.nt, .ck, .mp] s t ∧ t.mp.response = [0x81] ∧ t.nt.refused = 0 ∧
      (∀ p : Place, t.nt.places[p] = (s.nt.places[p]).bind fun e =>
        if e.pinned = true then some { e with state := .absent, last := none, age := 65535 } else none) ∧
      (∀ p : Place, t.nt.passOver[p] = false) ∧
      (coordinatedActive s = true → t.ck = { s.ck with b := 0, hold := 0, unsync := true, unsyncCount := 0 }) ∧
      (coordinatedActive s = false → t.ck = { s.ck with b := 0, hold := 0 })) ∧
    ∃ t, exec .blockRestartLine s = .next t ∧ Only [.lu, .ck, .mp] s t ∧ t.mp.response = [0x81] ∧ LineCountersZero t.lu ∧
      (s.lu.access = .disabled → t.ck = s.ck ∧ t.lu = { s.lu with counters := t.lu.counters, clash := false }) ∧
      (s.lu.access ≠ .disabled → t.lu.access = .idle ∧ LineQuiet t.lu ∧
        t.lu.sequence = BitVec.ofNat 16 (stationAddress s) ∧
        ((∃ q ∈ s.lu.queue, q.frame = .beacon) ∨ s.lu.inHand.map (fun h => h.frame) = some .beacon →
          t.ck = { s.ck with beaconCount := 0 }) ∧
        ((∀ q ∈ s.lu.queue, q.frame ≠ .beacon) → s.lu.inHand.map (fun h => h.frame) ≠ some .beacon → t.ck = s.ck))

end
end

