-- ==== Sys2Proof/Laws/State.lean ====
section
/-! SUPPORT. Laws/State.lean: one lemma per block per update of the state, so that no later proof unfolds a record update. -/

namespace Sys2Proof.Machine

variable (s : State)

@[simp] theorem State.withFree_free (x : Nat) : (s.withFree x).free = x := rfl
@[simp] theorem State.withFree_pins (x : Nat) : (s.withFree x).pins = s.pins := rfl
@[simp] theorem State.withFree_tb (x : Nat) : (s.withFree x).tb = s.tb := rfl
@[simp] theorem State.withFree_os (x : Nat) : (s.withFree x).os = s.os := rfl
@[simp] theorem State.withFree_cf (x : Nat) : (s.withFree x).cf = s.cf := rfl
@[simp] theorem State.withFree_ge (x : Nat) : (s.withFree x).ge = s.ge := rfl
@[simp] theorem State.withFree_sq (x : Nat) : (s.withFree x).sq = s.sq := rfl
@[simp] theorem State.withFree_du (x : Nat) : (s.withFree x).du = s.du := rfl
@[simp] theorem State.withFree_ck (x : Nat) : (s.withFree x).ck = s.ck := rfl
@[simp] theorem State.withFree_lu (x : Nat) : (s.withFree x).lu = s.lu := rfl
@[simp] theorem State.withFree_nt (x : Nat) : (s.withFree x).nt = s.nt := rfl
@[simp] theorem State.withFree_pl (x : Nat) : (s.withFree x).pl = s.pl := rfl
@[simp] theorem State.withFree_pe (x : Nat) : (s.withFree x).pe = s.pe := rfl
@[simp] theorem State.withFree_mp (x : Nat) : (s.withFree x).mp = s.mp := rfl
@[simp] theorem State.withFree_pending (x : Nat) : (s.withFree x).pending = s.pending := rfl
@[simp] theorem State.withFree_withFree (x y : Nat) : (s.withFree x).withFree y = s.withFree y := rfl

@[simp] theorem State.withPins_free (x : Pins) : (s.withPins x).free = s.free := rfl
@[simp] theorem State.withPins_pins (x : Pins) : (s.withPins x).pins = x := rfl
@[simp] theorem State.withPins_tb (x : Pins) : (s.withPins x).tb = s.tb := rfl
@[simp] theorem State.withPins_os (x : Pins) : (s.withPins x).os = s.os := rfl
@[simp] theorem State.withPins_cf (x : Pins) : (s.withPins x).cf = s.cf := rfl
@[simp] theorem State.withPins_ge (x : Pins) : (s.withPins x).ge = s.ge := rfl
@[simp] theorem State.withPins_sq (x : Pins) : (s.withPins x).sq = s.sq := rfl
@[simp] theorem State.withPins_du (x : Pins) : (s.withPins x).du = s.du := rfl
@[simp] theorem State.withPins_ck (x : Pins) : (s.withPins x).ck = s.ck := rfl
@[simp] theorem State.withPins_lu (x : Pins) : (s.withPins x).lu = s.lu := rfl
@[simp] theorem State.withPins_nt (x : Pins) : (s.withPins x).nt = s.nt := rfl
@[simp] theorem State.withPins_pl (x : Pins) : (s.withPins x).pl = s.pl := rfl
@[simp] theorem State.withPins_pe (x : Pins) : (s.withPins x).pe = s.pe := rfl
@[simp] theorem State.withPins_mp (x : Pins) : (s.withPins x).mp = s.mp := rfl
@[simp] theorem State.withPins_pending (x : Pins) : (s.withPins x).pending = s.pending := rfl
@[simp] theorem State.withPins_withPins (x y : Pins) : (s.withPins x).withPins y = s.withPins y := rfl

@[simp] theorem State.withTb_free (x : TimeBase) : (s.withTb x).free = s.free := rfl
@[simp] theorem State.withTb_pins (x : TimeBase) : (s.withTb x).pins = s.pins := rfl
@[simp] theorem State.withTb_tb (x : TimeBase) : (s.withTb x).tb = x := rfl
@[simp] theorem State.withTb_os (x : TimeBase) : (s.withTb x).os = s.os := rfl
@[simp] theorem State.withTb_cf (x : TimeBase) : (s.withTb x).cf = s.cf := rfl
@[simp] theorem State.withTb_ge (x : TimeBase) : (s.withTb x).ge = s.ge := rfl
@[simp] theorem State.withTb_sq (x : TimeBase) : (s.withTb x).sq = s.sq := rfl
@[simp] theorem State.withTb_du (x : TimeBase) : (s.withTb x).du = s.du := rfl
@[simp] theorem State.withTb_ck (x : TimeBase) : (s.withTb x).ck = s.ck := rfl
@[simp] theorem State.withTb_lu (x : TimeBase) : (s.withTb x).lu = s.lu := rfl
@[simp] theorem State.withTb_nt (x : TimeBase) : (s.withTb x).nt = s.nt := rfl
@[simp] theorem State.withTb_pl (x : TimeBase) : (s.withTb x).pl = s.pl := rfl
@[simp] theorem State.withTb_pe (x : TimeBase) : (s.withTb x).pe = s.pe := rfl
@[simp] theorem State.withTb_mp (x : TimeBase) : (s.withTb x).mp = s.mp := rfl
@[simp] theorem State.withTb_pending (x : TimeBase) : (s.withTb x).pending = s.pending := rfl
@[simp] theorem State.withTb_withTb (x y : TimeBase) : (s.withTb x).withTb y = s.withTb y := rfl

@[simp] theorem State.withOs_free (x : OsState) : (s.withOs x).free = s.free := rfl
@[simp] theorem State.withOs_pins (x : OsState) : (s.withOs x).pins = s.pins := rfl
@[simp] theorem State.withOs_tb (x : OsState) : (s.withOs x).tb = s.tb := rfl
@[simp] theorem State.withOs_os (x : OsState) : (s.withOs x).os = x := rfl
@[simp] theorem State.withOs_cf (x : OsState) : (s.withOs x).cf = s.cf := rfl
@[simp] theorem State.withOs_ge (x : OsState) : (s.withOs x).ge = s.ge := rfl
@[simp] theorem State.withOs_sq (x : OsState) : (s.withOs x).sq = s.sq := rfl
@[simp] theorem State.withOs_du (x : OsState) : (s.withOs x).du = s.du := rfl
@[simp] theorem State.withOs_ck (x : OsState) : (s.withOs x).ck = s.ck := rfl
@[simp] theorem State.withOs_lu (x : OsState) : (s.withOs x).lu = s.lu := rfl
@[simp] theorem State.withOs_nt (x : OsState) : (s.withOs x).nt = s.nt := rfl
@[simp] theorem State.withOs_pl (x : OsState) : (s.withOs x).pl = s.pl := rfl
@[simp] theorem State.withOs_pe (x : OsState) : (s.withOs x).pe = s.pe := rfl
@[simp] theorem State.withOs_mp (x : OsState) : (s.withOs x).mp = s.mp := rfl
@[simp] theorem State.withOs_pending (x : OsState) : (s.withOs x).pending = s.pending := rfl
@[simp] theorem State.withOs_withOs (x y : OsState) : (s.withOs x).withOs y = s.withOs y := rfl

@[simp] theorem State.withCf_free (x : CfState) : (s.withCf x).free = s.free := rfl
@[simp] theorem State.withCf_pins (x : CfState) : (s.withCf x).pins = s.pins := rfl
@[simp] theorem State.withCf_tb (x : CfState) : (s.withCf x).tb = s.tb := rfl
@[simp] theorem State.withCf_os (x : CfState) : (s.withCf x).os = s.os := rfl
@[simp] theorem State.withCf_cf (x : CfState) : (s.withCf x).cf = x := rfl
@[simp] theorem State.withCf_ge (x : CfState) : (s.withCf x).ge = s.ge := rfl
@[simp] theorem State.withCf_sq (x : CfState) : (s.withCf x).sq = s.sq := rfl
@[simp] theorem State.withCf_du (x : CfState) : (s.withCf x).du = s.du := rfl
@[simp] theorem State.withCf_ck (x : CfState) : (s.withCf x).ck = s.ck := rfl
@[simp] theorem State.withCf_lu (x : CfState) : (s.withCf x).lu = s.lu := rfl
@[simp] theorem State.withCf_nt (x : CfState) : (s.withCf x).nt = s.nt := rfl
@[simp] theorem State.withCf_pl (x : CfState) : (s.withCf x).pl = s.pl := rfl
@[simp] theorem State.withCf_pe (x : CfState) : (s.withCf x).pe = s.pe := rfl
@[simp] theorem State.withCf_mp (x : CfState) : (s.withCf x).mp = s.mp := rfl
@[simp] theorem State.withCf_pending (x : CfState) : (s.withCf x).pending = s.pending := rfl
@[simp] theorem State.withCf_withCf (x y : CfState) : (s.withCf x).withCf y = s.withCf y := rfl

@[simp] theorem State.withGe_free (x : Vector GroupState 16) : (s.withGe x).free = s.free := rfl
@[simp] theorem State.withGe_pins (x : Vector GroupState 16) : (s.withGe x).pins = s.pins := rfl
@[simp] theorem State.withGe_tb (x : Vector GroupState 16) : (s.withGe x).tb = s.tb := rfl
@[simp] theorem State.withGe_os (x : Vector GroupState 16) : (s.withGe x).os = s.os := rfl
@[simp] theorem State.withGe_cf (x : Vector GroupState 16) : (s.withGe x).cf = s.cf := rfl
@[simp] theorem State.withGe_ge (x : Vector GroupState 16) : (s.withGe x).ge = x := rfl
@[simp] theorem State.withGe_sq (x : Vector GroupState 16) : (s.withGe x).sq = s.sq := rfl
@[simp] theorem State.withGe_du (x : Vector GroupState 16) : (s.withGe x).du = s.du := rfl
@[simp] theorem State.withGe_ck (x : Vector GroupState 16) : (s.withGe x).ck = s.ck := rfl
@[simp] theorem State.withGe_lu (x : Vector GroupState 16) : (s.withGe x).lu = s.lu := rfl
@[simp] theorem State.withGe_nt (x : Vector GroupState 16) : (s.withGe x).nt = s.nt := rfl
@[simp] theorem State.withGe_pl (x : Vector GroupState 16) : (s.withGe x).pl = s.pl := rfl
@[simp] theorem State.withGe_pe (x : Vector GroupState 16) : (s.withGe x).pe = s.pe := rfl
@[simp] theorem State.withGe_mp (x : Vector GroupState 16) : (s.withGe x).mp = s.mp := rfl
@[simp] theorem State.withGe_pending (x : Vector GroupState 16) : (s.withGe x).pending = s.pending := rfl
@[simp] theorem State.withGe_withGe (x y : Vector GroupState 16) : (s.withGe x).withGe y = s.withGe y := rfl

@[simp] theorem State.withSq_free (x : SqState) : (s.withSq x).free = s.free := rfl
@[simp] theorem State.withSq_pins (x : SqState) : (s.withSq x).pins = s.pins := rfl
@[simp] theorem State.withSq_tb (x : SqState) : (s.withSq x).tb = s.tb := rfl
@[simp] theorem State.withSq_os (x : SqState) : (s.withSq x).os = s.os := rfl
@[simp] theorem State.withSq_cf (x : SqState) : (s.withSq x).cf = s.cf := rfl
@[simp] theorem State.withSq_ge (x : SqState) : (s.withSq x).ge = s.ge := rfl
@[simp] theorem State.withSq_sq (x : SqState) : (s.withSq x).sq = x := rfl
@[simp] theorem State.withSq_du (x : SqState) : (s.withSq x).du = s.du := rfl
@[simp] theorem State.withSq_ck (x : SqState) : (s.withSq x).ck = s.ck := rfl
@[simp] theorem State.withSq_lu (x : SqState) : (s.withSq x).lu = s.lu := rfl
@[simp] theorem State.withSq_nt (x : SqState) : (s.withSq x).nt = s.nt := rfl
@[simp] theorem State.withSq_pl (x : SqState) : (s.withSq x).pl = s.pl := rfl
@[simp] theorem State.withSq_pe (x : SqState) : (s.withSq x).pe = s.pe := rfl
@[simp] theorem State.withSq_mp (x : SqState) : (s.withSq x).mp = s.mp := rfl
@[simp] theorem State.withSq_pending (x : SqState) : (s.withSq x).pending = s.pending := rfl
@[simp] theorem State.withSq_withSq (x y : SqState) : (s.withSq x).withSq y = s.withSq y := rfl

@[simp] theorem State.withDu_free (x : Vector Det 24) : (s.withDu x).free = s.free := rfl
@[simp] theorem State.withDu_pins (x : Vector Det 24) : (s.withDu x).pins = s.pins := rfl
@[simp] theorem State.withDu_tb (x : Vector Det 24) : (s.withDu x).tb = s.tb := rfl
@[simp] theorem State.withDu_os (x : Vector Det 24) : (s.withDu x).os = s.os := rfl
@[simp] theorem State.withDu_cf (x : Vector Det 24) : (s.withDu x).cf = s.cf := rfl
@[simp] theorem State.withDu_ge (x : Vector Det 24) : (s.withDu x).ge = s.ge := rfl
@[simp] theorem State.withDu_sq (x : Vector Det 24) : (s.withDu x).sq = s.sq := rfl
@[simp] theorem State.withDu_du (x : Vector Det 24) : (s.withDu x).du = x := rfl
@[simp] theorem State.withDu_ck (x : Vector Det 24) : (s.withDu x).ck = s.ck := rfl
@[simp] theorem State.withDu_lu (x : Vector Det 24) : (s.withDu x).lu = s.lu := rfl
@[simp] theorem State.withDu_nt (x : Vector Det 24) : (s.withDu x).nt = s.nt := rfl
@[simp] theorem State.withDu_pl (x : Vector Det 24) : (s.withDu x).pl = s.pl := rfl
@[simp] theorem State.withDu_pe (x : Vector Det 24) : (s.withDu x).pe = s.pe := rfl
@[simp] theorem State.withDu_mp (x : Vector Det 24) : (s.withDu x).mp = s.mp := rfl
@[simp] theorem State.withDu_pending (x : Vector Det 24) : (s.withDu x).pending = s.pending := rfl
@[simp] theorem State.withDu_withDu (x y : Vector Det 24) : (s.withDu x).withDu y = s.withDu y := rfl

@[simp] theorem State.withCk_free (x : CkState) : (s.withCk x).free = s.free := rfl
@[simp] theorem State.withCk_pins (x : CkState) : (s.withCk x).pins = s.pins := rfl
@[simp] theorem State.withCk_tb (x : CkState) : (s.withCk x).tb = s.tb := rfl
@[simp] theorem State.withCk_os (x : CkState) : (s.withCk x).os = s.os := rfl
@[simp] theorem State.withCk_cf (x : CkState) : (s.withCk x).cf = s.cf := rfl
@[simp] theorem State.withCk_ge (x : CkState) : (s.withCk x).ge = s.ge := rfl
@[simp] theorem State.withCk_sq (x : CkState) : (s.withCk x).sq = s.sq := rfl
@[simp] theorem State.withCk_du (x : CkState) : (s.withCk x).du = s.du := rfl
@[simp] theorem State.withCk_ck (x : CkState) : (s.withCk x).ck = x := rfl
@[simp] theorem State.withCk_lu (x : CkState) : (s.withCk x).lu = s.lu := rfl
@[simp] theorem State.withCk_nt (x : CkState) : (s.withCk x).nt = s.nt := rfl
@[simp] theorem State.withCk_pl (x : CkState) : (s.withCk x).pl = s.pl := rfl
@[simp] theorem State.withCk_pe (x : CkState) : (s.withCk x).pe = s.pe := rfl
@[simp] theorem State.withCk_mp (x : CkState) : (s.withCk x).mp = s.mp := rfl
@[simp] theorem State.withCk_pending (x : CkState) : (s.withCk x).pending = s.pending := rfl
@[simp] theorem State.withCk_withCk (x y : CkState) : (s.withCk x).withCk y = s.withCk y := rfl

@[simp] theorem State.withLu_free (x : LuState) : (s.withLu x).free = s.free := rfl
@[simp] theorem State.withLu_pins (x : LuState) : (s.withLu x).pins = s.pins := rfl
@[simp] theorem State.withLu_tb (x : LuState) : (s.withLu x).tb = s.tb := rfl
@[simp] theorem State.withLu_os (x : LuState) : (s.withLu x).os = s.os := rfl
@[simp] theorem State.withLu_cf (x : LuState) : (s.withLu x).cf = s.cf := rfl
@[simp] theorem State.withLu_ge (x : LuState) : (s.withLu x).ge = s.ge := rfl
@[simp] theorem State.withLu_sq (x : LuState) : (s.withLu x).sq = s.sq := rfl
@[simp] theorem State.withLu_du (x : LuState) : (s.withLu x).du = s.du := rfl
@[simp] theorem State.withLu_ck (x : LuState) : (s.withLu x).ck = s.ck := rfl
@[simp] theorem State.withLu_lu (x : LuState) : (s.withLu x).lu = x := rfl
@[simp] theorem State.withLu_nt (x : LuState) : (s.withLu x).nt = s.nt := rfl
@[simp] theorem State.withLu_pl (x : LuState) : (s.withLu x).pl = s.pl := rfl
@[simp] theorem State.withLu_pe (x : LuState) : (s.withLu x).pe = s.pe := rfl
@[simp] theorem State.withLu_mp (x : LuState) : (s.withLu x).mp = s.mp := rfl
@[simp] theorem State.withLu_pending (x : LuState) : (s.withLu x).pending = s.pending := rfl
@[simp] theorem State.withLu_withLu (x y : LuState) : (s.withLu x).withLu y = s.withLu y := rfl

@[simp] theorem State.withNt_free (x : NtState) : (s.withNt x).free = s.free := rfl
@[simp] theorem State.withNt_pins (x : NtState) : (s.withNt x).pins = s.pins := rfl
@[simp] theorem State.withNt_tb (x : NtState) : (s.withNt x).tb = s.tb := rfl
@[simp] theorem State.withNt_os (x : NtState) : (s.withNt x).os = s.os := rfl
@[simp] theorem State.withNt_cf (x : NtState) : (s.withNt x).cf = s.cf := rfl
@[simp] theorem State.withNt_ge (x : NtState) : (s.withNt x).ge = s.ge := rfl
@[simp] theorem State.withNt_sq (x : NtState) : (s.withNt x).sq = s.sq := rfl
@[simp] theorem State.withNt_du (x : NtState) : (s.withNt x).du = s.du := rfl
@[simp] theorem State.withNt_ck (x : NtState) : (s.withNt x).ck = s.ck := rfl
@[simp] theorem State.withNt_lu (x : NtState) : (s.withNt x).lu = s.lu := rfl
@[simp] theorem State.withNt_nt (x : NtState) : (s.withNt x).nt = x := rfl
@[simp] theorem State.withNt_pl (x : NtState) : (s.withNt x).pl = s.pl := rfl
@[simp] theorem State.withNt_pe (x : NtState) : (s.withNt x).pe = s.pe := rfl
@[simp] theorem State.withNt_mp (x : NtState) : (s.withNt x).mp = s.mp := rfl
@[simp] theorem State.withNt_pending (x : NtState) : (s.withNt x).pending = s.pending := rfl
@[simp] theorem State.withNt_withNt (x y : NtState) : (s.withNt x).withNt y = s.withNt y := rfl

@[simp] theorem State.withPl_free (x : PlState) : (s.withPl x).free = s.free := rfl
@[simp] theorem State.withPl_pins (x : PlState) : (s.withPl x).pins = s.pins := rfl
@[simp] theorem State.withPl_tb (x : PlState) : (s.withPl x).tb = s.tb := rfl
@[simp] theorem State.withPl_os (x : PlState) : (s.withPl x).os = s.os := rfl
@[simp] theorem State.withPl_cf (x : PlState) : (s.withPl x).cf = s.cf := rfl
@[simp] theorem State.withPl_ge (x : PlState) : (s.withPl x).ge = s.ge := rfl
@[simp] theorem State.withPl_sq (x : PlState) : (s.withPl x).sq = s.sq := rfl
@[simp] theorem State.withPl_du (x : PlState) : (s.withPl x).du = s.du := rfl
@[simp] theorem State.withPl_ck (x : PlState) : (s.withPl x).ck = s.ck := rfl
@[simp] theorem State.withPl_lu (x : PlState) : (s.withPl x).lu = s.lu := rfl
@[simp] theorem State.withPl_nt (x : PlState) : (s.withPl x).nt = s.nt := rfl
@[simp] theorem State.withPl_pl (x : PlState) : (s.withPl x).pl = x := rfl
@[simp] theorem State.withPl_pe (x : PlState) : (s.withPl x).pe = s.pe := rfl
@[simp] theorem State.withPl_mp (x : PlState) : (s.withPl x).mp = s.mp := rfl
@[simp] theorem State.withPl_pending (x : PlState) : (s.withPl x).pending = s.pending := rfl
@[simp] theorem State.withPl_withPl (x y : PlState) : (s.withPl x).withPl y = s.withPl y := rfl

@[simp] theorem State.withPe_free (x : PeState) : (s.withPe x).free = s.free := rfl
@[simp] theorem State.withPe_pins (x : PeState) : (s.withPe x).pins = s.pins := rfl
@[simp] theorem State.withPe_tb (x : PeState) : (s.withPe x).tb = s.tb := rfl
@[simp] theorem State.withPe_os (x : PeState) : (s.withPe x).os = s.os := rfl
@[simp] theorem State.withPe_cf (x : PeState) : (s.withPe x).cf = s.cf := rfl
@[simp] theorem State.withPe_ge (x : PeState) : (s.withPe x).ge = s.ge := rfl
@[simp] theorem State.withPe_sq (x : PeState) : (s.withPe x).sq = s.sq := rfl
@[simp] theorem State.withPe_du (x : PeState) : (s.withPe x).du = s.du := rfl
@[simp] theorem State.withPe_ck (x : PeState) : (s.withPe x).ck = s.ck := rfl
@[simp] theorem State.withPe_lu (x : PeState) : (s.withPe x).lu = s.lu := rfl
@[simp] theorem State.withPe_nt (x : PeState) : (s.withPe x).nt = s.nt := rfl
@[simp] theorem State.withPe_pl (x : PeState) : (s.withPe x).pl = s.pl := rfl
@[simp] theorem State.withPe_pe (x : PeState) : (s.withPe x).pe = x := rfl
@[simp] theorem State.withPe_mp (x : PeState) : (s.withPe x).mp = s.mp := rfl
@[simp] theorem State.withPe_pending (x : PeState) : (s.withPe x).pending = s.pending := rfl
@[simp] theorem State.withPe_withPe (x y : PeState) : (s.withPe x).withPe y = s.withPe y := rfl

@[simp] theorem State.withMp_free (x : MpState) : (s.withMp x).free = s.free := rfl
@[simp] theorem State.withMp_pins (x : MpState) : (s.withMp x).pins = s.pins := rfl
@[simp] theorem State.withMp_tb (x : MpState) : (s.withMp x).tb = s.tb := rfl
@[simp] theorem State.withMp_os (x : MpState) : (s.withMp x).os = s.os := rfl
@[simp] theorem State.withMp_cf (x : MpState) : (s.withMp x).cf = s.cf := rfl
@[simp] theorem State.withMp_ge (x : MpState) : (s.withMp x).ge = s.ge := rfl
@[simp] theorem State.withMp_sq (x : MpState) : (s.withMp x).sq = s.sq := rfl
@[simp] theorem State.withMp_du (x : MpState) : (s.withMp x).du = s.du := rfl
@[simp] theorem State.withMp_ck (x : MpState) : (s.withMp x).ck = s.ck := rfl
@[simp] theorem State.withMp_lu (x : MpState) : (s.withMp x).lu = s.lu := rfl
@[simp] theorem State.withMp_nt (x : MpState) : (s.withMp x).nt = s.nt := rfl
@[simp] theorem State.withMp_pl (x : MpState) : (s.withMp x).pl = s.pl := rfl
@[simp] theorem State.withMp_pe (x : MpState) : (s.withMp x).pe = s.pe := rfl
@[simp] theorem State.withMp_mp (x : MpState) : (s.withMp x).mp = x := rfl
@[simp] theorem State.withMp_pending (x : MpState) : (s.withMp x).pending = s.pending := rfl
@[simp] theorem State.withMp_withMp (x y : MpState) : (s.withMp x).withMp y = s.withMp y := rfl

@[simp] theorem State.withPending_free (x : List Instr) : (s.withPending x).free = s.free := rfl
@[simp] theorem State.withPending_pins (x : List Instr) : (s.withPending x).pins = s.pins := rfl
@[simp] theorem State.withPending_tb (x : List Instr) : (s.withPending x).tb = s.tb := rfl
@[simp] theorem State.withPending_os (x : List Instr) : (s.withPending x).os = s.os := rfl
@[simp] theorem State.withPending_cf (x : List Instr) : (s.withPending x).cf = s.cf := rfl
@[simp] theorem State.withPending_ge (x : List Instr) : (s.withPending x).ge = s.ge := rfl
@[simp] theorem State.withPending_sq (x : List Instr) : (s.withPending x).sq = s.sq := rfl
@[simp] theorem State.withPending_du (x : List Instr) : (s.withPending x).du = s.du := rfl
@[simp] theorem State.withPending_ck (x : List Instr) : (s.withPending x).ck = s.ck := rfl
@[simp] theorem State.withPending_lu (x : List Instr) : (s.withPending x).lu = s.lu := rfl
@[simp] theorem State.withPending_nt (x : List Instr) : (s.withPending x).nt = s.nt := rfl
@[simp] theorem State.withPending_pl (x : List Instr) : (s.withPending x).pl = s.pl := rfl
@[simp] theorem State.withPending_pe (x : List Instr) : (s.withPending x).pe = s.pe := rfl
@[simp] theorem State.withPending_mp (x : List Instr) : (s.withPending x).mp = s.mp := rfl
@[simp] theorem State.withPending_pending (x : List Instr) : (s.withPending x).pending = x := rfl
@[simp] theorem State.withPending_withPending (x y : List Instr) : (s.withPending x).withPending y = s.withPending y := rfl

end Sys2Proof.Machine
end

