-- ==== Sys2Proof/Laws/Frames.lean ====
section
/-! SUPPORT. Laws/Frames.lean: what each shared operation can change, said once per operation in the form `Only blocks before
after`. A frame of a command is the union of the frames of its operations (`Only.trans`, `Only.mono`). -/

namespace Sys2Proof.Machine

/-! ## The relation -/

theorem Only.refl (bs : List Block) (s : State) : Only bs s s := by
  intro b _; cases b <;> rfl

theorem Only.mono {bs cs : List Block} {s t : State} (h : Only bs s t) (sub : ∀ b, b ∈ bs → b ∈ cs) : Only cs s t :=
  fun b hb => h b fun hm => hb (sub b hm)

theorem Only.trans {bs : List Block} {s t u : State} (h : Only bs s t) (k : Only bs t u) : Only bs s u := by
  intro b hb
  have h1 := h b hb
  have h2 := k b hb
  cases b <;> exact Eq.trans h2 h1

/-- Two operations with frames of their own. -/
theorem Only.comp {bs cs ds : List Block} {s t u : State} (h : Only bs s t) (k : Only cs t u)
    (hb : ∀ b, b ∈ bs → b ∈ ds) (hc : ∀ b, b ∈ cs → b ∈ ds) : Only ds s u := (h.mono hb).trans (k.mono hc)

theorem Only.free {bs : List Block} {s t : State} (h : Only bs s t) (hb : Block.free ∉ bs) : t.free = s.free := h _ hb
theorem Only.pins {bs : List Block} {s t : State} (h : Only bs s t) (hb : Block.pins ∉ bs) : t.pins = s.pins := h _ hb
theorem Only.tb {bs : List Block} {s t : State} (h : Only bs s t) (hb : Block.tb ∉ bs) : t.tb = s.tb := h _ hb
theorem Only.os {bs : List Block} {s t : State} (h : Only bs s t) (hb : Block.os ∉ bs) : t.os = s.os := h _ hb
theorem Only.cf {bs : List Block} {s t : State} (h : Only bs s t) (hb : Block.cf ∉ bs) : t.cf = s.cf := h _ hb
theorem Only.ge {bs : List Block} {s t : State} (h : Only bs s t) (hb : Block.ge ∉ bs) : t.ge = s.ge := h _ hb
theorem Only.sq {bs : List Block} {s t : State} (h : Only bs s t) (hb : Block.sq ∉ bs) : t.sq = s.sq := h _ hb
theorem Only.du {bs : List Block} {s t : State} (h : Only bs s t) (hb : Block.du ∉ bs) : t.du = s.du := h _ hb
theorem Only.ck {bs : List Block} {s t : State} (h : Only bs s t) (hb : Block.ck ∉ bs) : t.ck = s.ck := h _ hb
theorem Only.lu {bs : List Block} {s t : State} (h : Only bs s t) (hb : Block.lu ∉ bs) : t.lu = s.lu := h _ hb
theorem Only.nt {bs : List Block} {s t : State} (h : Only bs s t) (hb : Block.nt ∉ bs) : t.nt = s.nt := h _ hb
theorem Only.pl {bs : List Block} {s t : State} (h : Only bs s t) (hb : Block.pl ∉ bs) : t.pl = s.pl := h _ hb
theorem Only.pe {bs : List Block} {s t : State} (h : Only bs s t) (hb : Block.pe ∉ bs) : t.pe = s.pe := h _ hb
theorem Only.mp {bs : List Block} {s t : State} (h : Only bs s t) (hb : Block.mp ∉ bs) : t.mp = s.mp := h _ hb
theorem Only.pending {bs : List Block} {s t : State} (h : Only bs s t) (hb : Block.pending ∉ bs) : t.pending = s.pending :=
  h _ hb

/-- A fold of operations with one frame has that frame. -/
theorem Only.foldl {α : Type} {bs : List Block} (f : State → α → State) (hf : ∀ s x, Only bs s (f s x)) :
    ∀ (xs : List α) (s : State), Only bs s (xs.foldl f s)
  | [], s => Only.refl bs s
  | x :: rest, s => (hf s x).trans (Only.foldl f hf rest (f s x))

theorem whenDue_only {bs : List Block} {c : Bool} {s t : State} (h : c = true → Only bs s t) : Only bs s (whenDue c t s) := by
  unfold whenDue
  split
  · exact h ‹_›
  · exact Only.refl bs s

/-! ## One update of one block -/

theorem withFree_only (s : State) (x : Nat) : Only [.free] s (s.withFree x) := by
  intro b hb; cases b <;> first | rfl | simp at hb
theorem withPins_only (s : State) (x : Pins) : Only [.pins] s (s.withPins x) := by
  intro b hb; cases b <;> first | rfl | simp at hb
theorem withTb_only (s : State) (x : TimeBase) : Only [.tb] s (s.withTb x) := by
  intro b hb; cases b <;> first | rfl | simp at hb
theorem withOs_only (s : State) (x : OsState) : Only [.os] s (s.withOs x) := by
  intro b hb; cases b <;> first | rfl | simp at hb
theorem withCf_only (s : State) (x : CfState) : Only [.cf] s (s.withCf x) := by
  intro b hb; cases b <;> first | rfl | simp at hb
theorem withGe_only (s : State) (x : Vector GroupState 16) : Only [.ge] s (s.withGe x) := by
  intro b hb; cases b <;> first | rfl | simp at hb
theorem withSq_only (s : State) (x : SqState) : Only [.sq] s (s.withSq x) := by
  intro b hb; cases b <;> first | rfl | simp at hb
theorem withDu_only (s : State) (x : Vector Det 24) : Only [.du] s (s.withDu x) := by
  intro b hb; cases b <;> first | rfl | simp at hb
theorem withCk_only (s : State) (x : CkState) : Only [.ck] s (s.withCk x) := by
  intro b hb; cases b <;> first | rfl | simp at hb
theorem withLu_only (s : State) (x : LuState) : Only [.lu] s (s.withLu x) := by
  intro b hb; cases b <;> first | rfl | simp at hb
theorem withNt_only (s : State) (x : NtState) : Only [.nt] s (s.withNt x) := by
  intro b hb; cases b <;> first | rfl | simp at hb
theorem withPl_only (s : State) (x : PlState) : Only [.pl] s (s.withPl x) := by
  intro b hb; cases b <;> first | rfl | simp at hb
theorem withPe_only (s : State) (x : PeState) : Only [.pe] s (s.withPe x) := by
  intro b hb; cases b <;> first | rfl | simp at hb
theorem withMp_only (s : State) (x : MpState) : Only [.mp] s (s.withMp x) := by
  intro b hb; cases b <;> first | rfl | simp at hb

/-! ## Groups and calls -/

theorem mapGroups_only (f : Group → GroupState → GroupState) (s : State) : Only [.ge] s (mapGroups f s) := withGe_only s _

theorem installGroups_only (ge : Vector GroupState 16) (s : State) : Only [.ge, .sq] s (installGroups ge s) :=
  (withGe_only s _).comp (withSq_only _ _) (by simp) (by simp)

theorem writeCall_only (g : Group) (s : State) : Only [.sq] s (writeCall g s) := by
  unfold writeCall
  split
  · exact Only.refl _ s
  · exact Only.refl _ s
  · exact withSq_only s _

theorem writeStageCalls_only (st : Stage) (s : State) : Only [.sq] s (writeStageCalls st s) := by
  refine Only.foldl _ (fun u g => ?_) _ s
  split
  · exact writeCall_only g u
  · exact Only.refl _ u

theorem geWork_only (s : State) : Only [.ge, .sq] s (geWork s) := by
  unfold geWork
  split
  · exact Only.refl _ s
  · split
    · exact installGroups_only _ s
    · exact Only.refl _ s

/-! ## The Line Unit's sending side -/

theorem startAttempt_only (s : State) : Only [.lu] s (startAttempt s) := by
  unfold startAttempt
  dsimp only
  split <;> exact withLu_only s _

theorem drawBackoff_only (s : State) : Only [.lu] s (drawBackoff s) := by
  unfold drawBackoff
  dsimp only
  split
  · exact (withLu_only s _).trans (startAttempt_only _)
  · exact withLu_only s _

theorem leaveIdle_only (s : State) : Only [.lu] s (leaveIdle s) := by
  unfold leaveIdle
  split
  · split
    · exact withLu_only s _
    · exact drawBackoff_only s
  · exact Only.refl _ s

theorem offer_only (f : TxFrame) (s : State) : Only [.lu] s (offer f s) :=
  (withLu_only s _).trans (leaveIdle_only _)

theorem reportFinished_only (f : TxFrame) (s : State) : Only [.ck] s (reportFinished f s) := by
  unfold reportFinished
  split
  · exact withCk_only s _
  · exact Only.refl _ s

theorem attemptSucceeded_only (s : State) : Only [.lu, .ck] s (attemptSucceeded s) := by
  unfold attemptSucceeded
  split
  · exact Only.refl _ s
  · exact (withLu_only s _).comp (reportFinished_only _ _) (by simp) (by simp)

theorem attemptFailed_only (s : State) : Only [.lu, .ck] s (attemptFailed s) := by
  unfold attemptFailed
  split
  · exact Only.refl _ s
  · dsimp only
    split
    · exact (withLu_only s _).mono (by simp)
    · exact (withLu_only s _).comp (reportFinished_only _ _) (by simp) (by simp)

theorem restartLine_only (s : State) : Only [.lu, .ck] s (restartLine s) := by
  unfold restartLine
  split
  · exact (withLu_only s _).mono (by simp)
  · dsimp only
    split
    · exact (reportFinished_only _ s).comp (withLu_only _ _) (by simp) (by simp)
    · exact (withLu_only s _).mono (by simp)

/-! ## The Platoon Unit -/

theorem readGreens_only (s : State) : Only [.pl] s (readGreens s) := withPl_only s _

theorem plTimerWork_only (s : State) : Only [.pl] s (plTimerWork s) := by
  unfold plTimerWork
  split
  · exact withPl_only s _
  · exact Only.refl _ s

theorem formNotice_only (p : Place) (s : State) : Only [.pl, .lu] s (formNotice p s) := by
  unfold formNotice countWithheld
  dsimp only
  repeat' split
  · exact ((withPl_only s _).trans (withPl_only _ _)).mono (by simp)
  · exact (withPl_only s _).comp (offer_only _ _) (by simp) (by simp)
  · exact ((withPl_only s _).trans (withPl_only _ _)).mono (by simp)
  · exact Only.refl _ s

theorem exitEdge_only (d : Detector) (s : State) : Only [.pl, .lu] s (exitEdge d s) :=
  ((withPl_only s _).mono (by simp)).trans (Only.foldl _ (fun t p => formNotice_only p t) _ _)

theorem setQueue_only (q : List Notice) (s : State) : Only [.pl] s (setQueue q s) := withPl_only s _

theorem insertIntoQueue_only (x : Notice) (s : State) : Only [.pl, .sq] s (insertIntoQueue x s) := by
  unfold insertIntoQueue
  dsimp only
  have h : Only [.pl, .sq] s (if x.active = true then writeStageCalls x.stage s else s) := by
    split
    · exact (writeStageCalls_only _ s).mono (by simp)
    · exact Only.refl _ s
  have pl (u : State) (x : PlState) : Only [.pl, .sq] u (u.withPl x) := (withPl_only u x).mono (by simp)
  refine h.trans ?_
  generalize (if x.active = true then writeStageCalls x.stage s else s) = u
  unfold setQueue
  split
  · exact (pl u _).trans ((pl _ _).trans (pl _ _))
  · exact (pl u _).trans (pl _ _)

theorem takePlatoon_only (sender serial elapsed duration : Nat) (s : State) :
    Only [.pl, .sq] s (takePlatoon sender serial elapsed duration s) := by
  unfold takePlatoon
  split
  · exact Only.refl _ s
  · split
    · exact (withPl_only s _).mono (by simp)
    · dsimp only
      split
      · exact (withPl_only s _).mono (by simp)
      · split
        · exact Only.refl _ s
        · exact insertIntoQueue_only _ s

theorem plQueueWork_only (s : State) : Only [.pl, .sq] s (plQueueWork s) := by
  have calls (u : State) (n : Notice) : Only [.pl, .sq] u (writeStageCalls n.stage u) :=
    (writeStageCalls_only n.stage u).mono (by simp)
  have queue (q : List Notice) : Only [.pl, .sq] s (setQueue q s) := (setQueue_only q s).mono (by simp)
  unfold plQueueWork
  split
  · exact (queue _).trans (Only.foldl _ calls _ _)
  · exact Only.refl _ s

theorem purgeSender_only (sender : Nat) (s : State) : Only [.pl] s (purgeSender sender s) := setQueue_only _ s

theorem emptyQueue_only (s : State) : Only [.pl] s (emptyQueue s) := withPl_only s _

/-! ## The Stage Sequencer -/

theorem startChange_only (cause : TermCause) (truncating : Bool) (t : Stage) (s : State) :
    Only [.ge, .sq] s (startChange cause truncating t s) :=
  (mapGroups_only _ s).comp (withSq_only _ _) (by simp) (by simp)

theorem startRun_only (st : Option Stage) (s : State) : Only [.ge, .sq] s (startRun st s) := by
  unfold startRun
  split
  · exact Only.refl _ s
  · exact (mapGroups_only _ s).comp (withSq_only _ _) (by simp) (by simp)

theorem lateLeaves_only (s : State) (t : Stage) : Only [.ge] s (lateLeaves s t) := mapGroups_only _ s

theorem upgradeLeaves_only (s : State) (t : Stage) : Only [.ge] s (upgradeLeaves s t) := mapGroups_only _ s

theorem replaceTarget_only (truncating : Bool) (t : Stage) (s : State) : Only [.ge, .sq] s (replaceTarget truncating t s) :=
  (mapGroups_only _ s).comp (withSq_only _ _) (by simp) (by simp)

theorem dropTruncation_only (s : State) : Only [.ge, .sq] s (dropTruncation s) :=
  (mapGroups_only _ s).comp (withSq_only _ _) (by simp) (by simp)

theorem storeCommand_only (t : Stage) (truncating : Bool) (s : State) : Only [.ge, .sq] s (storeCommand t truncating s) := by
  unfold storeCommand
  dsimp only
  split
  · exact (dropTruncation_only s).trans ((withSq_only _ _).mono (by simp))
  · exact (withSq_only s _).mono (by simp)

theorem takeCommand_only (t : Stage) (truncating : Bool) (s : State) : Only [.ge, .sq] s (takeCommand t truncating s) := by
  unfold takeCommand
  split
  · exact Only.refl _ s
  · refine (storeCommand_only t truncating s).trans ?_
    dsimp only
    repeat' split
    · exact (withSq_only _ _).mono (by simp)
    · exact startChange_only _ _ _ _
    · exact (upgradeLeaves_only _ _).mono (by simp)
    · exact Only.refl _ _
    · exact replaceTarget_only _ _ _
    · exact (upgradeLeaves_only _ _).mono (by simp)
    · exact Only.refl _ _
    · exact Only.refl _ _

theorem dropCommand_only (s : State) : Only [.ge, .sq] s (dropCommand s) := by
  unfold dropCommand
  dsimp only
  split
  · exact (dropTruncation_only s).trans ((withSq_only _ _).mono (by simp))
  · exact (withSq_only s _).mono (by simp)

theorem takeArrivals_only (s : State) : Only [.ge, .sq] s (takeArrivals s) := by
  refine ((withSq_only s _).mono (by simp)).trans (Only.foldl _ (fun u m => ?_) _ _)
  cases m with
  | place t truncating => exact takeCommand_only t truncating u
  | release => exact dropCommand_only u

theorem takeHalt_only (s : State) : Only [.ge, .sq] s (takeHalt s) :=
  (dropCommand_only s).trans ((mapGroups_only _ _).comp (withSq_only _ _) (by simp) (by simp))

theorem stopSequencer_only (s : State) : Only [.sq, .pl] s (stopSequencer s) :=
  (withSq_only s _).comp (readGreens_only _) (by simp) (by simp)

theorem completeChange_only (t : Stage) (s : State) : Only [.ge, .sq] s (completeChange t s) := by
  unfold completeChange
  dsimp only
  repeat' split
  · exact (withSq_only s _).mono (by simp)
  · exact ((withSq_only s _).mono (by simp)).trans (startChange_only _ _ _ _)
  · exact (withSq_only s _).mono (by simp)

theorem followChange_only (s : State) : Only [.ge, .sq] s (followChange s) := by
  unfold followChange
  split
  · exact Only.refl _ s
  · dsimp only
    split
    · exact ((lateLeaves_only s _).mono (by simp)).trans (completeChange_only _ _)
    · exact (lateLeaves_only s _).mono (by simp)

theorem testLatch_only (s : State) : Only [.sq] s (testLatch s) := by
  unfold testLatch
  repeat' split
  · exact withSq_only s _
  · exact Only.refl _ s
  · exact Only.refl _ s

theorem testYield_only (last : Bool) (s : State) : Only [.ge, .sq] s (testYield last s) := by
  unfold testYield
  dsimp only
  split
  · exact startChange_only _ _ _ s
  · split
    · exact (withSq_only s _).mono (by simp)
    · exact Only.refl _ s

theorem runSelection_only (s : State) : Only [.ge, .sq] s (runSelection s) := by
  unfold runSelection
  split
  · split
    · exact startChange_only _ _ _ s
    · exact Only.refl _ s
  · exact Only.refl _ s

/-! ## The Preemption Unit -/

theorem placeCommand_only (st : Option Stage) (truncating : Bool) (s : State) :
    Only [.pe, .sq] s (placeCommand st truncating s) := by
  unfold placeCommand
  split
  · exact Only.refl _ s
  · exact (withPe_only s _).comp (withSq_only _ _) (by simp) (by simp)

theorem releaseCommand_only (s : State) : Only [.pe, .sq] s (releaseCommand s) :=
  (withPe_only s _).comp (withSq_only _ _) (by simp) (by simp)

theorem startService_only (img : Image) (c : PreClass) (s : State) : Only [.pe, .sq] s (startService img c s) :=
  ((withPe_only s _).mono (by simp)).trans (placeCommand_only _ _ _)

theorem resumeService_only (img : Image) (r : Stacked) (s : State) : Only [.pe, .sq] s (resumeService img r s) :=
  ((withPe_only s _).mono (by simp)).trans (placeCommand_only _ _ _)

theorem sendAlert_only (img : Image) (v : Service) (s : State) : Only [.pe, .lu] s (sendAlert img v s) := by
  unfold sendAlert
  dsimp only
  repeat' split
  · exact Only.refl _ s
  · exact (((withPe_only s _).trans (withPe_only _ _)).mono (by simp)).trans ((offer_only _ _).mono (by simp))
  · exact ((withPe_only s _).trans (withPe_only _ _)).mono (by simp)
  · exact Only.refl _ s

theorem enterDwell_only (img : Image) (s : State) : Only [.pe, .sq, .lu] s (enterDwell img s) := by
  unfold enterDwell
  dsimp only
  repeat' split
  · exact (((withPe_only s _).mono (by simp)).trans ((placeCommand_only _ _ _).mono (by simp))).trans
      ((sendAlert_only img _ _).mono (by simp))
  · exact ((withPe_only s _).mono (by simp)).trans ((sendAlert_only img _ _).mono (by simp))
  · exact Only.refl _ s
  · exact Only.refl _ s

theorem chooseService_only (img : Image) (s : State) : Only [.pe, .sq] s (chooseService img s) := by
  unfold chooseService
  split
  · split
    · exact startService_only img _ s
    · exact ((withPe_only s _).mono (by simp)).trans (resumeService_only img _ _)
  · exact ((withPe_only s _).mono (by simp)).trans (resumeService_only img _ _)
  · exact startService_only img _ s
  · exact releaseCommand_only s

theorem endService_only (img : Image) (s : State) : Only [.pe, .sq] s (endService img s) := by
  unfold endService
  split
  · exact Only.refl _ s
  · exact ((withPe_only s _).mono (by simp)).trans (chooseService_only img _)

theorem enterExit_only (img : Image) (v : Service) (s : State) : Only [.pe, .sq] s (enterExit img v s) := by
  unfold enterExit
  dsimp only
  split
  · exact ((withPe_only s _).mono (by simp)).trans (placeCommand_only _ _ _)
  · exact ((withPe_only s _).mono (by simp)).trans (endService_only img _)

theorem exitDwell_only (img : Image) (s : State) : Only [.pe, .sq] s (exitDwell img s) := by
  unfold exitDwell
  split
  · exact Only.refl _ s
  · split
    · exact ((withPe_only s _).mono (by simp)).trans (enterExit_only img _ _)
    · split
      · exact enterExit_only img _ s
      · exact Only.refl _ s

theorem takeOver_only (img : Image) (s : State) : Only [.pe, .sq] s (takeOver img s) := by
  unfold takeOver
  split
  · split
    · split
      · exact endService_only img s
      · exact ((withPe_only s _).mono (by simp)).trans (startService_only img _ _)
    · exact Only.refl _ s
  · exact Only.refl _ s

theorem finishExit_only (img : Image) (s : State) : Only [.pe, .sq] s (finishExit img s) := by
  unfold finishExit
  split
  · exact endService_only img s
  · exact Only.refl _ s

theorem serviceDecisions_only (img : Image) (s : State) : Only [.free, .pe, .sq, .lu] s (serviceDecisions img s) := by
  have start : Only [.free, .pe, .sq, .lu] s (startIfIdle img s) := by
    unfold startIfIdle
    split
    · exact (startService_only img _ s).mono (by simp)
    · exact Only.refl _ s
  have dwell (u : State) : Only [.free, .pe, .sq, .lu] u (enterDwell img u) := (enterDwell_only img u).mono (by simp)
  have exits (u : State) : Only [.free, .pe, .sq, .lu] u (exitDwell img u) := (exitDwell_only img u).mono (by simp)
  have takes (u : State) : Only [.free, .pe, .sq, .lu] u (takeOver img u) := (takeOver_only img u).mono (by simp)
  have finish (u : State) : Only [.free, .pe, .sq, .lu] u (finishExit img u) := (finishExit_only img u).mono (by simp)
  have last (u : State) : Only [.free, .pe, .sq, .lu] u (nextFree u) := (withFree_only u _).mono (by simp)
  unfold serviceDecisions
  dsimp only
  repeat' split
  · exact ((((start.trans (takes _)).trans (dwell _)).trans (exits _)).trans (finish _)).trans ((dwell _).trans (last _))
  · exact ((((start.trans (dwell _)).trans (exits _)).trans (takes _)).trans (finish _)).trans ((dwell _).trans (last _))
  · exact (((start.trans (takes _)).trans (dwell _)).trans (exits _)).trans ((dwell _).trans (last _))
  · exact (((start.trans (dwell _)).trans (exits _)).trans (takes _)).trans ((dwell _).trans (last _))

theorem cancelService_only (s : State) : Only [.pe, .sq] s (cancelService s) :=
  (withPe_only s _).comp (withSq_only _ _) (by simp) (by simp)

/-! ## Station modes -/

theorem leaveRun_only (s : State) : Only [.pe, .sq, .ge] s (leaveRun s) := by
  unfold leaveRun
  split
  · exact ((cancelService_only s).mono (by simp)).trans ((mapGroups_only _ _).mono (by simp))
  · exact Only.refl _ s

theorem setSources_only (src : LampSource) (s : State) : Only [.os] s (setSources src s) := withOs_only s _

theorem enterStartFlash_only (s : State) : Only [.os, .ge, .sq, .pl] s (enterStartFlash s) :=
  (((((withOs_only s _).trans (setSources_only _ _)).mono (by simp)).trans ((mapGroups_only _ _).mono (by simp))).trans
    ((stopSequencer_only _).mono (by simp))).trans ((emptyQueue_only _).mono (by simp))

theorem enterStartRed_only (s : State) : Only [.os, .ge, .sq, .pl] s (enterStartRed s) :=
  ((((withOs_only s _).trans (setSources_only _ _)).mono (by simp)).trans ((mapGroups_only _ _).mono (by simp))).trans
    ((stopSequencer_only _).mono (by simp))

theorem enterRun_only (s : State) : Only [.os, .ge, .sq] s (enterRun s) :=
  ((withOs_only s _).mono (by simp)).trans ((startRun_only _ _).mono (by simp))

theorem enterFlashEntry_only (s : State) : Only [.os, .ge, .sq, .pe] s (enterFlashEntry s) :=
  ((((leaveRun_only s).mono (by simp)).trans ((withOs_only _ _).mono (by simp))).trans
    ((mapGroups_only _ _).mono (by simp))).trans ((withSq_only _ _).mono (by simp))

theorem enterFlash_only (mode : Mode) (cause : AlertCause) (s : State) :
    Only [.os, .ge, .sq, .pl, .pe, .lu] s (enterFlash mode cause s) :=
  ((((((leaveRun_only s).mono (by simp)).trans (((withOs_only _ _).trans (setSources_only _ _)).mono (by simp))).trans
    ((mapGroups_only _ _).mono (by simp))).trans ((stopSequencer_only _).mono (by simp))).trans
    ((emptyQueue_only _).mono (by simp))).trans ((offer_only _ _).mono (by simp))

theorem modeAfterTimer_only (s : State) : Only [.os, .ge, .sq, .pl] s (modeAfterTimer s) := by
  unfold modeAfterTimer
  split
  · exact enterStartRed_only s
  · exact (enterRun_only s).mono (by simp)
  · exact Only.refl _ s

theorem latchFault_only (cause : FaultCause) (further : Nat) (s : State) :
    Only [.os, .ge, .sq, .pl, .pe, .lu] s (latchFault cause further s) :=
  ((withOs_only s _).mono (by simp)).trans (enterFlash_only _ _ _)

/-! ## Detectors, clock, neighbors, received frames -/

theorem setDet_only (d : Detector) (x : Det) (s : State) : Only [.du] s (setDet d x s) := withDu_only s _

theorem sendCall_only (r : DetectorRecord) (s : State) : Only [.sq] s (sendCall r s) := by
  unfold sendCall
  repeat' split
  · exact writeCall_only _ s
  · exact Only.refl _ s
  · exact Only.refl _ s

theorem onEdge_only (r : DetectorRecord) (d : Detector) (s : State) : Only [.sq, .du, .pl, .lu] s (onEdge r d s) := by
  have h : Only [.sq, .du, .pl, .lu] s (sendCall r (setDet d (onEdgeOf s.du[d]) s)) :=
    ((setDet_only d _ s).mono (by simp)).trans ((sendCall_only r _).mono (by simp))
  unfold onEdge
  dsimp only
  split
  · exact h.trans ((exitEdge_only d _).mono (by simp))
  · exact h

theorem detectorTick_only (img : Image) (s : State) (d : Detector) : Only [.sq, .du, .pl, .lu] s (detectorTick img s d) := by
  unfold detectorTick
  dsimp only
  repeat' split
  · exact (setDet_only d _ s).mono (by simp)
  · exact (setDet_only d _ s).mono (by simp)
  · exact onEdge_only _ d s
  · exact (setDet_only d _ s).mono (by simp)

theorem duWork_only (s : State) : Only [.sq, .du, .pl, .lu] s (duWork s) := by
  unfold duWork
  split
  · exact Only.refl _ s
  · exact Only.foldl _ (fun u d => detectorTick_only _ u d) _ s

theorem synchronise_only (img : Image) (s : State) : Only [.ck] s (synchronise img s) := by
  unfold synchronise
  repeat' split
  · exact withCk_only s _
  · exact withCk_only s _
  · exact withCk_only s _
  · exact withCk_only s _

theorem followPlan_only (img : Image) (s : State) : Only [.ck] s (followPlan img s) := by
  unfold followPlan
  repeat' split
  · exact Only.refl _ s
  · exact Only.refl _ s
  · exact withCk_only s _
  · exact Only.refl _ s

theorem countBeacon_only (img : Image) (s : State) : Only [.ck, .lu] s (countBeacon img s) := by
  unfold countBeacon
  dsimp only
  repeat' split
  · exact ((withCk_only s _).mono (by simp)).trans ((offer_only _ _).mono (by simp))
  · exact (withCk_only s _).mono (by simp)
  · exact Only.refl _ s

theorem adoptPending_only (img : Image) (s : State) : Only [.ck, .sq] s (adoptPending img s) := by
  unfold adoptPending
  split
  · exact Only.refl _ s
  · exact (withCk_only s _).comp (withSq_only _ _) (by simp) (by simp)

theorem runCycle_only (img : Image) (r : PlanRecord) (s : State) : Only [.ck, .sq] s (runCycle img r s) := by
  unfold runCycle
  dsimp only
  split
  · exact ((withCk_only s _).mono (by simp)).trans (adoptPending_only img _)
  · exact ((withCk_only s _).trans (withCk_only _ _)).mono (by simp)

theorem ckWork_only (s : State) : Only [.ck, .sq, .lu] s (ckWork s) := by
  have mark (img : Image) (u : State) : Only [.ck, .sq, .lu] u (markStage img u) := by
    unfold markStage
    split
    · exact ((synchronise_only img u).mono (by simp)).trans ((followPlan_only img _).mono (by simp))
    · exact Only.refl _ u
  have second (img : Image) (u : State) : Only [.ck, .sq, .lu] u (secondStage img u) := by
    unfold secondStage
    split
    · exact ((countBeacon_only img u).mono (by simp)).trans ((withCk_only _ _).mono (by simp))
    · exact Only.refl _ u
  unfold ckWork
  split
  · rename_i img r _ _
    have h : Only [.ck, .sq, .lu] s (secondStage img (markStage img s)) := (mark img s).trans (second img _)
    dsimp only
    repeat' split
    · exact h.trans ((withCk_only _ _).mono (by simp))
    · exact h.trans ((runCycle_only img r _).mono (by simp))
    · exact h.trans ((adoptPending_only img _).mono (by simp))
    · exact h.trans ((withCk_only _ _).mono (by simp))
  · exact Only.refl _ s

theorem restartClock_only (s : State) : Only [.ck] s (restartClock s) := withCk_only s _

theorem selectPlan_only (img : Image) (p : Plan) (s : State) : Only [.ck] s (selectPlan img p s) := by
  unfold selectPlan
  split
  · exact Only.refl _ s
  · exact withCk_only s _

theorem setPlace_only (p : Place) (e : Option Entry) (s : State) : Only [.nt] s (setPlace p e s) := withNt_only s _

theorem fillPlace_only (sender : Nat) (p : Place) (e : Option Entry) (s : State) : Only [.nt] s (fillPlace sender p e s) :=
  withNt_only s _

theorem takeBeacon_only (img : Image) (sender : Nat) (b : LastBeacon) (s : State) :
    Only [.nt] s (takeBeacon img sender b s) := by
  unfold takeBeacon
  repeat' split
  · exact fillPlace_only _ _ _ s
  · exact fillPlace_only _ _ _ s
  · exact fillPlace_only _ _ _ s
  · exact withNt_only s _

theorem takeFlashMode_only (sender : Nat) (s : State) : Only [.nt] s (takeFlashMode sender s) := by
  unfold takeFlashMode
  split
  · exact setPlace_only _ _ s
  · exact Only.refl _ s

theorem ntWork_only (s : State) : Only [.nt] s (ntWork s) := withNt_only s _

theorem restartTable_only (s : State) : Only [.nt] s (restartTable s) := withNt_only s _

theorem takePreemptAlert_only (sender serial eta : Nat) (s : State) :
    Only [.pe] s (takePreemptAlert sender serial eta s) := by
  unfold takePreemptAlert countIgnored
  split
  · exact Only.refl _ s
  · dsimp only
    repeat' split
    all_goals exact withPe_only s _

theorem cancelAlert_only (sender : Nat) (s : State) : Only [.pe] s (cancelAlert sender s) := by
  unfold cancelAlert
  repeat' split
  · exact withPe_only s _
  · exact Only.refl _ s
  · exact Only.refl _ s

theorem dispatch_only (img : Image) (bs : List Byte) (s : State) : Only [.nt, .pl, .pe, .sq] s (dispatch img bs s) := by
  unfold dispatch takeFlashAlert
  dsimp only
  repeat' split
  · exact (takeBeacon_only img _ _ s).mono (by simp)
  · exact (((takeFlashMode_only _ s).mono (by simp)).trans ((purgeSender_only _ _).mono (by simp))).trans
      ((cancelAlert_only _ _).mono (by simp))
  · exact Only.refl _ s
  · exact (takePreemptAlert_only _ _ _ s).mono (by simp)
  · exact (takePlatoon_only _ _ _ _ s).mono (by simp)

theorem judge_only (echo : Bool) (bs : List Byte) (s : State) : Only [.lu, .nt, .pl, .pe, .sq] s (judge echo bs s) := by
  unfold judge setCounters countClash
  dsimp only
  repeat' split
  · exact Only.refl _ s
  · exact (withLu_only s _).mono (by simp)
  · exact (withLu_only s _).mono (by simp)
  · exact Only.refl _ s
  · exact (withLu_only s _).mono (by simp)
  · exact ((withLu_only s _).mono (by simp)).trans ((dispatch_only _ bs _).mono (by simp))

theorem assemble_only (echo : Bool) (b : Byte) (framingError : Bool) (s : State) :
    Only [.lu, .nt, .pl, .pe, .sq] s (assemble echo b framingError s) := by
  have lu (u : State) (x : LuState) : Only [.lu, .nt, .pl, .pe, .sq] u (u.withLu x) := (withLu_only u x).mono (by simp)
  have keep (bs : List Byte) : Only [.lu, .nt, .pl, .pe, .sq] s (keepByte echo bs s) := by
    unfold keepByte setAssembler setCounters
    dsimp only
    repeat' split
    · exact lu s _
    · exact (lu s _).trans (lu _ _)
    · exact lu s _
    · exact (lu s _).trans (judge_only echo bs _)
  unfold assemble fragment setAssembler
  repeat' split
  · exact Only.refl _ s
  · exact lu s _
  · exact (lu s _).trans (lu _ _)
  · exact (lu s _).trans (lu _ _)
  · exact keep _

theorem readback_only (b : Byte) (framingError : Bool) (s : State) : Only [.lu, .ck] s (readback b framingError s) := by
  unfold readback
  repeat' split
  · exact Only.refl _ s
  · exact attemptFailed_only s
  · exact attemptSucceeded_only s
  · exact (withLu_only s _).mono (by simp)

theorem receiveByte_only (b : Byte) (framingError : Bool) (s : State) :
    Only [.lu, .ck, .nt, .pl, .pe, .sq] s (receiveByte b framingError s) :=
  (((withLu_only s _).mono (by simp)).trans ((assemble_only _ b framingError _).mono (by simp))).trans
    ((readback_only b framingError _).mono (by simp))

end Sys2Proof.Machine
end

