-- ==== Sys2Proof/Laws/StationFrames.lean ====
section
/-! SUPPORT. Laws/StationFrames.lean: what the operations that span the station can change: resets, loads, the works of a tick and
the delivered commands. -/

namespace Sys2Proof.Machine

/-! ## Resets and loads -/

theorem resetStation_only (s : State) :
    Only [.tb, .os, .cf, .ge, .sq, .du, .ck, .lu, .nt, .pl, .pe, .mp] s (resetStation s) := by
  intro b hb; cases b <;> first | rfl | simp at hb

theorem reloadStation_only (s : State) :
    Only [.os, .cf, .ge, .sq, .du, .ck, .lu, .nt, .pl, .pe] s (reloadStation s) := by
  unfold reloadStation clearForLoad groupsOff reloadLine reloadPe
  dsimp only
  refine Only.trans ?_ ((withPl_only _ _).mono (by simp))
  refine Only.trans ?_ ((withNt_only _ _).mono (by simp))
  refine Only.trans ?_ ((withPe_only _ _).mono (by simp))
  refine Only.trans ?_ ((withLu_only _ _).mono (by simp))
  refine Only.trans ?_ ((withGe_only _ _).mono (by simp))
  refine Only.trans ?_ ((withCk_only _ _).mono (by simp))
  refine Only.trans ?_ ((withDu_only _ _).mono (by simp))
  refine Only.trans ?_ ((withSq_only _ _).mono (by simp))
  refine Only.trans ?_ ((withCf_only _ _).mono (by simp))
  exact (withOs_only s _).mono (by simp)

theorem failLoad_only (cause : LoadCause) (clamped : Nat) (s : State) : Only [.cf, .os] s (failLoad cause clamped s) :=
  (withCf_only s _).comp (withOs_only _ _) (by simp) (by simp)

theorem enableLine_only (s : State) : Only [.lu] s (enableLine s) := withLu_only s _

theorem loadClock_only (img : Image) (s : State) : Only [.ck] s (loadClock img s) := withCk_only s _

theorem reloadPe_only (s : State) : Only [.pe] s (reloadPe s) := withPe_only s _

theorem resetDetectors_only (s : State) : Only [.du] s (resetDetectors s) := withDu_only s _

theorem completeLoad_only (m : Image) (clamped : Nat) (s : State) :
    Only [.os, .cf, .ge, .sq, .du, .ck, .lu, .nt, .pl, .pe] s (completeLoad m clamped s) := by
  unfold completeLoad
  dsimp only
  refine Only.trans ?_ ((enterStartFlash_only _).mono (by simp))
  refine Only.trans ?_ ((resetDetectors_only _).mono (by simp))
  refine Only.trans ?_ ((reloadPe_only _).mono (by simp))
  refine Only.trans ?_ ((withPl_only _ _).mono (by simp))
  refine Only.trans ?_ ((withNt_only _ _).mono (by simp))
  refine Only.trans ?_ ((loadClock_only m _).mono (by simp))
  refine Only.trans ?_ ((enableLine_only _).mono (by simp))
  exact (withCf_only s _).mono (by simp)

theorem judgeImage_only (bs : List Byte) (s : State) :
    Only [.os, .cf, .ge, .sq, .du, .ck, .lu, .nt, .pl, .pe] s (judgeImage bs s) := by
  unfold judgeImage
  dsimp only
  repeat' split
  · exact (failLoad_only _ _ s).mono (by simp)
  · exact completeLoad_only _ _ s
  · exact (failLoad_only _ _ s).mono (by simp)

/-! ## The works of a tick -/

theorem peWork_only (s : State) : Only [.free, .pe, .sq, .lu] s (peWork s) := by
  have count (u : State) : Only [.free, .pe, .sq, .lu] u (countInhibit u) := by
    unfold countInhibit
    split
    · exact (withPe_only u _).mono (by simp)
    · exact Only.refl _ u
  have sampled (img : Image) (u : State) : Only [.free, .pe, .sq, .lu] u (sampleRequests img u) :=
    (withPe_only u _).mono (by simp)
  have moved (img : Image) (u : State) : Only [.free, .pe, .sq, .lu] u (moveRequests img u) :=
    (withPe_only u _).mono (by simp)
  have tenth (u : State) : Only [.free, .pe, .sq, .lu] u (if tenthMark u = true then u.withPe (countPeTimers u.pe) else u) := by
    split
    · exact (withPe_only u _).mono (by simp)
    · exact Only.refl _ u
  unfold peWork
  repeat' split
  · exact Only.refl _ s
  · exact (count s).trans ((((sampled _ _).trans (tenth _)).trans (moved _ _)).trans (serviceDecisions_only _ _))
  · exact count s

theorem reportHalt_only (s : State) : Only [.os, .ge, .sq, .pl, .pe, .lu] s (reportHalt s) :=
  ((withSq_only s _).mono (by simp)).trans (enterFlash_only _ _ _)

theorem countSqTimers_only (s : State) : Only [.sq] s (countSqTimers s) := by
  unfold countSqTimers
  split
  · dsimp only
    repeat' split
    · exact (withSq_only s _).trans (withSq_only _ _)
    · exact withSq_only s _
    · exact withSq_only s _
  · exact Only.refl _ s

theorem takeOrders_only (s : State) : Only [.ge, .sq] s (takeOrders s) := by
  unfold takeOrders
  dsimp only
  split
  · exact (takeArrivals_only s).trans (takeHalt_only _)
  · exact takeArrivals_only s

theorem startHold_only (s : State) : Only [.sq] s (startHold s) := by
  unfold startHold
  split
  · exact withSq_only s _
  · exact Only.refl _ s

theorem startMax_only (s : State) : Only [.sq] s (startMax s) := by
  unfold startMax
  repeat' split
  · exact Only.refl _ s
  · exact Only.refl _ s
  · exact withSq_only s _
  · exact withSq_only s _
  · exact Only.refl _ s

theorem latchForceOff_only (s : State) : Only [.sq] s (latchForceOff s) := by
  unfold latchForceOff
  dsimp only
  repeat' split
  all_goals exact withSq_only s _

theorem testTermination_only (s : State) : Only [.ge, .sq] s (testTermination s) := by
  have h : Only [.sq] s (testLatch (startHold (startMax (latchForceOff s)))) :=
    (((latchForceOff_only s).trans (startMax_only _)).trans (startHold_only _)).trans (testLatch_only _)
  exact (h.mono (by simp)).trans (testYield_only _ _)

theorem sqEvaluation_only (s : State) : Only [.os, .ge, .sq, .pl, .pe, .lu] s (sqEvaluation s) := by
  have h : Only [.ge, .sq] s (runSelection (testTermination (takeOrders (followChange (countSqTimers s))))) :=
    (((((countSqTimers_only s).mono (by simp)).trans (followChange_only _)).trans (takeOrders_only _)).trans
      (testTermination_only _)).trans (runSelection_only _)
  have k (u : State) (x : SqState) : Only [.os, .ge, .sq, .pl, .pe, .lu] u (readGreens (u.withSq x)) :=
    (withSq_only u x).comp (readGreens_only _) (by simp) (by simp)
  unfold sqEvaluation
  dsimp only
  split
  · exact ((h.mono (by simp)).trans (k _ _)).trans (reportHalt_only _)
  · exact (h.mono (by simp)).trans (k _ _)

theorem sqWork_only (s : State) : Only [.os, .ge, .sq, .pl, .pe, .lu] s (sqWork s) := by
  unfold sqWork
  split
  · exact sqEvaluation_only s
  · exact Only.refl _ s

theorem modeTimerWork_only (began : Mode) (s : State) : Only [.os, .ge, .sq, .pl] s (modeTimerWork began s) := by
  unfold modeTimerWork
  dsimp only
  repeat' split
  · exact ((withOs_only s _).mono (by simp)).trans (modeAfterTimer_only _)
  · exact (withOs_only s _).mono (by simp)
  · exact Only.refl _ s

theorem monitorWork_only (s : State) : Only [.os, .ge, .sq, .pl, .pe, .lu] s (monitorWork s) := by
  unfold monitorWork
  dsimp only
  repeat' split
  · exact Only.refl _ s
  · exact (withOs_only s _).mono (by simp)
  · exact ((withOs_only s _).mono (by simp)).trans (latchFault_only _ _ _)
  · exact Only.refl _ s

theorem supervisorWork_only (began : Mode) (s : State) :
    Only [.os, .ge, .sq, .pl, .pe, .lu] s (supervisorWork began s) := by
  unfold supervisorWork
  split
  · exact (monitorWork_only s).trans ((modeTimerWork_only _ _).mono (by simp))
  · exact ((modeTimerWork_only _ s).mono (by simp)).trans (monitorWork_only _)

/-! ## Delivered commands -/

theorem clearPending_only (mask : BitVec 24) (s : State) : Only [.du] s (clearPending mask s) := withDu_only s _

theorem restartPe_only (s : State) : Only [.pe] s (restartPe s) := withPe_only s _

theorem restartLinks_only (s : State) : Only [.pl] s (restartLinks s) := withPl_only s _

theorem restartStation_only (s : State) : Only [.os, .ge, .sq, .pl, .pe] s (restartStation s) := by
  unfold restartStation
  refine Only.trans ?_ ((enterStartRed_only _).mono (by simp))
  refine Only.trans ?_ ((restartLinks_only _).mono (by simp))
  refine Only.trans ?_ ((emptyQueue_only _).mono (by simp))
  refine Only.trans ?_ ((restartPe_only _).mono (by simp))
  exact (withOs_only s _).mono (by simp)

theorem manualFlashOnEffect_only (s : State) : Only [.os, .ge, .sq, .pe] s (manualFlashOnEffect s) := by
  unfold manualFlashOnEffect
  split
  · exact enterFlashEntry_only s
  · exact Only.refl _ s

theorem blockRestartDetectors_only (s : State) : Only [.du] s (blockRestartDetectors s) := by
  unfold blockRestartDetectors
  split
  · exact resetDetectors_only s
  · exact Only.refl _ s

/-- A delivered command changes the Maintenance Port and what its effect changes. -/
theorem deliver_only {bs : List Block} (c : MpCommand) (s : State) (h : Only bs s (carryOut s c)) :
    Only (.mp :: bs) s (deliver c s) := by
  unfold deliver
  dsimp only
  split
  · exact (h.mono (by simp +contextual)).trans ((withMp_only _ _).mono (by simp))
  · exact (withMp_only s _).mono (by simp)

theorem placeCallEffect_only (arg : Byte) (s : State) : Only [.sq] s (placeCallEffect arg s) := by
  unfold placeCallEffect
  split
  · exact writeCall_only _ s
  · exact Only.refl _ s

theorem selectPlanEffect_only (arg : Byte) (s : State) : Only [.ck] s (selectPlanEffect arg s) := by
  unfold selectPlanEffect
  split
  · exact selectPlan_only _ _ s
  · exact Only.refl _ s

theorem blockRestartEffect_only (arg : Nat) (s : State) : Only [.lu, .ck, .nt, .du] s (blockRestartEffect arg s) := by
  unfold blockRestartEffect
  repeat' split
  · exact (restartLine_only s).mono (by simp)
  · exact ((restartTable_only s).mono (by simp)).trans ((restartClock_only _).mono (by simp))
  · exact (blockRestartDetectors_only s).mono (by simp)

/-- Whatever the command, its delivery leaves the input pins, the time base, the counter of free values and the queue. -/
theorem carryOut_only (c : MpCommand) (s : State) :
    Only [.os, .cf, .ge, .sq, .du, .ck, .lu, .nt, .pl, .pe] s (carryOut s c) := by
  cases c
  case exchangePending mask => exact (clearPending_only mask s).mono (by simp)
  case placeCall arg => exact (placeCallEffect_only arg s).mono (by simp)
  case selectPlan arg => exact (selectPlanEffect_only arg s).mono (by simp)
  case manualFlashOn => exact (manualFlashOnEffect_only s).mono (by simp)
  case manualFlashOff => exact (enterStartRed_only s).mono (by simp)
  case restart => exact (restartStation_only s).mono (by simp)
  case reload => exact reloadStation_only s
  case blockRestart arg => exact (blockRestartEffect_only _ s).mono (by simp)
  all_goals exact Only.refl _ s

theorem mpWork_only (s : State) : Only [.os, .cf, .ge, .sq, .du, .ck, .lu, .nt, .pl, .pe, .mp] s (mpWork s) := by
  unfold mpWork
  split
  · exact (deliver_only _ s (carryOut_only _ s)).mono (by simp)
  · exact Only.refl _ s

/-- No work of a tick touches the input pins, the time base or the queue. -/
theorem doWork_only (began : Mode) (s : State) (w : Work) :
    Only [.free, .os, .cf, .ge, .sq, .du, .ck, .lu, .nt, .pl, .pe, .mp] s (doWork began s w) := by
  cases w with
  | mp => exact (mpWork_only s).mono (by simp)
  | groups => exact (geWork_only s).mono (by simp)
  | sequencer => exact (sqWork_only s).mono (by simp)
  | detectors => exact (duWork_only s).mono (by simp)
  | clock => exact (ckWork_only s).mono (by simp)
  | neighbors => exact (ntWork_only s).mono (by simp)
  | platoonCountdown => exact (plQueueWork_only s).mono (by simp)
  | greenTimers => exact (plTimerWork_only s).mono (by simp)
  | preemption => exact (peWork_only s).mono (by simp)
  | supervisor => exact (supervisorWork_only _ s).mono (by simp)

end Sys2Proof.Machine
end

