-- ==== Sys2Proof/Laws/Ops.lean ====
section
/-! SUPPORT. Laws/Ops.lean: one lemma for each shared operation that says what it does, for the provers to cite. -/

namespace Sys2Proof.Machine

/-! ## Numbers and bytes -/

theorem satInc_le (limit n : Nat) : satInc limit n ≤ limit := Nat.min_le_right _ _

theorem satInc_of_lt {limit n : Nat} (h : n < limit) : satInc limit n = n + 1 := by
  unfold satInc; omega

@[simp] theorem beBytes_length (k v : Nat) : (beBytes k v).length = k := by
  induction k generalizing v with
  | zero => rfl
  | succ k ih => simp [beBytes, ih]

theorem beBytes_two (v : Nat) : beBytes 2 v = [BitVec.ofNat 8 (v / 256), BitVec.ofNat 8 v] := by
  simp [beBytes]

theorem u16_beBytes {v : Nat} (h : v < 65536) : u16 (BitVec.ofNat 8 (v / 256)) (BitVec.ofNat 8 v) = v := by
  simp only [u16, BitVec.toNat_ofNat]
  omega

@[simp] theorem crcBytes_length (bytes : List Byte) : (crcBytes bytes).length = 2 := beBytes_length _ _

theorem codeItem_eq_some {n code : Nat} {i : Fin n} : codeItem n code = some i ↔ code = i.val + 1 := by
  unfold codeItem
  split
  · simp only [Option.some.injEq, Fin.ext_iff]; omega
  · simp only [reduceCtorEq, false_iff]; omega

theorem whenDue_true {c : Bool} (h : c = true) (t s : State) : whenDue c t s = t := by simp [whenDue, h]
theorem whenDue_false {c : Bool} (h : c = false) (t s : State) : whenDue c t s = s := by simp [whenDue, h]

/-! ## Groups -/

@[simp] theorem mapGroups_ge (f : Group → GroupState → GroupState) (s : State) (g : Group) :
    (mapGroups f s).ge[g] = f g s.ge[g] := tab_get (fun g => f g s.ge[g]) g

@[simp] theorem installGroups_ge (ge : Vector GroupState 16) (s : State) : (installGroups ge s).ge = ge := rfl

@[simp] theorem installGroups_calls (ge : Vector GroupState 16) (s : State) (g : Group) :
    (installGroups ge s).sq.calls[g] = (s.sq.calls[g] && !(ge[g].phase == .green && s.ge[g].phase != .green)) :=
  tab_get (fun g : Group => s.sq.calls[g] && !(ge[g].phase == .green && s.ge[g].phase != .green)) g

@[simp] theorem addLeave_phase (k : Leave) (g : GroupState) : (addLeave k g).phase = g.phase := rfl

@[simp] theorem addLeaveIfNone_phase (k : Leave) (g : GroupState) : (addLeaveIfNone k g).phase = g.phase := by
  unfold addLeaveIfNone; split <;> rfl

@[simp] theorem withdrawLeave_phase (g : GroupState) : (withdrawLeave g).phase = g.phase := by
  unfold withdrawLeave; split <;> simp_all

@[simp] theorem downgradeLeave_phase (g : GroupState) : (downgradeLeave g).phase = g.phase := by
  unfold downgradeLeave; split <;> simp_all

@[simp] theorem addEntry_phase (m : Mode) (g : GroupState) : (addEntry m g).phase = g.phase := by
  unfold addEntry; split <;> rfl

@[simp] theorem withdrawEntry_phase (g : GroupState) : (withdrawEntry g).phase = g.phase := rfl

@[simp] theorem discardRequests_phase (g : GroupState) : (discardRequests g).phase = g.phase := by
  unfold discardRequests; split <;> simp_all

@[simp] theorem changeRequest_phase (s : State) (t : Stage) (k : Leave) (g : Group) (x : GroupState) :
    (changeRequest s t k g x).phase = x.phase := by
  unfold changeRequest; repeat' split
  all_goals simp

@[simp] theorem redirectRequest_phase (s : State) (t : Stage) (k : Leave) (g : Group) (x : GroupState) :
    (redirectRequest s t k g x).phase = x.phase := by
  unfold redirectRequest; dsimp only; repeat' split
  all_goals simp

/-- What a gate's opening leads to: PREP or GREEN, with the entry request cleared. -/
theorem passGate_cases (r : GroupRecord) (g : GroupState) :
    (passGate r g).entry = false ∧ (passGate r g).leave = g.leave ∧ (passGate r g).e = g.e ∧
      ((0 < r.prep ∧ (passGate r g).phase = .prep ∧ (passGate r g).timer = r.prep) ∨
        (r.prep = 0 ∧ (passGate r g).phase = .green ∧ (passGate r g).timer = r.minGreen)) := by
  unfold passGate
  split
  · exact ⟨rfl, rfl, rfl, .inl ⟨‹_›, rfl, rfl⟩⟩
  · exact ⟨rfl, rfl, rfl, .inr ⟨by omega, rfl, rfl⟩⟩

/-- One evaluation of the second pass changes nothing, or opens the gate of its group. -/
theorem tryGate_cases (img : Image) (mode : Mode) (ge : Vector GroupState 16) (g : Group) :
    tryGate img mode ge g = ge ∨
      (mode = .run ∧ ge[g].phase = .red ∧ ge[g].entry = true ∧ gateOpen img ge g = true ∧
        tryGate img mode ge g = put ge g (passGate img.groups[g] ge[g])) := by
  unfold tryGate
  split
  · rename_i h
    simp only [Bool.and_eq_true, decide_eq_true_eq, beq_iff_eq] at h
    exact .inr ⟨h.1.1.1, h.1.1.2, h.1.2, h.2, rfl⟩
  · exact .inl rfl

/-! ## Calls -/

/-- A write sets the group's call, or is ignored for a group in GREEN or OFF. -/
theorem writeCall_cases (g : Group) (s : State) :
    ((s.ge[g].phase = .green ∨ s.ge[g].phase = .off) ∧ writeCall g s = s) ∨
      ((s.ge[g].phase ≠ .green ∧ s.ge[g].phase ≠ .off) ∧
        writeCall g s = s.withSq { s.sq with calls := put s.sq.calls g true }) := by
  unfold writeCall
  split <;> simp_all

/-! ## The transmit queue -/

theorem insertQueued_perm (x : Queued) (q : List Queued) : (insertQueued x q).Perm (x :: q) := by
  induction q with
  | nil => exact List.Perm.refl _
  | cons y rest ih =>
    unfold insertQueued
    split
    · exact List.Perm.refl _
    · exact (List.Perm.cons y ih).trans (List.Perm.swap x y rest)

theorem mem_insertQueued {x y : Queued} {q : List Queued} : y ∈ insertQueued x q ↔ y = x ∨ y ∈ q := by
  rw [(insertQueued_perm x q).mem_iff]; simp

@[simp] theorem insertQueued_length (x : Queued) (q : List Queued) : (insertQueued x q).length = q.length + 1 :=
  (insertQueued_perm x q).length_eq

/-- The answers of R104, each with its condition. -/
theorem offerAnswer_cases (lu : LuState) (f : TxFrame) :
    (offerAnswer lu f = .discarded ∧ lu.access = .disabled) ∨
      (offerAnswer lu f = .replaced ∧ lu.access ≠ .disabled ∧ lu.queue.any (sameSlot f) = true) ∨
      (offerAnswer lu f = .refused ∧ lu.access ≠ .disabled ∧ lu.queue.any (sameSlot f) = false ∧ kindRank f = 2 ∧
        3 ≤ platoonFrames lu.queue) ∨
      (offerAnswer lu f = .placed ∧ lu.access ≠ .disabled ∧ lu.queue.any (sameSlot f) = false ∧
        (kindRank f = 2 → platoonFrames lu.queue < 3)) := by
  unfold offerAnswer
  split
  · exact .inl ⟨rfl, ‹_›⟩
  · split
    · exact .inr (.inl ⟨rfl, ‹_›, ‹_›⟩)
    · split
      · exact .inr (.inr (.inl ⟨rfl, ‹_›, by simpa using ‹¬lu.queue.any (sameSlot f) = true›, ‹_ ∧ _›.1, ‹_ ∧ _›.2⟩))
      · refine .inr (.inr (.inr ⟨rfl, ‹_›, by simpa using ‹¬lu.queue.any (sameSlot f) = true›, ?_⟩))
        intro hk
        rename_i h
        simp only [hk, true_and] at h
        omega

/-- What leaving IDLE can do to the queue and its counter: the head may have been taken in hand. -/
theorem startAttempt_queue (s : State) : (startAttempt s).lu.queue = s.lu.queue ∨
    (∃ q, s.lu.inHand = none ∧ s.lu.queue = q :: (startAttempt s).lu.queue) := by
  unfold startAttempt
  dsimp only
  split
  · exact .inl rfl
  · exact .inr ⟨_, by assumption, by assumption⟩
  · exact .inl rfl

@[simp] theorem startAttempt_nextEntry (s : State) : (startAttempt s).lu.nextEntry = s.lu.nextEntry := by
  unfold startAttempt
  dsimp only
  split <;> rfl

/-- A draw leads to SENDING at once, or to BACKOFF with the slots drawn. -/
theorem drawBackoff_cases (s : State) :
    (sequenceStep s.lu.sequence).toNat % 2 ^ s.lu.exponent = 0 ∧
        drawBackoff s = startAttempt (s.withLu { s.lu with sequence := sequenceStep s.lu.sequence, slots := 0, access := .backoff }) ∨
      0 < (sequenceStep s.lu.sequence).toNat % 2 ^ s.lu.exponent ∧
        drawBackoff s = s.withLu { s.lu with
          sequence := sequenceStep s.lu.sequence,
          slots := (sequenceStep s.lu.sequence).toNat % 2 ^ s.lu.exponent, access := .backoff } := by
  unfold drawBackoff
  dsimp only
  split
  · rename_i h
    left
    refine ⟨h, ?_⟩
    rw [h]
  · right
    exact ⟨by omega, rfl⟩

/-! ## The platoon queue -/

theorem insertNotice_perm (x : Notice) (q : List Notice) : (insertNotice x q).Perm (x :: q) := by
  induction q with
  | nil => exact List.Perm.refl _
  | cons y rest ih =>
    unfold insertNotice
    split
    · exact List.Perm.refl _
    · exact (List.Perm.cons y ih).trans (List.Perm.swap x y rest)

@[simp] theorem insertNotice_length (x : Notice) (q : List Notice) : (insertNotice x q).length = q.length + 1 :=
  (insertNotice_perm x q).length_eq

theorem mem_insertNotice {x y : Notice} {q : List Notice} : y ∈ insertNotice x q ↔ y = x ∨ y ∈ q := by
  rw [(insertNotice_perm x q).mem_iff]; simp

theorem sortNotices_perm (q : List Notice) : (sortNotices q).Perm q := by
  induction q with
  | nil => exact List.Perm.refl _
  | cons x rest ih => exact (insertNotice_perm x _).trans (List.Perm.cons x ih)

@[simp] theorem setQueue_queue (q : List Notice) (s : State) : (setQueue q s).pl.queue = q := rfl

@[simp] theorem setQueue_accepting (q : List Notice) (s : State) :
    (setQueue q s).pl.accepting = acceptingAfter q.length s.pl.accepting := rfl

/-! ## The neighbor table -/

@[simp] theorem setPlace_places (p q : Place) (e : Option Entry) (s : State) :
    (setPlace p e s).nt.places[q] = if p = q then e else s.nt.places[q] :=
  put_get s.nt.places p q e

@[simp] theorem setPlace_passOver (p : Place) (e : Option Entry) (s : State) : (setPlace p e s).nt.passOver = s.nt.passOver := rfl

@[simp] theorem fillPlace_places (sender : Nat) (p q : Place) (e : Option Entry) (s : State) :
    (fillPlace sender p e s).nt.places[q] = if p = q then e else s.nt.places[q] :=
  put_get s.nt.places p q e

@[simp] theorem fillPlace_passOver (sender : Nat) (p q : Place) (e : Option Entry) (s : State) :
    (fillPlace sender p e s).nt.passOver[q] =
      if p = q then Config.beaconBeforeAgeing s.free sender else s.nt.passOver[q] :=
  put_get s.nt.passOver p q _

/-- R124, R125: one place at a tick. -/
@[simp] theorem ntWork_places (s : State) (p : Place) :
    (ntWork s).nt.places[p] = if s.nt.passOver[p] then s.nt.places[p] else (s.nt.places[p]).bind ageEntry :=
  tab_get (fun p : Place => if s.nt.passOver[p] then s.nt.places[p] else (s.nt.places[p]).bind ageEntry) p

@[simp] theorem ntWork_passOver (s : State) (p : Place) : (ntWork s).nt.passOver[p] = false :=
  tab_get (fun _ : Place => false) p

@[simp] theorem ntWork_refused (s : State) : (ntWork s).nt.refused = s.nt.refused := rfl

/-- What taking a BEACON does: it is written into its sender's entry, or into a new entry in a free place or in the place of a
STALE unpinned entry, or it is refused. -/
theorem takeBeacon_cases (img : Image) (sender : Nat) (b : LastBeacon) (s : State) :
    (∃ p, places.find? (holdsAddress s sender) = some p ∧
        takeBeacon img sender b s = fillPlace sender p ((s.nt.places[p]).map (writeBeacon b)) s) ∨
      places.find? (holdsAddress s sender) = none ∧
        ((∃ p, places.find? (fun p => s.nt.places[p].isNone) = some p ∧
            takeBeacon img sender b s = fillPlace sender p (some (unpinnedEntry img sender b)) s) ∨
          places.find? (fun p => s.nt.places[p].isNone) = none ∧
            ((∃ p, oldestPlace s (places.filter (replaceable s)) = some p ∧
                takeBeacon img sender b s = fillPlace sender p (some (unpinnedEntry img sender b)) s) ∨
              oldestPlace s (places.filter (replaceable s)) = none ∧
                takeBeacon img sender b s = s.withNt { s.nt with refused := satInc 255 s.nt.refused })) := by
  unfold takeBeacon
  split
  · exact .inl ⟨_, by assumption, rfl⟩
  · refine .inr ⟨by assumption, ?_⟩
    split
    · exact .inl ⟨_, by assumption, rfl⟩
    · refine .inr ⟨by assumption, ?_⟩
      split
      · exact .inl ⟨_, by assumption, rfl⟩
      · exact .inr ⟨by assumption, rfl⟩

/-! ## The Stage Sequencer's readings and changes, in the words of the rules -/

/-- R26, R27. -/
theorem stageDemand_iff {s : State} {img : Image} (hi : s.cf.image = some img) (st : Stage) :
    stageDemand s st = true ↔ StageHasDemand img s st := by
  unfold stageDemand StageHasDemand groupDemand GroupHasDemand stageRecalled detectorDemand inStage coordinatedStage DetState.failed
  simp only [hi]
  cases activePlan s with
  | none => simp; grind
  | some r => simp [PlanRecord.isCoordinated]; grind

/-- R28. -/
theorem extensionActive_iff {s : State} {img : Image} (hi : s.cf.image = some img) (st : Stage) :
    extensionActive s st = true ↔ Extended img s st := by
  unfold extensionActive Extended DetState.failed
  simp [hi]
  grind

/-- R35. -/
theorem platoonHold_iff (s : State) : platoonHold s = true ↔ PlatoonHolds s := by
  unfold platoonHold PlatoonHolds
  simp

/-- R31, R33. -/
theorem minGreensDone_iff (s : State) (st : Stage) : minGreensDone s st = true ↔ MinGreensRun s st := by
  unfold minGreensDone MinGreensRun
  simp
  grind

/-- R135. -/
theorem outboundGreen_iff (s : State) (p : Place) : outboundGreen s p = true ↔ OutboundGreen s p := by
  unfold OutboundGreen outboundGreen linkAt
  cases s.nt.places[p] with
  | none => simp
  | some e => cases hl : e.link with
    | none => simp [hl]
    | some l => cases ho : l.outStage with
      | none => simp [hl, ho]
      | some st => simp [hl, ho, stageComplete, and_comm]

/-- R135: PL's reading after any change that leaves PL alone. -/
theorem readGreens_reread {s t : State} (h : t.pl = s.pl) : GreensReread s (readGreens t) := by
  refine ⟨by simp [readGreens, h], fun p => ?_⟩
  have hg : OutboundGreen (readGreens t) p ↔ outboundGreen t p = true := (outboundGreen_iff t p).symm
  rw [show (readGreens t).pl.links[p] = (t.pl.links[p]).map (readGreen (outboundGreen t p)) from
    tab_get (fun p : Place => (t.pl.links[p]).map (readGreen (outboundGreen t p))) p, h]
  unfold GreenRead
  cases s.pl.links[p] with
  | none => simp
  | some l =>
    rw [hg]
    cases outboundGreen t p <;> cases hl : l.green <;> simp [readGreen, hl]

theorem enteringGroups_iff (s : State) (u : Stage) (g : Group) :
    (enteringGroups s u)[g] = true ↔ inStage s u g = true ∧ s.ge[g].phase ≠ .green := by
  rw [show (enteringGroups s u)[g] = (inStage s u g && s.ge[g].phase != .green) from tab_get _ g]
  simp

/-- R37: everything a change does. -/
theorem startChange_started (cause : TermCause) (truncating : Bool) (u : Stage) (s : State) :
    ChangeStarted cause truncating u s (startChange cause truncating u s) := by
  have hk : changeKind (isTruncating cause truncating (enteringGroups s u)) =
      if cause = .preempt ∧ truncating = true ∧ ∃ a : Group, inStage s u a = true ∧ s.ge[a].phase ≠ .green
      then .truncating else .ordinary := by
    simp only [changeKind, isTruncating, Bool.and_eq_true, List.any_eq_true, List.mem_finRange, true_and, enteringGroups_iff,
      beq_iff_eq, and_assoc]
  refine ⟨rfl, rfl, rfl, rfl, rfl, rfl, rfl, rfl, rfl, rfl, rfl, rfl, enteringGroups_iff s u, fun g => ?_⟩
  rw [show (startChange cause truncating u s).ge[g] = changeRequest s u
    (changeKind (isTruncating cause truncating (enteringGroups s u))) g s.ge[g] from mapGroups_ge _ _ g, hk]
  unfold leaveGiven changeRequest withdrawLeave addEntry addLeave Leave.combine
  by_cases he : cause = .preempt ∧ truncating = true ∧ ∃ a : Group, inStage s u a = true ∧ s.ge[a].phase ≠ .green <;>
    simp only [he, if_false, or_false] <;>
    rcases s.ge[g] with ⟨ph, ti, mg, e, en, lv⟩ <;>
    cases inStage s u g <;> cases ph <;> cases s.os.mode <;> rcases lv with _ | _ | _ <;> simp

/-! ## The Stage Sequencer and the modes -/

@[simp] theorem startChange_sq (cause : TermCause) (truncating : Bool) (t : Stage) (s : State) :
    (startChange cause truncating t s).sq =
      { endHold (stopMax s.sq) with
        target := some t, phase := .changing, latch := none, lastCause := some cause, passageRunning := false,
        forceOff := false, entering := enteringGroups s t,
        changeTruncating := isTruncating cause truncating (enteringGroups s t) } := rfl

@[simp] theorem stopSequencer_sq (s : State) :
    (stopSequencer s).sq = { SqState.reset with lastCause := s.sq.lastCause, calls := s.sq.calls } := rfl

@[simp] theorem enterStartRed_mode (s : State) : (enterStartRed s).os.mode = .startRed := rfl

@[simp] theorem enterStartFlash_mode (s : State) : (enterStartFlash s).os.mode = .startFlash := rfl

theorem enterFlash_os (mode : Mode) (cause : AlertCause) (s : State) : (enterFlash mode cause s).os.mode = mode := by
  unfold enterFlash
  exact congrArg OsState.mode (Only.os (offer_only _ _) (by simp))

/-! ## The Maintenance Port -/

/-- A command that is not accepted changes the Maintenance Port alone. -/
theorem deliver_refused {c : MpCommand} {s : State} (h : mpStatus s c ≠ .accepted) :
    deliver c s = s.withMp (recordAnswer c [(mpStatus s c).byte] s.mp) := by
  simp [deliver, mpResponse, h]

/-- An accepted command has its effect, and its answer is the status byte and the data. -/
theorem deliver_accepted {c : MpCommand} {s : State} (h : mpStatus s c = .accepted) :
    deliver c s = (carryOut s c).withMp (recordAnswer c (MpStatus.byte .accepted :: mpData s c) (carryOut s c).mp) := by
  simp [deliver, mpResponse, h]

/-! ## Preemption -/

@[simp] theorem PeState.setCls_cls (pe : PeState) (c d : PreClass) (x : ClassState) :
    (pe.setCls c x).cls d = if d = c then x else pe.cls d := by
  cases c <;> cases d <;> simp [PeState.setCls, PeState.cls, classIndex, put]

@[simp] theorem PeState.setRequest_cls (pe : PeState) (c d : PreClass) (r : Request) :
    (pe.setRequest c r).cls d = if d = c then { pe.cls c with request := r } else pe.cls d := by
  simp [PeState.setRequest]

theorem PeState.setRequest_requested (pe : PeState) (c d : PreClass) (r : Request) :
    (pe.setRequest c r).requested d =
      if d = c then (r == .requestedLocal || r == .requestedLine) else pe.requested d := by
  by_cases h : d = c <;> simp [PeState.requested, h]

/-- R157: examining a stack of distinct classes that ends in the records it keeps. -/
theorem examineStack_append (pe : PeState) (dropped kept : List Stacked)
    (hd : ∀ r ∈ dropped, pe.requested r.cls = false ∨ r.remaining = 0)
    (hk : ∀ r rest, kept = r :: rest → pe.requested r.cls = true ∧ 0 < r.remaining)
    (hp : ((dropped ++ kept).map (·.cls)).Pairwise (· ≠ ·)) :
    let q := examineStack pe (dropped ++ kept)
    q = { pe with stack := kept, classes := q.classes } ∧
      ∀ c, q.cls c = if pe.requested c = true ∧ (∃ r ∈ dropped, r.cls = c) then { pe.cls c with request := .lockedOut }
        else pe.cls c := by
  induction dropped generalizing pe with
  | nil =>
    cases kept with
    | nil => simp [examineStack, PeState.cls]
    | cons r rest =>
      obtain ⟨h1, h2⟩ := hk r rest rfl
      have h3 : ¬r.remaining = 0 := by omega
      simp [examineStack, h1, h3, PeState.cls]
  | cons r rest ih =>
    simp only [List.cons_append, List.map_cons, List.pairwise_cons] at hp
    obtain ⟨hne, hp⟩ := hp
    by_cases h1 : pe.requested r.cls = true
    · have h2 : r.remaining = 0 := (hd r (List.mem_cons_self ..)).resolve_left (by simp [h1])
      have step : examineStack pe (r :: rest ++ kept) = examineStack (pe.setRequest r.cls .lockedOut) (rest ++ kept) := by
        simp [examineStack, h1, h2]
      have other : ∀ x ∈ rest ++ kept, (pe.setRequest r.cls .lockedOut).requested x.cls = pe.requested x.cls := by
        intro x hx
        have : r.cls ≠ x.cls := hne x.cls (List.mem_map.2 ⟨x, hx, rfl⟩)
        simp [PeState.setRequest_requested, Ne.symm this]
      obtain ⟨e1, e2⟩ := ih (pe.setRequest r.cls .lockedOut)
        (fun x hx => by rw [other x (by simp [hx])]; exact hd x (by simp [hx]))
        (fun x xs hx => by rw [other x (by simp [hx])]; exact hk x xs hx) hp
      dsimp only at e1 e2 ⊢
      rw [step]
      refine ⟨by rw [e1]; rfl, fun c => ?_⟩
      rw [e2]
      by_cases hc : c = r.cls
      · subst hc
        simp [PeState.setRequest_requested, h1]
      · simp [PeState.setRequest_requested, hc, Ne.symm hc]
    · have h1' : pe.requested r.cls = false := by simpa using h1
      have step : examineStack pe (r :: rest ++ kept) = examineStack pe (rest ++ kept) := by
        simp [examineStack, h1']
      obtain ⟨e1, e2⟩ := ih pe (fun x hx => hd x (by simp [hx])) hk hp
      dsimp only at e1 e2 ⊢
      rw [step]
      refine ⟨e1, fun c => ?_⟩
      rw [e2]
      by_cases hc : c = r.cls
      · subst hc; simp [h1']
      · simp [Ne.symm hc]

theorem loadInhibit_applied (img : Image) (v : Service) (pe : PeState) : InhibitApplied img v pe (loadInhibit img v pe) := by
  unfold InhibitApplied loadInhibit
  refine ⟨fun h => ?_, fun h1 h2 => ⟨fun h => ?_, fun h => ?_⟩⟩
  · rcases h with h | h <;> simp [h]
  · simp [h1, h2, h]
  · simp [h1, h2, h]

/-- The highest requested class. -/
theorem highestRequested_eq (pe : PeState) (c : PreClass) :
    pe.highestRequested = some c ↔ pe.requested c = true ∧ ∀ d, higherClass d c = true → pe.requested d = false := by
  unfold PeState.highestRequested
  cases h1 : pe.requested .rail <;> cases h2 : pe.requested .emergency <;> cases h3 : pe.requested .transit <;> cases c <;>
    simp [List.find?, h1, h2, h3] <;> first
      | (intro d hd; cases d <;> first | exact absurd hd (by decide) | assumption)
      | exact ⟨.rail, by decide, h1⟩
      | exact ⟨.emergency, by decide, h2⟩

/-- The fields of PE that a service's beginning leaves as they are. -/
def SameButService (p q : PeState) : Prop :=
  q.classes = p.classes ∧ q.inhibit = p.inhibit ∧ q.lineDwell = p.lineDwell ∧ q.alert = p.alert ∧ q.stack = p.stack

theorem sendAlert_keeps (img : Image) (v : Service) (s : State) (h : s.pe.service = some v) :
    SameButService s.pe (sendAlert img v s).pe ∧ (sendAlert img v s).pe.command = s.pe.command ∧
      ((sendAlert img v s).pe.service = some v ∨ (sendAlert img v s).pe.service = some { v with alertSent := true }) := by
  have ho : ∀ f s', (offer f s').pe = s'.pe := fun f s' => (offer_only f s') .pe (by decide)
  unfold sendAlert
  split
  · split
    · exact ⟨⟨rfl, rfl, rfl, rfl, rfl⟩, rfl, .inl h⟩
    · dsimp only
      split
      · rw [ho]; exact ⟨⟨rfl, rfl, rfl, rfl, rfl⟩, rfl, .inr rfl⟩
      · exact ⟨⟨rfl, rfl, rfl, rfl, rfl⟩, rfl, .inr rfl⟩
  · exact ⟨⟨rfl, rfl, rfl, rfl, rfl⟩, rfl, .inl h⟩

theorem highestRequested_none (pe : PeState) : pe.highestRequested = none ↔ ∀ c, pe.requested c = false := by
  unfold PeState.highestRequested
  constructor
  · intro h c
    cases c <;> simp_all [List.find?_eq_none]
  · intro h
    simp [h]

theorem beq_line (r : Request) : (r == .requestedLine) = decide (r = .requestedLine) := by cases r <;> rfl

theorem truncates_eq (c : PreClass) : truncates c = decide (c ≠ .transit) := by cases c <;> rfl

theorem SameButService.trans {p q r : PeState} (h : SameButService p q) (h' : SameButService q r) : SameButService p r :=
  ⟨h'.1.trans h.1, h'.2.1.trans h.2.1, h'.2.2.1.trans h.2.2.1, h'.2.2.2.1.trans h.2.2.2.1, h'.2.2.2.2.trans h.2.2.2.2⟩

/-- R152: the entry into DWELL. -/
theorem enterDwell_complete {img : Image} {v : Service} {y : Stage} {s : State} (hs : s.pe.service = some v)
    (hp : v.phase = .entry) (hy : (img.cls v.cls).target = some y) (hc : stageComplete s y = true) :
    SameButService s.pe (enterDwell img s).pe ∧
      (enterDwell img s).pe.command = (if v.cls = .transit then s.pe.command else some (y, false)) ∧
      ∃ b, (enterDwell img s).pe.service = some { v with phase := .dwell, elapsed := 0, alertSent := b } := by
  have key : enterDwell img s = sendAlert img { v with phase := .dwell, elapsed := 0 }
      (if truncates v.cls then placeCommand (some y) false (s.withPe { s.pe with
        service := some { v with phase := .dwell, elapsed := 0 } })
       else s.withPe { s.pe with service := some { v with phase := .dwell, elapsed := 0 } }) := by
    unfold enterDwell
    simp only [hs, Option.bind, hy, hp, hc, and_self, if_true]
  rw [key, truncates_eq]
  by_cases ht : v.cls = .transit
  · simp only [ht, ne_eq, not_true_eq_false, decide_false, Bool.false_eq_true, if_false, if_true]
    obtain ⟨h1, h2, h3⟩ := sendAlert_keeps img { v with phase := .dwell, elapsed := 0 }
      (s.withPe { s.pe with service := some { v with phase := .dwell, elapsed := 0 } }) rfl
    simp only [ht] at h1 h2 h3
    exact ⟨h1, h2, h3.elim (fun h => ⟨_, h⟩) (fun h => ⟨_, h⟩)⟩
  · simp only [ht, ne_eq, not_false_eq_true, decide_true, if_true, if_false]
    obtain ⟨h1, h2, h3⟩ := sendAlert_keeps img { v with phase := .dwell, elapsed := 0 }
      (placeCommand (some y) false (s.withPe { s.pe with service := some { v with phase := .dwell, elapsed := 0 } })) rfl
    exact ⟨h1, h2, h3.elim (fun h => ⟨_, h⟩) (fun h => ⟨_, h⟩)⟩

/-- No entry into DWELL where the target is not current and COMPLETE. -/
theorem enterDwell_away {img : Image} {s : State}
    (h : ∀ v y, s.pe.service = some v → v.phase = .entry → (img.cls v.cls).target = some y → stageComplete s y = false) :
    enterDwell img s = s := by
  unfold enterDwell
  split
  · rename_i v y hv hy
    rw [hv] at hy
    split
    · rename_i hc
      rw [h v y hv hc.1 hy] at hc
      exact absurd hc.2 (by decide)
    · rfl
  · rfl

theorem SameButService.refl (p : PeState) : SameButService p p := ⟨rfl, rfl, rfl, rfl, rfl⟩

theorem enterDwell_same (img : Image) (s : State) : SameButService s.pe (enterDwell img s).pe := by
  by_cases h : ∃ v y, s.pe.service = some v ∧ v.phase = .entry ∧ (img.cls v.cls).target = some y ∧ stageComplete s y = true
  · obtain ⟨v, y, h1, h2, h3, h4⟩ := h
    exact (enterDwell_complete h1 h2 h3 h4).1
  · rw [enterDwell_away]
    · exact SameButService.refl _
    · intro v y h1 h2 h3
      by_contra hn
      exact h ⟨v, y, h1, h2, h3, by simpa using hn⟩

theorem placeCommand_same (y : Option Stage) (b : Bool) (s : State) : SameButService s.pe (placeCommand y b s).pe := by
  cases y <;> exact ⟨rfl, rfl, rfl, rfl, rfl⟩

/-- R152, R157: a service placed with its command, and the entry into DWELL at the same evaluation. -/
theorem enterDwell_begun {img : Image} {v : Service} {y : Stage} (pe : PeState) (s : State) (hv : v.phase = .entry)
    (hy : (img.cls v.cls).target = some y) :
    let u := placeCommand (img.cls v.cls).target (truncates v.cls) (s.withPe { pe with service := some v })
    SameButService pe (enterDwell img u).pe ∧ ServiceBegun v y s (enterDwell img u) := by
  intro u
  have hu : u = placeCommand (some y) (truncates v.cls) (s.withPe { pe with service := some v }) := by simp only [u, hy]
  have hs : u.pe.service = some v := by rw [hu]; rfl
  have hpe : SameButService pe u.pe := by rw [hu]; exact ⟨rfl, rfl, rfl, rfl, rfl⟩
  have hcmd : u.pe.command = some (y, truncates v.cls) := by rw [hu]; rfl
  have hst : stageComplete u y = stageComplete s y := by rw [hu]; rfl
  unfold ServiceBegun
  cases hc : stageComplete s y
  · rw [enterDwell_away (s := u) (fun w z hw _ hz => by
      rw [hs] at hw; cases hw; rw [hy] at hz; cases hz; rw [hst, hc])]
    refine ⟨hpe, fun _ => ⟨hs, ⟨?_, ?_⟩, ?_⟩, fun h => absurd h (by decide)⟩
    · rw [hcmd, truncates_eq]
    · rw [hu, ← truncates_eq]; rfl
    · rw [hu]; rfl
  · obtain ⟨h1, h2, b, h3⟩ := enterDwell_complete hs hv hy (hst.trans hc)
    refine ⟨hpe.trans h1, fun h => absurd h (by decide), fun _ => ⟨?_, ?_⟩⟩
    · rw [h2, hcmd, truncates_eq]
      by_cases ht : v.cls = .transit <;> simp [ht]
    · rw [h3]; simp

/-- R157: what follows the end of a service, with the entry into DWELL at the same evaluation. -/
theorem afterService (img : Image) (pe : PeState) (s : State) (hp : (pe.stack.map (·.cls)).Pairwise fun a b => higherClass a b = true) :
    AfterService img pe s (enterDwell img (chooseService img (s.withPe (examineStack { pe with service := none } pe.stack)))) := by
  intro dropped kept hstack hd hk waits
  have hne : ((dropped ++ kept).map (·.cls)).Pairwise (· ≠ ·) := by
    rw [hstack] at hp
    exact hp.imp fun {a b} h e => by subst e; cases a <;> exact absurd h (by decide)
  obtain ⟨hq, hcls⟩ := examineStack_append { pe with service := none } dropped kept hd hk hne
  rw [← hstack] at hq hcls
  generalize examineStack { pe with service := none } pe.stack = q at hq hcls ⊢
  have hlost : ∀ c, pe.requested c = true → (∃ r ∈ dropped, r.cls = c) → q.cls c = { pe.cls c with request := .lockedOut } :=
    fun c h h' => (hcls c).trans (if_pos ⟨h, h'⟩)
  have hsame : ∀ c, ¬(pe.requested c = true ∧ ∃ r ∈ dropped, r.cls = c) → q.cls c = pe.cls c :=
    fun c h => (hcls c).trans (if_neg h)
  have hstk : q.stack = kept := by rw [hq]
  have hsvc : q.service = none := by rw [hq]
  have hreq : ∀ c, q.requested c = true ↔ waits c := by
    intro c
    by_cases h : pe.requested c = true ∧ ∃ r ∈ dropped, r.cls = c
    · have : q.requested c = false := by simp [PeState.requested, hlost c h.1 h.2]
      rw [this]
      obtain ⟨-, r, hr, hrc⟩ := h
      exact ⟨fun h => absurd h (by decide), fun h => absurd hrc (h.2 r hr)⟩
    · have : q.requested c = pe.requested c := by simp [PeState.requested, hsame c h]
      rw [this]
      exact ⟨fun h1 => ⟨h1, fun r hr hrc => h ⟨h1, r, hr, hrc⟩⟩, fun h1 => h1.1⟩
  have hreq' : ∀ c, ¬waits c → q.requested c = false := fun c h => by
    simpa using mt (hreq c).1 h
  have rest : ∀ t : State, SameButService { q with stack := t.pe.stack } t.pe →
      t.pe.inhibit = pe.inhibit ∧ t.pe.lineDwell = pe.lineDwell ∧ t.pe.alert = pe.alert ∧
      (∀ c, waits c ∨ pe.requested c = false → t.pe.cls c = pe.cls c) ∧
      (∀ c, pe.requested c = true → ¬waits c → t.pe.cls c = { pe.cls c with request := .lockedOut }) := by
    intro t ⟨h1, h2, h3, h4, _⟩
    have hc : ∀ c, t.pe.cls c = q.cls c := fun c => congrArg (·[classIndex c]) h1
    rw [h2, h3, h4]
    refine ⟨by rw [hq], by rw [hq], by rw [hq], fun c h => ?_, fun c h h' => ?_⟩
    · rw [hc, hsame]
      rintro ⟨ha, r, hr, hrc⟩
      rcases h with h | h
      · exact h.2 r hr hrc
      · rw [h] at ha; exact absurd ha (by decide)
    · rw [hc, hlost c h]
      by_contra hn
      exact h' ⟨h, fun r hr hrc => hn ⟨r, hr, hrc⟩⟩
  have head : ∀ r xs, kept = r :: xs → waits r.cls := by
    intro r xs hkr
    refine ⟨(hk r xs hkr).1, fun x hx e => ?_⟩
    rw [hkr, List.map_append, List.pairwise_append] at hne
    exact hne.2.2 x.cls (List.mem_map.2 ⟨x, hx, rfl⟩) r.cls (by simp) e
  have hstk' : (s.withPe q).pe.stack = kept := hstk
  have finish : ∀ t : State, SameButService { q with stack := t.pe.stack } t.pe → ∀ {P : Prop}, P →
      t.pe.inhibit = pe.inhibit ∧ t.pe.lineDwell = pe.lineDwell ∧ t.pe.alert = pe.alert ∧
      (∀ c, waits c ∨ pe.requested c = false → t.pe.cls c = pe.cls c) ∧
      (∀ c, pe.requested c = true → ¬waits c → t.pe.cls c = { pe.cls c with request := .lockedOut }) ∧ P :=
    fun t h P hP => ⟨(rest t h).1, (rest t h).2.1, (rest t h).2.2.1, (rest t h).2.2.2.1, (rest t h).2.2.2.2, hP⟩
  cases hh : q.highestRequested with
  | none =>
    have hh' : (s.withPe q).pe.highestRequested = none := hh
    have none_waits : ∀ c, ¬waits c := fun c h => by
      have := (highestRequested_none q).1 hh c
      rw [(hreq c).2 h] at this; exact absurd this (by decide)
    have hkept : kept = [] := by
      cases hk' : kept with
      | nil => rfl
      | cons r xs => exact absurd (head r xs hk') (none_waits _)
    have htt : enterDwell img (chooseService img (s.withPe q)) = releaseCommand (s.withPe q) := by
      have : chooseService img (s.withPe q) = releaseCommand (s.withPe q) := by
        unfold chooseService
        simp only [hstk', hh', hkept]
      rw [this]
      apply enterDwell_away
      intro v y hv
      have : q.service = some v := hv
      rw [hsvc] at this; cases this
    rw [htt]
    refine finish _ ⟨rfl, rfl, rfl, rfl, rfl⟩ ⟨fun _ => ⟨hsvc, rfl, ?_, rfl, rfl⟩, ?_, ?_⟩
    · rw [← hkept]; exact hstk
    · intro r xs y hkr; rw [hkept] at hkr; cases hkr
    · intro c y hc; exact absurd hc (none_waits c)
  | some c =>
    have hh' : (s.withPe q).pe.highestRequested = some c := hh
    obtain ⟨hc1, hc2⟩ := (highestRequested_eq q c).1 hh
    have hcw : waits c := (hreq c).1 hc1
    have only_c : ∀ d, waits d → (∀ x, higherClass x d = true → ¬waits x) → d = c := by
      intro d hd hd'
      have : q.highestRequested = some d :=
        (highestRequested_eq q d).2 ⟨(hreq d).2 hd, fun x hx => hreq' x (hd' x hx)⟩
      rw [hh] at this; exact (Option.some.inj this).symm
    have hreqc : (q.cls c).request = (pe.cls c).request := by
      rw [hsame c (fun ⟨_, r, hr, hrc⟩ => hcw.2 r hr hrc)]
    by_cases hres : ∃ r xs, kept = r :: xs ∧ higherClass c r.cls = false
    · obtain ⟨r, xs, hkr, hcr⟩ := hres
      have hrc : r.cls = c := by
        by_contra hne'
        have : higherClass r.cls c = true := by
          revert hcr hne'; cases r.cls <;> cases c <;> decide
        exact absurd ((hreq _).2 (head r xs hkr)) (by simp [hc2 _ this])
      have htt : chooseService img (s.withPe q) =
          placeCommand (img.cls r.cls).target (truncates r.cls)
            (s.withPe { { q with stack := xs } with service := some (resumedService r) }) := by
        have : chooseService img (s.withPe q) = resumeService img r ((s.withPe q).withPe { q with stack := xs }) := by
          unfold chooseService
          simp only [hstk', hh', hkr, hcr, Bool.false_eq_true, if_false]
          rfl
        rw [this]
        unfold resumeService resumedService
        cases r.phase <;> rfl
      rw [htt]
      have hb := ((placeCommand_same (img.cls r.cls).target (truncates r.cls)
        (s.withPe { { q with stack := xs } with service := some (resumedService r) })).trans (enterDwell_same img _))
      refine finish _ ⟨hb.1, hb.2.1, hb.2.2.1, hb.2.2.2.1, rfl⟩ ⟨fun h => absurd hcw (h c), ?_, ?_⟩
      · intro r' xs' y hkr' _ hy
        rw [hkr] at hkr'; cases hkr'
        exact ⟨hb.2.2.2.2, (enterDwell_begun (v := resumedService r) { q with stack := xs } s rfl hy).2⟩
      · intro d y hd hd' hd'' _
        have := only_c d hd hd'
        subst this
        rw [hd'' r xs hkr] at hcr; exact absurd hcr (by decide)
    · have hhigh : ∀ r xs, kept = r :: xs → higherClass c r.cls = true := fun r xs h => by
        by_contra hn
        exact hres ⟨r, xs, h, by simpa using hn⟩
      have htt : chooseService img (s.withPe q) = placeCommand (img.cls c).target (truncates c)
            (s.withPe { q with service := some (newService img c (pe.cls c).request) }) := by
        have : chooseService img (s.withPe q) = startService img c (s.withPe q) := by
          unfold chooseService
          cases hkk : kept with
          | nil => simp only [hstk', hh', hkk]
          | cons r xs => simp only [hstk', hh', hkk, hhigh r xs hkk, if_true]
        rw [this, ← hreqc]
        simp only [startService, newService, beq_line]
        rfl
      rw [htt]
      have hb := ((placeCommand_same (img.cls c).target (truncates c)
        (s.withPe { q with service := some (newService img c (pe.cls c).request) })).trans (enterDwell_same img _))
      refine finish _ ⟨hb.1, hb.2.1, hb.2.2.1, hb.2.2.2.1, rfl⟩ ⟨fun h => absurd hcw (h c), ?_, ?_⟩
      · intro r xs y hkr habove _
        exact absurd hcw (habove c (hhigh r xs hkr))
      · intro d y hd hd' _ hy
        have := only_c d hd hd'
        subst this
        exact ⟨hb.2.2.2.2.trans hstk, (enterDwell_begun (v := newService img d (pe.cls d).request) q s rfl hy).2⟩

/-- R154, R157: the end of the active service, with the entry into DWELL at the same evaluation. -/
theorem endService_after (img : Image) (v : Service) (s : State) (h : s.pe.service = some v) (hl : StackLaw s) :
    AfterService img (loadInhibit img v s.pe) s (enterDwell img (endService img s)) := by
  have hst : (loadInhibit img v s.pe).stack = s.pe.stack := by
    unfold loadInhibit; split <;> rfl
  unfold endService
  simp only [h]
  apply afterService
  rw [hst]
  have := hl.2
  rw [h] at this
  exact (List.pairwise_cons.1 this).2


end Sys2Proof.Machine
end

