-- ==== Sys2Proof/Tests/Sample.lean ====
section
/-! SUPPORT. Tests/Sample.lean: a small intersection for the tests and the witnesses: the groups, intergreens, stages and plan of
the worked example of chapter 2, with the values of Tables 2.1 and 2.2. -/

namespace Sys2Proof.Machine.Tests

/-- A group of the example. -/
def group (kind : GroupKind) (prep minGreen clearance : Nat) (flash : FlashPattern) : GroupRecord :=
  { enabled := true, kind, prep, minGreen, clearance, flash, phase := .a }

/-- A group that is not enabled. -/
def noGroup : GroupRecord :=
  { enabled := false, kind := .vehicle, prep := 0, minGreen := 10, clearance := 30, flash := .dark, phase := .a }

/-- Table 2.1: groups 1, 2, 3 and 5. -/
def sampleGroups : Vector GroupRecord 16 := tab 16 fun g =>
  match g.val with
  | 0 => group .vehicle 10 100 30 .flashAmber
  | 1 => group .vehicle 10 50 30 .flashRed
  | 2 => group .vehicle 10 60 30 .flashRed
  | 4 => group .pedestrian 0 70 100 .flashRed
  | _ => noGroup

/-- Table 2.2. -/
def sampleIntergreen : Vector (Vector (Option Nat) 16) 16 := tab 16 fun a => tab 16 fun g =>
  match a.val, g.val with
  | 0, 1 | 0, 2 | 0, 4 | 2, 0 | 2, 1 => some 50
  | 1, 0 | 1, 2 | 1, 4 => some 40
  | 4, 0 | 4, 1 => some 120
  | _, _ => none

/-- A stage record. -/
def stage (members : List Nat) (passage maxGreen : Nat) : StageRecord :=
  { groups := tab 16 fun g => members.contains g.val, passage, maxGreen, enabled := !members.isEmpty }

/-- Stages 1 to 3 of the example. -/
def sampleStages : Vector StageRecord 8 := tab 8 fun i =>
  match i.val with
  | 0 => stage [0] 20 60
  | 1 => stage [1] 20 15
  | 2 => stage [2, 4] 30 30
  | _ => stage [] 0 10

/-- A free plan. -/
def freePlan : PlanRecord :=
  { cycle := 0, offset := 0, coordinated := none, yieldStart := 0, yieldEnd := 0, holdCap := 0,
    stages := tab 8 fun _ => { recalled := false, permStart := 0, permEnd := 0, forceOff := none } }

/-- The plan of the example, with an offset of 10.0 s. -/
def coordPlan : PlanRecord :=
  { cycle := 60, offset := 100, coordinated := some 0, yieldStart := 400, yieldEnd := 450, holdCap := 10,
    stages := tab 8 fun i =>
      match i.val with
      | 1 => { recalled := false, permStart := 400, permEnd := 420, forceOff := some 500 }
      | 2 => { recalled := false, permStart := 400, permEnd := 500, forceOff := some 560 }
      | _ => { recalled := false, permStart := 0, permEnd := 0, forceOff := none } }

/-- A detector. -/
def detector (kind : DetectorKind) (on off : Nat) (call : Option Group) (locking : Bool) (ext : Option Stage)
    (maxPresence noActivity : Nat) : DetectorRecord :=
  { kind, activeHigh := true, onFilter := on, offFilter := off, callGroup := call, locking, extStage := ext, maxPresence,
    noActivity }

/-- Detector 7 of the example, a push-button, an exit detector and a quiet loop. -/
def sampleDetectors : Vector DetectorRecord 24 := tab 24 fun d =>
  match d.val with
  | 6 => detector .presence 0 0 (some 2) true (some 2) 120 30
  | 8 => detector .count 0 0 none false none 0 0
  | 11 => detector .pulse 1 1 (some 4) false none 10 0
  | _ => detector .presence 0 0 none false none 0 0

/-- Two pinned neighbors: 5 with both link parts, 7 with the alert mark. -/
def sampleNeighbors : List NeighborRecord :=
  [{ address := 5, weight := 3, inStage := some 0, travel := 250, exitDetector := some 8, outStage := some 1, threshold := 6,
     headway := 20 },
   { address := 7, weight := 2, inStage := some 2, travel := 120, exitDetector := none, outStage := none, threshold := 1,
     headway := 10 }]

/-- A class record. -/
def classRec (target : Stage) (exit : Option Stage) (minDwell maxDwell inhibit : Nat) : ClassRecord :=
  { onDelay := 0, target := some target, exit, minDwell, maxDwell, inhibit, alertTarget := 7, alertEta := 200,
    acceptAlerts := true, lineLead := 5, lineDwell := 20 }

/-- RAIL to stage 3 and out by stage 1, EMERGENCY to stage 2, TRANSIT to stage 3. -/
def sampleClasses : Vector ClassRecord 3 := tab 3 fun i =>
  match i.val with
  | 0 => classRec 2 (some 0) 20 120 0
  | 1 => classRec 1 none 10 60 0
  | _ => classRec 2 none 5 30 120

/-- The image of the example; `plan1` is its plan 1, plan 2 is the other kind. -/
def imageWith (plan1 : PlanRecord) : Image :=
  { address := 6, beaconPeriod := 2, defaultWeight := 1, gainShift := 2, deadband := 4, slew := 3, quorum := 2, planHold := 15,
    startFlash := 5, startRed := 30, startStage := some 0, groups := sampleGroups, intergreen := sampleIntergreen,
    stages := sampleStages,
    plans := tab 4 fun p => if p.val = 0 then plan1 else if p.val = 1 then freePlan else coordPlan,
    detectors := sampleDetectors, neighbors := sampleNeighbors, classes := sampleClasses }

/-- The image with a coordinated plan 1. -/
def sampleImage : Image := imageWith coordPlan

/-- The image with a free plan 1. -/
def freeImage : Image := imageWith freePlan

/-- The station at the end of a load of this image: START FLASH. -/
def loaded (img : Image) : State := completeLoad img 0 State.reset

/-- The station as RUN begins. -/
def started (img : Image) : State := enterRun (enterStartRed (loaded img))

/-- A group in GREEN with its minimum green run. -/
def greenGroup : GroupState :=
  { phase := .green, timer := 0, minGreenDone := true, e := 255, entry := false, leave := none }

/-- RUN with stage 1 COMPLETE. -/
def running (img : Image) : State :=
  let s := started img
  (s.withGe (put s.ge (0 : Group) greenGroup)).withSq
    { s.sq with current := some 0, target := none, phase := .complete, passage := 0, passageRunning := true,
                entering := tab 16 fun _ => false }

/-- A fixed order of the works of a tick, with the Cycle Clock before the Stage Sequencer. -/
def plainOrder : List Work :=
  [.groups, .detectors, .neighbors, .clock, .preemption, .sequencer, .platoonCountdown, .greenTimers, .supervisor, .mp]

end Sys2Proof.Machine.Tests
end

