-- ==== Sys2Proof/Tests/Slice0.lean ====
section
/-! SUPPORT. Tests/Slice0.lean: the smoke test of WellFormed, figures of the manual's tables and worked examples, and for every
statement a state and operands that meet its hypotheses. -/

namespace Sys2Proof.Machine.Tests

set_option Elab.async false

/-! ## WellFormed -/

theorem test_wf_accepts : (Instr.memoryNoAcknowledge (List.replicate 956 0)).wf = true ∧
    (Instr.loadEnd (List.replicate 867 0)).wf = true ∧ (Instr.loadEnd (List.replicate 939 0)).wf = true ∧
    (Instr.noticeActivation 1 255).wf = true ∧ (Instr.noticeEnd 62 0).wf = true ∧ (Instr.conflict 0 1).wf = true ∧
    (Instr.unknownCommand 0x99).wf = true := by decide +kernel

theorem test_wf_refuses_delivered : (Instr.memoryNoAcknowledge (List.replicate 957 0)).wf = false := by decide +kernel
theorem test_wf_refuses_short_body : (Instr.loadEnd (List.replicate 866 0)).wf = false := by decide +kernel
theorem test_wf_refuses_long_body : (Instr.loadEnd (List.replicate 940 0)).wf = false := by decide +kernel
theorem test_wf_refuses_sender_0 : (Instr.noticeActivation 0 3).wf = false := by decide
theorem test_wf_refuses_sender_63 : (Instr.noticeEnd 63 3).wf = false := by decide
theorem test_wf_refuses_serial_256 : (Instr.noticeActivation 5 256).wf = false := by decide
theorem test_wf_refuses_pair_order : (Instr.conflict 1 1).wf = false ∧ (Instr.conflict 2 1).wf = false := by decide
theorem test_wf_refuses_known_code : (Instr.unknownCommand 0x50).wf = false := by decide

/-! ## Figures of the manual -/

/-- R109 and worked example 1 of chapter 6. -/
theorem test_sequence_steps : sequenceStep 0x4000 = 0x8000 ∧ sequenceStep 0x8000 = 0x0001 ∧ sequenceStep 0x00F0 = 0x01E0 ∧
    sequenceStep 0x01E0 = 0x03C0 := by decide

/-- Table 5.1: the gain. -/
theorem test_gain : gain 42 2 = 10 ∧ gain 43 2 = 11 ∧ gain (-46) 2 = -12 ∧ gain 5 1 = 2 ∧ gain 7 1 = 4 ∧ gain 3 2 = 1 ∧
    gain 1 1 = 0 ∧ gain 160 2 = 40 := by decide

/-- Table 5.5: wrapped errors, averages and the deadband. -/
theorem test_boundary_figures : wrappedError 6000 5900 150 = -250 ∧ wrappedError 6000 2999 0 = 2999 ∧
    wrappedError 6000 3000 0 = -3000 ∧ average (-7) 2 = -4 ∧ average (-8) 3 = -3 ∧ applyDeadband 4 4 = 0 := by decide

/-- R91. -/
theorem test_average : average 7 2 = 4 ∧ average 252 6 = 42 := by decide

/-- R102: the value the manual gives for a single byte 05h. -/
theorem test_crc_05 : crcBytes [0x05] = [0xFD, 0x1C] := by decide +kernel

/-- Chapter 1, case 1: the records of groups 1, 2 and 5. -/
def caseImage : Image := { freeImage with
  groups := tab 16 fun g => match g.val with
    | 0 => group .vehicle 0 100 30 .flashAmber
    | 1 => group .vehicle 10 80 30 .flashRed
    | 4 => group .pedestrian 0 60 70 .flashRed
    | _ => noGroup
  intergreen := tab 16 fun a => tab 16 fun g => match a.val, g.val with
    | 0, 1 => some 50
    | 1, 0 => some 40
    | 1, 4 => some 60
    | 4, 1 => some 90
    | _, _ => none }

/-- A group in RED since `e` tenths. -/
def redGroup (e : Nat) (entry : Bool) : GroupState :=
  { phase := .red, timer := 0, minGreenDone := false, e, entry, leave := none }

/-- The groups of case 1, those with a prior E of `e`. -/
def caseGroups (e : Nat) : Vector GroupState 16 :=
  tab 16 fun g => if g = 1 then redGroup 255 true else redGroup e false

/-- Table 1.7: at 7.9 s the gate of group 2 is closed, and at 8.0 s the group enters PREP with its timer at 10. -/
theorem test_gate_case_1 : (groupUpdate caseImage .run (caseGroups 78))[(1 : Group)] = { redGroup 255 true with entry := true } ∧
    (groupUpdate caseImage .run (caseGroups 79))[(1 : Group)] = { redGroup 255 false with phase := .prep, timer := 10 } := by
  decide +kernel

/-! ## Witnesses: what a witness is built from -/

/-- The next state a command answers. -/
def after (c : Instr) (s : State) : State :=
  match exec c s with
  | .next t => t
  | _ => s

/-- RUN with stage 1 COMPLETE, with a coordinated plan and with a free one. -/
def coordRun : State := running sampleImage
def freeRun : State := running freeImage

/-- A station in this mode. -/
def inMode (m : Mode) (s : State) : State := s.withOs { s.os with mode := m }
/-- The mark counter set. -/
def atMark (m : Nat) (s : State) : State := s.withTb { s.tb with m := m }
/-- One group set. -/
def withGroup (g : Group) (x : GroupState) (s : State) : State := s.withGe (put s.ge g x)
/-- One detector set. -/
def withDet (d : Detector) (x : Det) (s : State) : State := s.withDu (put s.du d x)

/-- What holds of every entry in every place. -/
theorem every_entry {s : State} {P : Place → Entry → Prop} [∀ p e, Decidable (P p e)]
    (h : ∀ p : Place, (s.nt.places[p]).all (fun e => decide (P p e)) = true) :
    ∀ (p : Place) (e : Entry), s.nt.places[p] = some e → P p e := by
  intro p e hp
  have := h p
  rw [hp] at this
  simpa using this

/-- What holds of every link of every entry. -/
theorem every_link {s : State} {P : Place → Entry → Link → Prop} [∀ p e l, Decidable (P p e l)]
    (h : ∀ p : Place, (s.nt.places[p]).all (fun e => e.link.all fun l => decide (P p e l)) = true) :
    ∀ (p : Place) (e : Entry) (l : Link), s.nt.places[p] = some e → e.link = some l → P p e l := by
  intro p e l hp hl
  have := h p
  rw [hp] at this
  simp [hl] at this
  exact this

/-- R9, decided. -/
theorem gate_of {img : Image} {ge : Vector GroupState 16} {g : Group}
    (h : ∀ a : Group, (img.inter a g).all (fun i =>
      decide ((ge[a].phase = .red ∨ ge[a].phase = .off) ∧ i ≤ img.groups[g].prep + ge[a].e)) = true) :
    GateConditions img ge g := by
  intro a i ha
  have := h a
  rw [ha] at this
  simpa using this

/-- R123, decided. -/
theorem table_of {s : State} {img : Image} (hi : s.cf.image = some img)
    (h1 : ∀ p q : Place, (s.nt.places[p]).all (fun e => (s.nt.places[q]).all fun f =>
      !decide (e.address = f.address) || decide (p = q)) = true)
    (h2 : ∀ p : Place, (s.nt.places[p]).all (fun e =>
      decide (e.address ≠ img.address ∧ (e.state = .absent ↔ e.last = none))) = true) : TableLaw s := by
  refine ⟨?_, ?_, ?_⟩
  · intro p q e f hp hq
    have := h1 p q
    rw [hp, hq] at this
    intro he
    simpa [he] using this
  · intro img' h p e hp
    rw [hi] at h
    cases h
    have := h2 p
    rw [hp] at this
    simp at this
    exact this.1
  · intro p e hp
    have := h2 p
    rw [hp] at this
    simp only [Option.all_some, decide_eq_true_eq] at this
    exact this.2

/-! ## Witnesses: the machine and the loader -/

theorem witness_StepRunsTheFrontCommand : State.reset.pending = [] := rfl

/-- A header of an image without neighbors. -/
def goodHeader : Vector Byte 18 := #v[0xA6, 0x4F, 0x01, 0x03, 0x75, 6, 2, 1, 2, 4, 3, 2, 15, 5, 30, 1, 0, 0]

/-- LOADING with the header read. -/
def bodyNext : State := after (.headerRead goodHeader) State.reset

theorem witness_LoaderJudgesTheHeaderAndMissingBytes :
    (State.reset.os.mode = .loading ∧ State.reset.cf.load = .readingHeader) ∧
    ((goodHeader.set 1 0)[1] ≠ 0x4F ∧ (goodHeader.set 2 0)[2] ≠ 0x01 ∧ (goodHeader.set 16 9)[16].toNat = 9 ∧
      256 * goodHeader[3].toNat + goodHeader[4].toNat = 885 + 9 * goodHeader[16].toNat) ∧
    (State.reset.cf.load ≠ .ended ∧ State.reset.cf.position + (List.replicate 17 (0 : Byte)).length < 18) ∧
    (bodyNext.os.mode = .loading ∧ bodyNext.cf.load = .readingBody ∧
      bodyNext.cf.position + (List.replicate 866 (0 : Byte)).length <
        256 * num bodyNext.cf.buffer 3 + num bodyNext.cf.buffer 4) := by decide +kernel

/-- The body of an image of one stage with group 1, the other groups not enabled, no conflicts and free plans, all but its check
sequence. -/
def plainBody : List Byte :=
  [1, 0, 0, 100, 0, 30] ++ List.replicate 90 0 ++ List.replicate 256 255 ++ [0, 1, 0, 10, 1] ++ List.replicate 35 0 ++
    List.replicate 260 0 ++ List.replicate 168 0 ++ [0, 1, 0, 10, 0, 60, 0, 0, 0, 0, 0, 0, 0, 0, 0] ++
    [0, 1, 0, 10, 0, 60, 0, 0, 0, 0, 0, 0, 0, 0, 0] ++ [0, 1, 0, 10, 0, 60, 0, 0, 0, 0, 0, 0, 0, 0, 0]

/-- A number brought to its value before it is used. -/
def forced (n : Nat) (k : Nat → Nat) : Nat :=
  match n with
  | 0 => k 0
  | m + 1 => k (m + 1)

theorem forced_eq (n : Nat) (k : Nat → Nat) : forced n k = k n := by cases n <;> rfl

/-- The check register after each byte brought to its value, so that the kernel can evaluate it over a whole image. -/
def crcStepwise : List Byte → Nat → Nat
  | [], r => r
  | b :: bs, r => forced (crcByte (BitVec.ofNat 16 r) b).toNat (crcStepwise bs)

theorem crcBytes_stepwise (bs : List Byte) : crcBytes bs = beBytes 2 (crcStepwise bs 65535) := by
  have h : ∀ (bs : List Byte) (r : BitVec 16), (bs.foldl crcByte r).toNat = crcStepwise bs r.toNat := by
    intro bs
    induction bs with
    | nil => intro r; rfl
    | cons b bs ih => intro r; simp [crcStepwise, forced_eq, ih]
  simpa [crcBytes, crc] using congrArg (beBytes 2) (h bs 0xFFFF#16)

theorem witness_LoadEndRejectsABadImage :
    (bodyNext.os.mode = .loading ∧ bodyNext.cf.load = .readingBody) ∧
    (let body := List.replicate 867 (0 : Byte)
     let bs := bodyNext.cf.buffer ++ body
     bodyNext.cf.position + body.length = 256 * num bodyNext.cf.buffer 3 + num bodyNext.cf.buffer 4 ∧
       crcBytes (bs.take (bs.length - 2)) ≠ bs.drop (bs.length - 2)) ∧
    (let body := List.replicate 865 (0 : Byte) ++ [0xCD, 0xA5]
     let bs := bodyNext.cf.buffer ++ body
     bodyNext.cf.position + body.length = 256 * num bodyNext.cf.buffer 3 + num bodyNext.cf.buffer 4 ∧
       crcBytes (bs.take (bs.length - 2)) = bs.drop (bs.length - 2) ∧
       structuralCause (clampImage (readImage bs)) ≠ .none) := by
  simp only [crcBytes_stepwise]
  decide +kernel

theorem witness_LoadEndTakesAValidImage :
    (bodyNext.os.mode = .loading ∧ bodyNext.cf.load = .readingBody) ∧
    (let body := plainBody ++ [0x2F, 0xCB]
     let bs := bodyNext.cf.buffer ++ body
     bodyNext.cf.position + body.length = 256 * num bodyNext.cf.buffer 3 + num bodyNext.cf.buffer 4 ∧
       crcBytes (bs.take (bs.length - 2)) = bs.drop (bs.length - 2) ∧
       structuralCause (clampImage (readImage bs)) = .none) := by
  simp only [crcBytes_stepwise]
  decide +kernel

/-- Both kinds of plan 1. -/
theorem witness_LoadEndTakesAValidImage_plans :
    sampleImage.plans[(0 : Plan)].cycle ≠ 0 ∧ freeImage.plans[(0 : Plan)].cycle = 0 := by decide +kernel

/-- An image with a start flash of 61 s and a prep time on a PEDESTRIAN group (R180). -/
theorem witness_ClampingPutsTimingInRange : clampImage sampleImage = sampleImage ∧
    (let m := { sampleImage with
       startFlash := 61, groups := put sampleImage.groups (4 : Group) { sampleImage.groups[(4 : Group)] with prep := 7 } }
     (timings m).countP TimingField.outside = 2 ∧ clampedCount m (clampImage m) = 2 ∧ (clampImage m).startFlash = 60 ∧
       (clampImage m).groups[(4 : Group)].prep = 0) := by decide +kernel

/-- Table 11.2, check 8 with the diagonal, which check 7 leaves out. -/
theorem test_diagonal_intergreen :
    structuralCause { sampleImage with
      intergreen := put sampleImage.intergreen (1 : Group) (put sampleImage.intergreen[(1 : Group)] (1 : Group) (some 29)) } = .intergreen := by
  decide +kernel

/-- RELOAD in MANUAL FLASH, by its own command and by the TICK that finds it pending. -/
theorem witness_ImageChangesOnlyByResetOrReload :
    (let s := inMode .manualFlash freeRun
     s.os.mode ≠ .loading ∧ (after .reload s).cf.image ≠ s.cf.image) ∧
    (let s := (inMode .manualFlash freeRun).withMp { MpState.reset with phase := .pending, code := 0x41 }
     s.os.mode ≠ .loading ∧ pendingCommand s.mp = some .reload) := by decide +kernel

/-! ## Witnesses: the tick -/

theorem witness_TimeBaseCountsTheTicks : State.reset.tb.m < 1000 ∧ (atMark 999 freeRun).tb.m < 1000 ∧
    disciplineMark State.reset = true ∧ secondMark (atMark 900 freeRun) = true := by decide +kernel

/-- Chapter 10, section 10.7: a RESTART loads the start red time, and the supervisor's work of that tick leaves it whole. -/
theorem witness_TickTakesEveryWorkOnce :
    (let s := restartStation (atMark 10 (inMode .manualFlash freeRun))
     s.os.mode = .startRed ∧ s.os.timer = 30 ∧ s.os.mode ≠ .manualFlash ∧ modeTimerWork .manualFlash s = s ∧ tenthMark s = true ∧
       1 < s.os.timer ∧ (modeTimerWork .startRed s).os.timer = 29) := by decide +kernel

/-- A beacon of a station on the plan of the example. -/
def sampleBeacon : LastBeacon :=
  { mode := .runCoord, plan := 0, cycle := 6000, reference := 100, period := 2, accepting := true, unsync := false,
    planHold := false, fault := false, cls := none }

/-- An entry. -/
def entryAt (address : Nat) (pinned : Bool) (st : EntryState) (age : Nat) : Entry :=
  { address, pinned, state := st, last := if st = .absent then none else some sampleBeacon, age, weight := 3, link := none }

/-- The station with these entries in its first places. -/
def withEntries (es : List Entry) (s : State) : State := s.withNt { s.nt with places := tab 8 fun p => es[p.val]? }

/-- A table in which place 1 turns STALE at the next tick, places 2 and 3 are lost and place 4 is ABSENT. -/
def agingRun : State := withEntries
  [entryAt 5 true .heard 599, entryAt 7 true .stale 1999, entryAt 9 false .stale 1999, entryAt 11 true .absent 65535] freeRun

/-- Place 1 is passed over by the next ageing. -/
def passingRun : State := agingRun.withNt { agingRun.nt with passOver := put agingRun.nt.passOver (0 : Place) true }

theorem witness_EntriesAgeAndAreLost_passedOver :
    passingRun.nt.passOver[(0 : Place)] = true ∧ passingRun.nt.passOver[(1 : Place)] = false ∧
      (ntWork passingRun).nt.places[(0 : Place)] = agingRun.nt.places[(0 : Place)] ∧
      (ntWork passingRun).nt.passOver[(0 : Place)] = false := by decide +kernel

theorem witness_EntriesAgeAndAreLost : TableLaw agingRun ∧ pendingCommand agingRun.mp = none ∧
    (∃ e b, agingRun.nt.places[(0 : Place)] = some e ∧ e.last = some b ∧ e.state = .heard ∧ 300 * b.period ≤ min (e.age + 1) 65535 ∧
      min (e.age + 1) 65535 < 1000 * b.period) ∧
    (∃ e b, agingRun.nt.places[(1 : Place)] = some e ∧ e.last = some b ∧ e.state ≠ .absent ∧ e.pinned = true ∧
      1000 * b.period ≤ min (e.age + 1) 65535) ∧
    (∃ e b, agingRun.nt.places[(2 : Place)] = some e ∧ e.last = some b ∧ e.pinned = false ∧
      1000 * b.period ≤ min (e.age + 1) 65535) ∧
    (∃ e, agingRun.nt.places[(3 : Place)] = some e ∧ e.state = .absent) ∧ agingRun.nt.places[(4 : Place)] = none :=
  ⟨table_of (img := freeImage) (by decide +kernel) (by decide +kernel) (by decide +kernel), by decide +kernel,
    ⟨entryAt 5 true .heard 599, sampleBeacon, by decide +kernel⟩, ⟨entryAt 7 true .stale 1999, sampleBeacon, by decide +kernel⟩,
    ⟨entryAt 9 false .stale 1999, sampleBeacon, by decide +kernel⟩, ⟨entryAt 11 true .absent 65535, by decide +kernel⟩,
    by decide +kernel⟩

/-- Detector 12 has an on-filter and an off-filter of one tenth. -/
theorem witness_TickFiltersAndSupervisesEveryDetector :
    (freeRun.cf.image = some freeImage ∧ pendingCommand freeRun.mp = none) ∧
    (let r := freeImage.detectors[(11 : Detector)]
     let d := freeRun.du[(11 : Detector)]
     d.filtered = false ∧ d.count + 1 ≤ 10 * r.onFilter ∧ 10 * r.onFilter < 10 + 1 ∧ 10 * r.offFilter < 10 + 1) ∧
    (let r := freeImage.detectors[(6 : Detector)]
     0 < r.maxPresence ∧ 10 * r.maxPresence ≤ 1199 + 1 ∧ 0 < r.noActivity ∧ 60 * r.noActivity ≤ 1799 + 1) ∧
    (tenthMark (atMark 10 freeRun) = true ∧ secondMark (atMark 10 freeRun) = false ∧ secondMark (atMark 100 freeRun) = true ∧
      tenthMark (atMark 11 freeRun) = false ∧ secondMark (atMark 11 freeRun) = false) := by decide +kernel

/-- A payout below 0 at the second mark, a held tick, and a payout above 0. -/
theorem witness_TickAdvancesTheCycle :
    (coordRun.cf.image = some sampleImage ∧ pendingCommand coordRun.mp = none ∧ coordinatedActive coordRun = true ∧
      coordRun.ck.pendingPlan = coordRun.ck.active) ∧
    (let s := (atMark 99 coordRun).withCk { coordRun.ck with b := -5 }
     (s.tb.m + 1) % 1000 ≠ 0 ∧ (s.tb.m + 1) % 100 = 0 ∧ s.ck.b < 0) ∧
    (let s := (atMark 100 coordRun).withCk { coordRun.ck with hold := 2 }
     (s.tb.m + 1) % 1000 ≠ 0 ∧ (s.tb.m + 1) % 100 ≠ 0 ∧ 0 < s.ck.hold) ∧
    (let s := (atMark 99 coordRun).withCk { coordRun.ck with b := 5 }
     (s.tb.m + 1) % 1000 ≠ 0 ∧ (s.tb.m + 1) % 100 = 0 ∧ 0 < s.ck.b ∧ s.ck.hold = 0) := by decide +kernel

/-! ## Witnesses: groups -/

/-- A group on its last tenth, or past it. -/
def lastTenth (ph : GroupPhase) (timer : Nat) (entry : Bool) (leave : Option Leave) : GroupState :=
  { phase := ph, timer, minGreenDone := false, e := 255, entry, leave }

/-- RUN with every group in RED long enough but group `g`, which is `x`. -/
def alone (g : Group) (x : GroupState) : State :=
  withGroup g x (freeRun.withGe (tab 16 fun a => if groupEnabled freeRun a then redGroup 255 false else GroupState.reset))

theorem witness_GroupIntervalsEnd :
    freeRun.cf.image = some freeImage ∧
    ((alone 0 (lastTenth .prep 1 false none)).ge[(0 : Group)].phase = .prep ∧
      (alone 0 (lastTenth .prep 1 false none)).ge[(0 : Group)].timer ≤ 1) ∧
    (∀ l : Leave, (alone 0 (lastTenth .green 1 false (some l))).ge[(0 : Group)].minGreenDone = false) ∧
    ((alone 0 (lastTenth .clearance 1 true none)).os.mode = .run ∧ 0 < freeImage.groups[(0 : Group)].prep ∧
      GateConditions freeImage (alone 0 (lastTenth .clearance 1 true none)).ge 0) ∧
    (freeImage.groups[(4 : Group)].prep = 0 ∧ GateConditions freeImage (alone 4 (lastTenth .clearance 0 true none)).ge 4) ∧
    (alone 0 (lastTenth .clearance 1 false none)).ge[(0 : Group)].entry = false :=
  ⟨by decide +kernel, by decide +kernel, by intro l; cases l <;> decide +kernel,
    ⟨by decide +kernel, by decide +kernel, gate_of (by decide +kernel)⟩, ⟨by decide +kernel, gate_of (by decide +kernel)⟩,
    by decide +kernel⟩

theorem witness_FirstPassMovesEachGroupAlone :
    (∀ ph : GroupPhase, (lastTenth ph 1 false none).phase = ph) ∧ 1 < (lastTenth .prep 2 false none).timer ∧
    (lastTenth .green 2 false (some .ordinary)).minGreenDone = false ∧
    (lastTenth .green 2 false (some .truncating)).leave = some .truncating ∧ Mode.run ≠ .flashEntry := by
  refine ⟨fun ph => rfl, ?_⟩
  decide

/-- Groups in RED with an entry request, whose gates open into PREP and into GREEN, and a group with a conflicting group in GREEN. -/
theorem witness_FirstPassMovesEachGroupAlone_secondPass :
    (∀ g : Group, g = 0 ∨ g = 4 →
      let s := alone g (redGroup 255 true)
      let first := fun a : Group => firstPass freeImage.groups[a] .run s.ge[a]
      (first g).phase = .red ∧ (first g).entry = true ∧
        GateConditions freeImage (tab 16 fun a : Group => if a < g then (groupUpdate freeImage .run s.ge)[a] else first a) g) ∧
    0 < freeImage.groups[(0 : Group)].prep ∧ freeImage.groups[(4 : Group)].prep = 0 ∧
    (let s := withGroup 1 greenGroup (alone 0 (redGroup 255 true))
     freeImage.conflicts 1 0 = true ∧ (groupUpdate freeImage .run s.ge)[(0 : Group)].entry = true) ∧
    (let s := atMark 10 (alone 0 (redGroup 255 true))
     s.cf.image = some freeImage ∧ tenthMark s = true ∧ tenthMark (atMark 11 s) = false) := by
  refine ⟨?_, by decide +kernel, by decide +kernel, by decide +kernel, by decide +kernel⟩
  rintro g (rfl | rfl)
  · exact ⟨by decide +kernel, by decide +kernel, gate_of (by decide +kernel)⟩
  · exact ⟨by decide +kernel, by decide +kernel, gate_of (by decide +kernel)⟩

/-- A law that holds of the station at work, and a step from there. -/
theorem witness_NoConflictingRightOfWay :
    ModeLaw (freeRun.withPending [.haltDone]) ∧ GateLaw (freeRun.withPending [.haltDone]) ∧
      ∃ t, step (freeRun.withPending [.haltDone]) = .next t := by
  refine ⟨by unfold ModeLaw; decide +kernel, ?_, ⟨_, rfl⟩⟩
  show Image.Symmetric freeImage ∧ _
  exact ⟨by unfold Image.Symmetric; decide +kernel, by decide +kernel⟩

/-- Group 2 in the last tenth of its PREP beside groups in RED. -/
def prepEnds : State := alone 1 (lastTenth .prep 1 false none)

theorem prepEnds_image {img : Image} (h : prepEnds.cf.image = some img) : img = freeImage := by
  have h0 : prepEnds.cf.image = some freeImage := rfl
  rw [h0] at h
  exact (Option.some.inj h).symm

theorem witness_IntergreensElapseBeforeGreen :
    ModeLaw prepEnds ∧ GateLaw prepEnds ∧ IntergreenLaw prepEnds ∧
      prepEnds.ge[(1 : Group)].phase ≠ .green ∧ (groupUpdate freeImage prepEnds.os.mode prepEnds.ge)[(1 : Group)].phase = .green ∧
      freeImage.inter 4 1 = some 120 := by
  refine ⟨by unfold ModeLaw; decide +kernel, ?_, ?_, by decide +kernel, by decide +kernel, by decide +kernel⟩
  · show Image.Symmetric freeImage ∧ _
    exact ⟨by unfold Image.Symmetric; decide +kernel, by decide +kernel⟩
  · intro img h
    cases prepEnds_image h
    refine ⟨by decide +kernel, ?_⟩
    have key : ∀ a g : Group, (freeImage.inter a g).all (fun i =>
        decide (i ≤ 200 ∧ (prepEnds.ge[g].phase = .prep → i ≤ prepEnds.ge[a].e + prepEnds.ge[g].timer))) = true := by
      decide +kernel
    intro a g i hi
    have := key a g
    rw [hi] at this
    simpa only [Option.all_some, decide_eq_true_eq] using this

theorem witness_LampsFollowStateSourceAndPhase :
    freeImage.groups[(0 : Group)].kind = .vehicle ∧ freeImage.groups[(4 : Group)].kind = .pedestrian ∧
      freeRun.cf.image = some freeImage ∧ freeRun.os.source[(0 : Group)] = .sequencer ∧
      State.reset.os.source[(0 : Group)] = .noPlanRedFlash ∧ State.reset.cf.image = none := by decide +kernel

/-! ## Witnesses: the Stage Sequencer -/

/-- The Stage Sequencer of a state changed. -/
def withStage (s : State) (f : SqState → SqState) : State := s.withSq (f s.sq)

/-- A state in which stage 2 has a call, so that selection chooses it in a free plan. -/
def callHeld (s : State) : State := withStage s fun q => { q with calls := put q.calls (1 : Group) true }

theorem witness_TerminationCauseAndNextStage :
    (let q := withStage coordRun fun q => { q with latch := some .yield }
     q.sq.latch ≠ none ∧ q.sq.latch ≠ some .gap) ∧
    (let q := withStage freeRun fun q => { q with forceOff := true, latch := some .gap }
     q.sq.forceOff = true ∧ coordinatedStage q ≠ some 0 ∧ ∀ g : Group, inStage q 0 g = true → q.ge[g].minGreenDone = true) ∧
    (let q := withStage freeRun fun q => { q with maxRunning := true, maxTimer := 600 }
     q.sq.latch = none ∧ q.sq.forceOff = false ∧ q.sq.maxRunning = true ∧ maxGreenTime q 0 ≤ q.sq.maxTimer) ∧
    (freeRun.sq.latch = none ∧ freeRun.sq.forceOff = false ∧ freeRun.sq.maxRunning = false ∧ freeRun.sq.passage = 0 ∧
      coordinatedStage freeRun ≠ some 0 ∧ ∀ g : Group, inStage freeRun 0 g = true → freeRun.ge[g].minGreenDone = true) ∧
    (coordRun.sq.latch = none ∧ coordRun.sq.forceOff = false ∧ coordRun.sq.maxRunning = false ∧
      coordinatedStage coordRun = some 0) ∧
    (let q := withStage freeRun fun q => { q with latch := some .gap }
     q.sq.latch = some .gap ∧ q.sq.forceOff = false ∧ q.sq.maxRunning = false) ∧
    (freeRun.sq.current = some 0 ∧ freeRun.cf.image = some freeImage ∧ selectNext (callHeld freeRun) = some 1 ∧
      selectNext freeRun = none) := by decide +kernel

/-- Stage 1 COMPLETE with nothing to take from PE or OS, at a tenth mark that is no second mark. -/
def settledRun (s : State) (f : SqState → SqState) : State := withStage (atMark 10 s) f

/-- Detector 1 holds the extension of stage 1. -/
def extendedImage : Image := { freeImage with
  detectors := put freeImage.detectors (0 : Detector) (detector .presence 0 0 none false (some 0) 0 0) }

theorem witness_TerminationCauseAndNextStage_evaluation :
    (let s := settledRun (callHeld freeRun) fun q => { q with passage := 2 }
     s.cf.image = some freeImage ∧ Settled s 0 ∧ StageHasDemand freeImage s 1 ∧ s.sq.maxRunning = false ∧ s.sq.latch = none ∧
       s.sq.forceOff = false ∧ s.ck.report.crossed[(0 : Stage)] = false ∧ MaxGreenAhead s 0 ∧ ¬Extended freeImage s 0) ∧
    (∀ v : Stage, v ≠ 0 → ¬StageHasDemand freeImage (settledRun freeRun id) v) ∧
    (let s := settledRun freeRun fun q => { q with forceOff := true, maxRunning := true, maxTimer := 598 }
     Settled s 0 ∧ MinGreensRun s 0 ∧ selectNext s = none ∧ selectNext (callHeld s) = some 1 ∧ MaxGreenAhead s 0 ∧
       ¬MinGreensRun (withGroup 0 { greenGroup with minGreenDone := false } s) 0) ∧
    (let s := withDet 0 { Det.reset with filtered := true, state := .occupied } (settledRun (running extendedImage) fun q => { q with latch := some .gap })
     s.cf.image = some extendedImage ∧ Settled s 0 ∧ Extended extendedImage s 0 ∧ 0 < extendedImage.stages[(0 : Stage)].passage ∧
       s.sq.passageRunning = true ∧ tenthMark s = true ∧ coordinatedStage s ≠ some 0) := by
  have hi : ∀ f, (settledRun freeRun f).cf.image = some freeImage := fun _ => rfl
  have hc : ∀ f, (settledRun (callHeld freeRun) f).cf.image = some freeImage := fun _ => rfl
  refine ⟨⟨rfl, by unfold Settled; decide +kernel, (stageDemand_iff (hc _) 1).1 (by decide +kernel), by decide +kernel,
    by decide +kernel, by decide +kernel, by decide +kernel, by unfold MaxGreenAhead; decide +kernel,
    fun h => absurd ((extensionActive_iff (hc _) 0).2 h) (by decide +kernel)⟩, fun v hv h => ?_,
    ⟨by unfold Settled; decide +kernel, (minGreensDone_iff _ _).1 (by decide +kernel), by decide +kernel, by decide +kernel,
      by unfold MaxGreenAhead; decide +kernel, fun h => absurd ((minGreensDone_iff _ _).2 h) (by decide +kernel)⟩,
    ⟨rfl, by unfold Settled; decide +kernel, (extensionActive_iff rfl 0).1 (by decide +kernel), by decide +kernel,
      by decide +kernel, by decide +kernel, by decide +kernel⟩⟩
  have key : ∀ v : Stage, v ≠ 0 → stageDemand (settledRun freeRun id) v = false := by decide +kernel
  exact absurd ((stageDemand_iff (hi _) v).2 h) (by simp [key v hv])

/-- A running max timer at a tenth mark and at none, with no stage to follow and with one while no latch is set. -/
theorem witness_TerminationCauseAndNextStage_maxTimer :
    ∀ m, m = 10 ∨ m = 11 →
      let s := withStage (atMark m freeRun) fun q => { q with maxRunning := true, maxTimer := 50, passage := 20 }
      s.cf.image = some freeImage ∧ Settled s 0 ∧ coordinatedStage s ≠ some 0 ∧ s.sq.maxRunning = true ∧ selectNext s = none ∧
        tenthMark s = decide (m = 10) ∧ selectNext (callHeld s) = some 1 ∧ (sqEvaluation (callHeld s)).sq.target = none := by
  rintro m (rfl | rfl) <;> exact ⟨rfl, by unfold Settled; decide +kernel, by decide +kernel⟩

/-- Stage 1, the coordinated stage, COMPLETE with a call on stage 2 and every permissive window open. -/
def yielding (open_ wasOpen : Bool) : State :=
  let s := withStage coordRun fun q => { q with calls := put q.calls (1 : Group) true, yieldWasOpen := wasOpen }
  s.withCk { s.ck with report := { s.ck.report with yieldOpen := open_, permissive := tab 8 fun _ => true } }

/-- A platoon notice for stage 1 is active. -/
def platooned (s : State) : State := s.withPl { s.pl with queue :=
  [{ sender := 5, serial := 3, stage := 0, t := 0, remaining := 100, active := true, arrival := 0 }] }

theorem witness_StageTimersExpire_yield :
    (Settled (yielding true false) 0 ∧ coordinatedStage (yielding true false) = some 0 ∧ (yielding true false).sq.latch = none ∧
      ¬PlatoonHolds (yielding true false) ∧ selectNext (yielding true false) = some 1) ∧
    (let s := platooned (yielding true true)
     Settled s 0 ∧ PlatoonHolds s ∧ s.sq.holdRunning = false ∧ s.ck.report.yieldOpen = true) ∧
    (let s := platooned (yielding false true)
     Settled s 0 ∧ PlatoonHolds s ∧ s.sq.yieldWasOpen = true ∧ s.ck.report.yieldOpen = false ∧ activePlan s = some coordPlan ∧
       0 < coordPlan.holdCap) := by
  refine ⟨⟨by unfold Settled; decide +kernel, by decide +kernel, by decide +kernel,
    fun h => absurd ((platoonHold_iff _).2 h) (by decide +kernel), by decide +kernel⟩,
    ⟨by unfold Settled; decide +kernel, (platoonHold_iff _).1 (by decide +kernel), by decide +kernel, by decide +kernel⟩,
    by unfold Settled; decide +kernel, (platoonHold_iff _).1 (by decide +kernel), by decide +kernel⟩

/-- A running hold extension under a platoon hold, short of the hold cap, at a tenth mark and at none, and at its last tenth, with
a stage to follow and without one; and one that starts anew as a window closes again. -/
theorem witness_StageTimersExpire_hold :
    (∀ m h, (m = 10 ∨ m = 11) ∧ h = 50 ∨ m = 10 ∧ h = 99 →
      let s := withStage (platooned (atMark m (yielding false false))) fun q => { q with holdRunning := true, hold := h }
      Settled s 0 ∧ coordinatedStage s = some 0 ∧ s.sq.latch = none ∧ activePlan s = some coordPlan ∧ PlatoonHolds s ∧
        s.sq.holdRunning = true ∧ s.sq.yieldWasOpen = false ∧ tenthMark s = decide (m = 10) ∧ 10 * coordPlan.holdCap = 100 ∧
        selectNext s = some 1) ∧
    (let s := withStage coordRun fun q => { q with holdRunning := true, hold := 99 }
     Settled s 0 ∧ ¬PlatoonHolds s ∧ selectNext s = none) ∧
    (let s := withStage (platooned (yielding false true)) fun q => { q with holdRunning := true, hold := 50 }
     Settled s 0 ∧ PlatoonHolds s ∧ s.sq.yieldWasOpen = true ∧ s.ck.report.yieldOpen = false ∧ s.sq.holdRunning = true) := by
  refine ⟨?_, ⟨by unfold Settled; decide +kernel, fun h => absurd ((platoonHold_iff _).2 h) (by decide +kernel), by decide +kernel⟩,
    by unfold Settled; decide +kernel, (platoonHold_iff _).1 (by decide +kernel), by decide +kernel⟩
  rintro m h (⟨rfl | rfl, rfl⟩ | ⟨rfl, rfl⟩) <;>
    exact ⟨by unfold Settled; decide +kernel, by decide +kernel, by decide +kernel, by decide +kernel,
      (platoonHold_iff _).1 (by decide +kernel), by decide +kernel⟩

theorem witness_StageTimersExpire :
    (let s := withStage freeRun fun q => { q with passage := 1, maxRunning := true, maxTimer := 300 }
     s.os.mode = .run ∧ s.sq.current = some 0 ∧ s.sq.phase = .complete ∧ s.sq.passageRunning = true ∧ s.sq.passage ≤ 1 ∧
       extensionActive s 0 = false ∧ s.sq.latch = none ∧ s.sq.forceOff = false ∧
       s.sq.maxTimer < 10 * freeImage.stages[(0 : Stage)].maxGreen ∧ s.sq.command = none ∧ s.sq.haltRequest = false ∧ coordinatedStage s ≠ some 0 ∧ minGreensDone s 0 = true ∧
       selectNext s = none ∧ selectNext (callHeld s) = some 1) ∧
    (let s := withStage coordRun fun q => { q with passage := 1 }
     s.sq.passage ≤ 1 ∧ extensionActive s 0 = false ∧ coordinatedStage s = some 0) ∧
    (let s := withStage freeRun fun q => { q with maxRunning := true, maxTimer := 599 }
     s.sq.command = none ∧ s.sq.haltRequest = false ∧ s.sq.maxRunning = true ∧
       maxGreenTime s 0 ≤ min (s.sq.maxTimer + 1) 1800 ∧ coordinatedStage s ≠ some 0 ∧ s.sq.latch = none ∧
       selectNext s = none ∧ selectNext (callHeld s) = some 1 ∧ s.sq.forceOff = false) ∧
    (let s := withStage freeRun fun q => { q with maxRunning := true, maxTimer := 1800, forceOff := true, latch := some .gap }
     maxGreenTime s 0 ≤ min (s.sq.maxTimer + 1) 1800 ∧ s.sq.forceOff = true ∧ minGreensDone s 0 = true) ∧
    (let s := (withStage coordRun fun q => { q with holdRunning := true, hold := 99, calls := put q.calls (1 : Group) true }).withCk
       { coordRun.ck with report := { coordRun.ck.report with permissive := tab 8 fun _ => true } }
     s.sq.holdRunning = true ∧ activePlan s = some coordPlan ∧ 10 * coordPlan.holdCap ≤ s.sq.hold + 1 ∧
       s.sq.phase = .complete ∧ s.sq.command = none ∧ s.sq.haltRequest = false ∧ s.sq.current = some 0 ∧
       coordinatedStage s = some 0 ∧ s.sq.latch = none ∧ selectNext s = some 1) ∧
    (let s := withStage freeRun fun q => { q with holdRunning := true, hold := 0 }
     s.sq.holdRunning = true ∧ activePlan s = some freePlan ∧ 10 * freePlan.holdCap ≤ s.sq.hold + 1 ∧
       s.sq.current = some 0 ∧ coordinatedStage s ≠ some 0) := by decide +kernel

/-- A passage timer that runs out with a latch already set. -/
theorem witness_StageTimersExpire_latched :
    let s := withStage freeRun fun q => { q with passage := 1, latch := some .max }
    s.cf.image = some freeImage ∧ s.sq.passage ≤ 1 ∧ extensionActive s 0 = false ∧ s.sq.latch = some .max ∧
      s.sq.forceOff = false ∧ s.sq.maxRunning = false ∧ s.sq.command = none ∧ s.sq.haltRequest = false ∧
      selectNext s = none ∧ selectNext (callHeld s) = some 1 := by decide +kernel

/-- A change toward stage 2. -/
def changing : State := withStage freeRun fun q => { q with target := some 1, phase := .changing }

theorem witness_StageChangeCompleteMakesTheTargetCurrent :
    let s := withGroup 1 greenGroup (withGroup 0 (redGroup 30 false) changing)
    s.os.mode = .run ∧ s.sq.target = some 1 ∧ (∀ g : Group, inStage s 1 g = true → s.ge[g].phase = .green) ∧
      s.sq.command = none ∧ (withStage s fun q => { q with command := some (2, true) }).sq.command = some (2, true) := by
  decide +kernel

/-- An evaluation during a change, with group 1 of the old stage still to be given a leave request. -/
theorem witness_StageChangeCompleteMakesTheTargetCurrent_evaluation :
    changing.sq.target = some 1 ∧ changing.sq.phase = .changing ∧ changing.sq.command = none ∧
      changing.sq.haltRequest = false ∧ changing.sq.arrivals = [] ∧ changing.ge[(1 : Group)].phase ≠ .green ∧
      inStage changing 1 1 = true ∧ inStage changing 1 0 = false ∧ changing.ge[(0 : Group)].phase = .green ∧
      changing.ge[(0 : Group)].leave = none := by decide +kernel

theorem witness_PeCommandActsByTheSequencersState :
    (inMode .startRed freeRun).os.mode ≠ .run ∧ freeRun.os.mode = .run ∧ freeRun.sq.haltRequest = false ∧
      freeRun.sq.phase = .complete ∧ freeRun.sq.current = some 0 ∧ commandTruncates freeRun.sq = false ∧
      changing.sq.phase = .changing ∧ changing.sq.target = some 1 ∧
      (∀ g : Group, changing.sq.entering[g] = true → changing.ge[g].phase = .red ∨ changing.ge[g].phase = .clearance) ∧
      (let s := withGroup 1 greenGroup (withStage changing fun q => { q with entering := put q.entering (1 : Group) true })
       s.sq.entering[(1 : Group)] = true ∧ s.ge[(1 : Group)].phase = .green) := by decide +kernel

theorem witness_PeCommandReleaseDropsTruncation :
    (withStage changing fun q => { q with command := some (1, true) }).sq.command = some (1, true) ∧
      (withStage changing fun q => { q with command := some (1, false) }).sq.command = some (1, false) := by decide +kernel

/-- FLASH ENTRY just begun. -/
def halting : State := withStage (inMode .flashEntry freeRun) fun q => { q with haltRequest := true }

theorem witness_HaltWindsDownToManualFlash :
    (halting.cf.image = some freeImage ∧ halting.os.mode = .flashEntry ∧ halting.sq.haltRequest = true ∧
      halting.sq.latch ≠ some .flash ∧ allRedOrOff halting = false ∧
      allRedOrOff (withGroup 0 (redGroup 255 false) halting) = true) ∧
    (let s := withStage (withGroup 0 (redGroup 255 false) halting) fun q => { q with latch := some .flash }
     s.sq.latch = some .flash ∧ ∀ g : Group, s.ge[g].phase = .red ∨ s.ge[g].phase = .off) := by decide +kernel

/-- The four laws at work, and a step from there. -/
theorem witness_SequencerPortAndCountersHold :
    StoppedLaw freeRun ∧ PhaseLaw freeRun ∧ PortLaw freeRun ∧ CounterLaw freeRun ∧
      StoppedLaw (after .modeTimerExpiry (withStage (loaded freeImage) fun q => { q with lastCause := some .gap })) ∧
      ∃ t, step (freeRun.withPending [.halt]) = .next t := by
  refine ⟨?_, ?_, ?_, ?_, ?_, ⟨_, rfl⟩⟩
  · unfold StoppedLaw; decide +kernel
  · unfold PhaseLaw; decide +kernel
  · unfold PortLaw; decide +kernel
  · unfold CounterLaw; decide +kernel
  · unfold StoppedLaw; decide +kernel

/-! ## Witnesses: detectors -/

/-- A detector on the sample before its edge. -/
def atEdge (filtered : Bool) : Det :=
  { filtered, count := 10, state := if filtered then .occupied else .idle, presence := 0, noActivity := 0, pending := false }

/-- Detector 9 counts for the link to station 5, whose green has begun. -/
def countingRun : State := freeRun.withPl { freeRun.pl with
  links := put freeRun.pl.links (0 : Place) (some
    { green := true, greenTimer := 40, exitCount := 254, sent := false, serial := 3 }) }

theorem witness_OnEdgeActsByTheDetectorRecord :
    (let s := withDet 11 (atEdge false) freeRun
     s.cf.image = some freeImage ∧ s.du[(11 : Detector)].filtered = false ∧
       10 * freeImage.detectors[(11 : Detector)].onFilter ≤ s.du[(11 : Detector)].count ∧
       freeImage.detectors[(11 : Detector)].kind = .pulse) ∧
    (countingRun.cf.image = some freeImage ∧ countingRun.du[(8 : Detector)].filtered = false ∧
      10 * freeImage.detectors[(8 : Detector)].onFilter ≤ countingRun.du[(8 : Detector)].count ∧
      freeImage.detectors[(8 : Detector)].kind = .count ∧
      (countingRun.nt.places[(0 : Place)]).any (fun e => e.link.any fun l => l.exitDetector == some 8) = true ∧
      (countingRun.pl.links[(0 : Place)]).any (fun l => l.green) = true ∧ countingRun.pl.links[(1 : Place)] = none) := by
  decide +kernel

theorem witness_DetectorEventsMoveOneDetector :
    (let s := withDet 11 (atEdge true) freeRun
     s.cf.image = some freeImage ∧ s.du[(11 : Detector)].filtered = true ∧
       10 * freeImage.detectors[(11 : Detector)].offFilter ≤ s.du[(11 : Detector)].count) ∧
    (let s := withDet 6 { atEdge true with presence := 1199 } freeRun
     s.du[(6 : Detector)].state = .occupied ∧ 0 < freeImage.detectors[(6 : Detector)].maxPresence ∧
       freeImage.detectors[(6 : Detector)].maxPresence ≤ 255 ∧
       10 * freeImage.detectors[(6 : Detector)].maxPresence ≤ s.du[(6 : Detector)].presence + 1) ∧
    (let s := withDet 6 { atEdge false with noActivity := 1799 } freeRun
     s.du[(6 : Detector)].state = .idle ∧ 0 < freeImage.detectors[(6 : Detector)].noActivity ∧
       freeImage.detectors[(6 : Detector)].noActivity ≤ 240 ∧
       60 * freeImage.detectors[(6 : Detector)].noActivity ≤ s.du[(6 : Detector)].noActivity + 1) := by decide +kernel

/-! ## Witnesses: the Cycle Clock -/

/-- The Cycle Clock of a state changed. -/
def withClock (s : State) (f : CkState → CkState) : State := s.withCk (f s.ck)

theorem coordRun_image {img : Image} (h : coordRun.cf.image = some img) : img = sampleImage := by
  have h0 : coordRun.cf.image = some sampleImage := rfl
  rw [h0] at h
  exact (Option.some.inj h).symm

theorem witness_ClockCountsRunOut :
    (withClock coordRun fun k => { k with hold := 1 }).ck.hold = 1 ∧
    (coordinatedActive coordRun = true ∧ coordRun.ck.unsync = true ∧
      2 ≤ (withClock coordRun fun k => { k with unsyncCount := 2 }).ck.unsyncCount ∧
      ∀ (p : Place) (e : Entry), coordRun.nt.places[p] = some e → ¬Qualifies coordRun.ck.c e) ∧
    (withClock coordRun fun k => { k with planHold := 1 }).ck.planHold = 1 ∧
    (coordRun.cf.image = some sampleImage ∧
      (withClock coordRun fun k => { k with beaconCount := 1 }).ck.beaconCount + 1 = sampleImage.beaconPeriod) :=
  ⟨by decide +kernel, ⟨by decide +kernel, by decide +kernel, by decide +kernel, fun p e h hq =>
    (every_entry (P := fun _ e => e.state ≠ .heard) (by decide +kernel) p e h) hq.1⟩, by decide +kernel, by decide +kernel⟩

/-- A second mark with both counts running and with both at their ends, and a tick that is none. -/
theorem witness_ClockCountsRunOut_tick :
    (∀ m, m = 99 ∨ m = 50 → ∀ h b, h = 3 ∧ b = 0 ∨ h = 0 ∧ b = 2 →
      let s := withClock (atMark m coordRun) fun k => { k with planHold := h, beaconCount := b }
      s.cf.image = some sampleImage ∧ s.ck.active = some 0 ∧ pendingCommand s.mp = none ∧
        decide ((s.tb.m + 1) % 100 = 0) = decide (m = 99) ∧ sampleImage.beaconPeriod = 2) := by
  rintro m (rfl | rfl) h b (⟨rfl, rfl⟩ | ⟨rfl, rfl⟩) <;> decide +kernel

/-- A coordinated plan one tick before cycle zero, one further back, and a free plan before a second mark and before no mark. -/
theorem witness_PlanAdoptionTakesThePendingPlan_tick :
    (let s := withClock (atMark 50 coordRun) fun k => { k with pendingPlan := some 1, p := 5999 }
     s.ck.active = some 0 ∧ pendingCommand s.mp = none ∧ (s.tb.m + 1) % 1000 ≠ 0 ∧ (s.tb.m + 1) % 100 ≠ 0 ∧ s.ck.hold = 0 ∧
       (s.ck.p + 1) % s.ck.c = 0 ∧ 1 < s.ck.c ∧ s.ck.p < s.ck.c ∧ s.ck.c = 100 * coordPlan.cycle ∧
       activePlan s = some coordPlan) ∧
    (∀ m, m = 99 ∨ m = 50 → (atMark m freeRun).tb.m = m ∧ (atMark m freeRun).ck.c = 0) := by
  refine ⟨by decide +kernel, ?_⟩
  rintro m (rfl | rfl) <;> decide +kernel

theorem witness_PlanAdoptionTakesThePendingPlan :
    (let s := withClock coordRun fun k => { k with pendingPlan := some 1, p := 5999 }
     s.cf.image = some sampleImage ∧ s.ck.active = some 0 ∧ s.ck.pendingPlan = some 1 ∧ adoptionDue sampleImage s = true ∧
       sampleImage.plans[(1 : Plan)].cycle = 0) ∧
    (let s := withClock (atMark 99 freeRun) fun k => { k with pendingPlan := some 2 }
     s.cf.image = some freeImage ∧ s.ck.active = some 0 ∧ adoptionDue freeImage s = true ∧
       freeImage.plans[(2 : Plan)].cycle ≠ 0) := by decide +kernel

/-- The laws of the clock at work, and a step from there. -/
theorem witness_PositionAndBalanceStayInTheCycle :
    (let s := (withClock coordRun fun k => { k with b := 3000, p := 5999 }).withPending [.holdEnd]
     ClockLaw s ∧ BalanceLaw s ∧ ∃ t, step s = .next t) := by
  refine ⟨⟨?_, by decide +kernel, by decide +kernel, by decide +kernel⟩, by unfold BalanceLaw; decide +kernel, ⟨_, rfl⟩⟩
  intro r hr
  have h : activePlan ((withClock coordRun fun k => { k with b := 3000, p := 5999 }).withPending [.holdEnd]) = some coordPlan := by
    decide +kernel
  rw [h] at hr
  cases hr
  decide +kernel

theorem witness_ReferencePositionAndWrappedError :
    (ClockLaw coordRun ∧ coordinatedActive coordRun = true ∧ coordRun.ck.p = coordRun.ck.o) ∧
    (ClockLaw freeRun ∧ coordinatedActive freeRun = false ∧ freeRun.cf.image = some freeImage) ∧
    ((6000 : Nat) % 100 = 0 ∧ (((3000 : Nat) : Int) - (1 : Nat)) % (6000 : Nat) < 6000 / 2 ∧
      (6000 : Int) / 2 ≤ (((3000 : Nat) : Int) - (0 : Nat)) % (6000 : Nat)) := by
  refine ⟨⟨⟨?_, by decide +kernel, by decide +kernel, by decide +kernel⟩, by decide +kernel, by decide +kernel⟩,
    ⟨⟨?_, by decide +kernel, by decide +kernel, by decide +kernel⟩, by decide +kernel, by decide +kernel⟩, by decide⟩
  · intro r hr
    have h : activePlan coordRun = some coordPlan := by decide +kernel
    rw [h] at hr
    cases hr
    decide +kernel
  · intro r hr
    have h : activePlan freeRun = some freePlan := by decide +kernel
    rw [h] at hr
    cases hr
    decide +kernel

theorem witness_ReportTellsWindowsAndCrossings : (5998 : Nat) < 6000 ∧ (21 : Nat) < 6000 ∧ crosses 6000 5998 21 0 = true := by
  decide

/-- Two neighbors of one weight that qualify. -/
def twoNeighbors : State := withEntries [entryAt 9 false .heard 0, entryAt 5 true .heard 0] coordRun

/-- A TICK with a coordinated plan: a jump-in, an evaluation, a missed jump-in, a payout that holds the position, a held tick and an
ordinary one; and with a free plan. -/
theorem witness_ReportTellsWindowsAndCrossings_tick :
    (let s := atMark 999 twoNeighbors
     s.cf.image = some sampleImage ∧ s.ck.active = some 0 ∧ pendingCommand s.mp = none ∧ (s.tb.m + 1) % 1000 = 0 ∧
       s.ck.unsync = true ∧ s.ck.pendingPlan = some 0 ∧ sampleImage.plans[(0 : Plan)].cycle ≠ 0 ∧
       (withClock s fun k => { k with unsync := false }).ck.unsync = false) ∧
    (∃ (p : Place) (e : Entry), twoNeighbors.nt.places[p] = some e ∧ Qualifies twoNeighbors.ck.c e) ∧
    (∃ (p : Place) (e : Entry), (ntWork (atMark 999 twoNeighbors)).nt.places[p] = some e ∧ Qualifies twoNeighbors.ck.c e) ∧
    (∀ (p : Place) (e : Entry), coordRun.nt.places[p] = some e → ¬Qualifies coordRun.ck.c e) ∧
    (∀ m, m = 99 ∨ m = 50 → ∀ b h, b = -5 ∧ h = 0 ∨ b = 0 ∧ h = 2 ∨ b = 5 ∧ h = 0 →
      let s := withClock (atMark m coordRun) fun k => { k with b := b, hold := h }
      s.ck.active = some 0 ∧ pendingCommand s.mp = none ∧ s.ck.pendingPlan = some 0 ∧ (s.tb.m + 1) % 1000 ≠ 0) ∧
    (freeRun.ck.active = some 0 ∧ pendingCommand freeRun.mp = none ∧ freeRun.ck.pendingPlan = some 0 ∧
      freeImage.plans[(0 : Plan)].cycle = 0) := by
  refine ⟨by decide +kernel, ⟨1, entryAt 5 true .heard 0, by decide +kernel, by decide +kernel, by decide +kernel,
    ⟨sampleBeacon, by decide +kernel⟩⟩, ⟨1, entryAt 5 true .heard 1, by decide +kernel, by decide +kernel, by decide +kernel,
    ⟨sampleBeacon, by decide +kernel⟩⟩, fun p e h hq =>
    (every_entry (P := fun _ e => e.state ≠ .heard) (by decide +kernel) p e h) hq.1, ?_, by decide +kernel⟩
  rintro m (rfl | rfl) b h (⟨rfl, rfl⟩ | ⟨rfl, rfl⟩ | ⟨rfl, rfl⟩) <;> decide +kernel

theorem witness_JumpInCopiesTheBestNeighbor :
    (TableLaw twoNeighbors ∧ bestNeighbor (contributors twoNeighbors) = some (entryAt 5 true .heard 0) ∧ 0 < twoNeighbors.ck.c) ∧
    (let s := atMark 999 twoNeighbors
     s.cf.image = some sampleImage ∧ pendingCommand s.mp = none ∧ coordinatedActive s = true ∧ s.ck.unsync = true ∧
       (s.tb.m + 1) % 1000 = 0 ∧ bestNeighbor (contributors (ntWork s)) = some (entryAt 5 true .heard 1)) ∧
    (contributors coordRun = [] ∧ coordRun.ck.pendingPlan = coordRun.ck.active ∧ coordRun.ck.unsyncCount < 2 ∧
      2 ≤ (withClock coordRun fun k => { k with unsyncCount := 2 }).ck.unsyncCount) :=
  ⟨⟨table_of (img := sampleImage) rfl (by decide +kernel) (by decide +kernel), by decide +kernel⟩, by decide +kernel,
    by decide +kernel⟩

/-- A discipline mark on a coordinated plan with its flag clear and on a free one, and a table that plan following follows. -/
theorem witness_EvaluationReplacesTheBalance_tick :
    (let s := withClock (atMark 999 twoNeighbors) fun k => { k with unsync := false }
     s.cf.image = some sampleImage ∧ s.ck.active = some 0 ∧ pendingCommand s.mp = none ∧ (s.tb.m + 1) % 1000 = 0 ∧
       coordinatedActive s = true ∧ s.ck.unsync = false ∧ s.ck.planHold = 0 ∧ s.ck.pendingPlan = some 0) ∧
    (coordinatedActive freeRun = false ∧ freeRun.ck.active = some 0 ∧ freeRun.ck.pendingPlan = some 0) ∧
    (∀ p, ¬PlanFollowed sampleImage twoNeighbors.nt 0 p) ∧ PlanFollowed sampleImage twoNeighbors.nt 1 0 := by
  refine ⟨by decide +kernel, by decide +kernel, ?_, ?_⟩ <;> unfold PlanFollowed <;> decide +kernel

theorem witness_GainRoundsToEvenAndDeadbandZeroes :
    (2 : Nat) ≤ 4 ∧ 2 * (2 ^ 2 * gain 42 2 - 42).natAbs = 2 ^ 2 ∧ (4 : Int).natAbs ≤ 4 ∧ 4 < (5 : Int).natAbs := by decide

theorem witness_EvaluationReplacesTheBalance :
    (([] : List Entry).map fun e => e.weight).sum = 0 ∧ 0 < ((contributors twoNeighbors).map fun e => e.weight).sum ∧
      2 * (average (-7) 2 * (2 : Nat) - (-7)).natAbs = 2 ∧
      (-((4 : Nat) : Int) * (2 : Nat) ≤ -7 ∧ (-7 : Int) ≤ (((4 : Nat) : Int) - 1) * (2 : Nat)) := by decide +kernel

/-! ## Witnesses: the corridor line -/

/-- The Line Unit of a state changed. -/
def withLine (s : State) (f : LuState → LuState) : State := s.withLu (f s.lu)

/-- Two frames in the transmit queue, in their order. -/
def twoQueued : List Queued :=
  [{ frame := .platoon 5 1 20 100, entered := 1 }, { frame := .beacon, entered := 0 }]

/-- DEFER with work. -/
def deferring : State := withLine freeRun fun u => { u with access := .defer, queue := twoQueued, nextEntry := 2 }

theorem witness_LineEventsMoveTheAccessState :
    (deferring.lu.busy = true ∧ deferring.lu.access = .defer ∧ deferring.lu.queue ≠ [] ∧
      freeRun.lu.busy = true ∧ freeRun.lu.access ≠ .disabled ∧ freeRun.lu.access ≠ .sending ∧ freeRun.lu.access ≠ .defer) ∧
    (∀ bs, freeRun.lu.assembler ≠ .assembling bs) ∧
    (withLine freeRun fun u => { u with assembler := .assembling [0xC3] }).lu.assembler = .assembling [0xC3] ∧
    (let s := withLine deferring fun u => { u with access := .backoff, busy := false, slots := 1 }
     s.lu.access = .backoff ∧ s.lu.busy = false ∧ s.lu.slots = 1 ∧ s.lu.queue ≠ []) ∧
    1 < (withLine deferring fun u => { u with access := .backoff, busy := false, slots := 2 }).lu.slots := by
  refine ⟨by decide +kernel, ?_, by decide +kernel, by decide +kernel, by decide +kernel⟩
  have h : freeRun.lu.assembler = .waitFree := by decide +kernel
  rw [h]
  intro bs hb
  cases hb

/-- A FLASH-ALERT of this station on the line, at byte `next`, in attempt `attempts`. -/
def onLine (next attempts : Nat) : State := withLine freeRun fun u =>
  { u with access := .sending, driverEnable := true, inHand := some { frame := .flashAlert .manual, attempts },
           sending := some { bytes := frameBytes freeRun (.flashAlert .manual), next } }

theorem witness_ReadbackJudgesEachByte :
    ((onLine 0 6).lu.access = .sending ∧ (onLine 0 6).lu.inHand = some { frame := .flashAlert .manual, attempts := 6 }) ∧
    (onLine 0 1).lu.access ≠ .disabled ∧ (frameBytes freeRun (.flashAlert .manual))[0]? = some 0xC3 ∧
    0 + 1 < (frameBytes freeRun (.flashAlert .manual)).length ∧
    5 + 1 = (frameBytes freeRun (.flashAlert .manual)).length ∧
    (frameBytes freeRun (.flashAlert .manual))[0]? ≠ some 0xC2 := by decide +kernel

/-- A frame with its check sequence. -/
def frame (fields : List Byte) : List Byte := 0xC3 :: (fields ++ crcBytes fields)

/-- All of the frame but its last byte received. -/
def hearing (f : List Byte) (s : State) : State :=
  withLine s fun u => { u with assembler := .assembling f.dropLast }

theorem completes_of {s : State} {img : Image} {f : List Byte} (hi : s.cf.image = some img) (ha : s.lu.access ≠ .disabled)
    (hs : s.lu.sending = none) (hf : 3 ≤ f.dropLast.length ∧ (num f.dropLast 2, f.dropLast.length + 1) ∈ frameKinds ∧
      f = f.dropLast ++ [f.getLast?.getD 0]) : Completes (hearing f s) img (f.getLast?.getD 0) f :=
  ⟨hi, ha, hs, f.dropLast, rfl, hf⟩

/-- A FLASH-ALERT, a PREEMPT-ALERT, a PLATOON and a BEACON from station 5. -/
def flashAlertFrame : List Byte := frame [5, 0x51, 2]
def preemptAlertFrame (target : Byte) : List Byte := frame [5, 0x52, target, 7, 2, 0, 200]
def platoonFrame (elapsedHi elapsedLo : Byte) : List Byte := frame [5, 0x53, 6, 3, elapsedHi, elapsedLo, 0, 100, 0]
def beaconFrame (sender : Byte) : List Byte := frame [sender, 0x54, 1, 1, 60, 0, 99, 2, 1]

/-- A good frame from another station, decided. -/
theorem good_of {s : State} {f : List Byte} (hi : s.cf.image = some freeImage) (ha : s.lu.access ≠ .disabled)
    (hs : s.lu.sending = none)
    (hf : (3 ≤ f.dropLast.length ∧ (num f.dropLast 2, f.dropLast.length + 1) ∈ frameKinds ∧
      f = f.dropLast ++ [f.getLast?.getD 0]) ∧ crcBytes ((f.drop 1).take (f.length - 3)) = f.drop (f.length - 2) ∧
      num f 1 ≠ 6) (hg : FieldsGood f) : GoodFromOther (hearing f s) freeImage (f.getLast?.getD 0) f :=
  ⟨completes_of hi ha hs hf.1, hf.2.1, hg, hf.2.2⟩

theorem witness_AssemblerAndJudgeFollowTheirTables :
    (freeRun.lu.access ≠ .disabled ∧ freeRun.lu.sending = none ∧ freeRun.lu.assembler = .waitFree) ∧
    ([0xC3, 5] : List Byte).length = 2 ∧ (∀ n, ((0x99 : Byte).toNat, n) ∉ frameKinds) ∧
    (num (([0xC3, 5] : List Byte) ++ [0x51]) 2, 6) ∈ frameKinds ∧
    (∃ f, Completes (hearing f freeRun) freeImage (f.getLast?.getD 0) f ∧ ¬Intact f) ∧
    (∃ f, Completes (hearing f freeRun) freeImage (f.getLast?.getD 0) f ∧ Intact f ∧ ¬FieldsGood f) ∧
    (∃ f, Completes (hearing f freeRun) freeImage (f.getLast?.getD 0) f ∧ Intact f ∧ FieldsGood f ∧ num f 1 = freeImage.address) ∧
    GoodFromOther (hearing flashAlertFrame freeRun) freeImage (flashAlertFrame.getLast?.getD 0) flashAlertFrame ∧
    (let f := frameBytes freeRun (.flashAlert .manual)
     let s := withLine (onLine 5 1) fun u => { u with assembler := .assembling f.dropLast }
     s.cf.image = some freeImage ∧ s.lu.access ≠ .disabled ∧ s.lu.sending = some { bytes := f, next := 5 } ∧
       f[5]? = some (f.getLast?.getD 0) ∧ 5 + 1 = f.length ∧ 3 ≤ f.dropLast.length ∧
       (num f.dropLast 2, f.dropLast.length + 1) ∈ frameKinds ∧ f.dropLast ++ [f.getLast?.getD 0] = f ∧ num f 1 = 6) := by
  refine ⟨by decide +kernel, by decide, ?_, by decide +kernel, ⟨[0xC3, 5, 0x51, 2, 0, 0], ?_, ?_⟩, ⟨frame [5, 0x51, 3], ?_, ?_, ?_⟩,
    ⟨frame [6, 0x51, 2], ?_, ?_, ?_, by decide +kernel⟩, good_of rfl (by decide +kernel) rfl (by decide +kernel)
      (by unfold FieldsGood Between; decide +kernel), by decide +kernel⟩
  · intro n h
    simp [frameKinds] at h
  · exact completes_of rfl (by decide +kernel) rfl (by decide +kernel)
  · unfold Intact; decide +kernel
  · exact completes_of rfl (by decide +kernel) rfl (by decide +kernel)
  · unfold Intact; decide +kernel
  · unfold FieldsGood Between; decide +kernel
  · exact completes_of rfl (by decide +kernel) rfl (by decide +kernel)
  · unfold Intact; decide +kernel
  · unfold FieldsGood Between; decide +kernel

theorem deferring_queue : QueueLaw deferring := by
  unfold QueueLaw queuedBefore
  decide +kernel

/-- Three PLATOON frames queued. -/
def threePlatoons : State := withLine deferring fun u => { u with
  queue := [{ frame := .platoon 5 1 20 100, entered := 0 }, { frame := .platoon 7 1 20 100, entered := 1 },
            { frame := .platoon 9 1 20 100, entered := 2 }], nextEntry := 3 }

theorem witness_OfferIsAnsweredByTheTable :
    State.reset.lu.access = .disabled ∧ (deferring.lu.access = .defer ∧ QueueLaw deferring) ∧
    ({ frame := .platoon 5 1 20 100, entered := 1 } ∈ deferring.lu.queue) ∧
    (QueueLaw threePlatoons ∧ platoonFrames threePlatoons.lu.queue = 3 ∧
      ∀ q ∈ threePlatoons.lu.queue, frameTarget q.frame ≠ frameTarget (.platoon 11 1 20 100)) ∧
    platoonFrames deferring.lu.queue < 3 ∧
    (freeRun.lu.access = .idle ∧ freeRun.lu.queue = [] ∧ freeRun.lu.inHand = none ∧ freeRun.lu.busy = true ∧
      (withLine freeRun fun u => { u with busy := false }).lu.busy = false) := by
  refine ⟨by decide +kernel, ⟨by decide +kernel, deferring_queue⟩, by decide +kernel,
    ⟨by unfold QueueLaw queuedBefore; decide +kernel, by decide +kernel, by decide +kernel⟩, by decide +kernel, by decide +kernel⟩

theorem witness_OwnFramesAreGoodFrames : Between 1 62 (stationAddress freeRun) ∧ FrameInRange freeRun (.flashAlert .fault) ∧
    FrameInRange freeRun (.preemptAlert 63 255 3000) ∧ FrameInRange freeRun (.platoon 1 0 0 600) ∧
    FrameInRange coordRun .beacon ∧ FrameInRange freeRun .beacon ∧ (1 : BitVec 16) ≠ 0 := by
  refine ⟨by unfold Between; decide +kernel, trivial, by simp [FrameInRange, Between], by simp [FrameInRange, Between], ?_, ?_,
    by decide⟩
  · exact ⟨⟨sampleImage, rfl, by unfold Between; decide +kernel⟩, by decide +kernel, 60, by unfold Between; decide +kernel⟩
  · exact ⟨⟨freeImage, rfl, by unfold Between; decide +kernel⟩, by decide +kernel, 0, by unfold Between; decide +kernel⟩

theorem freeRun_image {img : Image} (h : freeRun.cf.image = some img) : img = freeImage := by
  have h0 : freeRun.cf.image = some freeImage := rfl
  rw [h0] at h
  exact (Option.some.inj h).symm

/-- The laws of the line at work, and a step from there. -/
theorem witness_TransmitQueueAndAccessStatesHold : QueueLaw deferring ∧ LineLaw (deferring.withPending [.lineBusy]) ∧
    ∃ t, step (deferring.withPending [.lineBusy]) = .next t := by
  refine ⟨deferring_queue, ⟨by decide +kernel, ?_, by decide +kernel, by decide +kernel, by decide +kernel, by decide +kernel,
    by decide +kernel, ?_, by decide +kernel⟩, ⟨_, rfl⟩⟩
  · intro img h
    cases freeRun_image h
    decide +kernel
  · intro h hh
    cases hh

/-! ## Witnesses: the Neighbor Table -/

/-- A table with one free place, and a full one with two STALE unpinned entries. -/
def sparse : State := withEntries [entryAt 5 true .heard 10, entryAt 7 true .absent 65535] freeRun
def crowded : State := withEntries
  [entryAt 5 true .heard 10, entryAt 7 false .stale 700, entryAt 8 false .stale 700, entryAt 10 false .heard 3,
   entryAt 11 false .stale 650, entryAt 12 false .heard 3, entryAt 13 false .heard 3, entryAt 14 false .heard 3] freeRun
/-- A full table with none to replace. -/
def refusing : State := withEntries ((List.range 8).map fun i => entryAt (10 + i) false .heard 3) freeRun

theorem witness_BeaconIsWrittenIntoTheTable :
    (∀ s, s = sparse ∨ s = crowded ∨ s = refusing → ∀ k : Byte, k = 5 ∨ k = 9 →
      GoodFromOther (hearing (beaconFrame k) s) freeImage ((beaconFrame k).getLast?.getD 0) (beaconFrame k) ∧
        num (beaconFrame k) 2 = 0x54) ∧
    (TableLaw sparse ∧ sparse.nt.places[(0 : Place)] = some (entryAt 5 true .heard 10) ∧ sparse.nt.places[(2 : Place)] = none ∧
      (∀ q : Place, q < 2 → sparse.nt.places[q] ≠ none) ∧
      ∀ (p : Place) (e : Entry), sparse.nt.places[p] = some e → e.address ≠ num (beaconFrame 9) 1) ∧
    (TableLaw crowded ∧ (∀ p : Place, crowded.nt.places[p] ≠ none) ∧
      (∀ (p : Place) (e : Entry), crowded.nt.places[p] = some e → e.address ≠ num (beaconFrame 9) 1) ∧
      crowded.nt.places[(1 : Place)] = some (entryAt 7 false .stale 700) ∧
      ∀ (q : Place) (d : Entry), crowded.nt.places[q] = some d → d.pinned = false → d.state = .stale → q ≠ 1 →
        d.age < 700 ∨ (d.age = 700 ∧ (1 : Place) < q)) ∧
    (TableLaw refusing ∧ (∀ p : Place, refusing.nt.places[p] ≠ none) ∧
      ∀ (p : Place) (e : Entry), refusing.nt.places[p] = some e → e.address ≠ num (beaconFrame 9) 1 ∧
        ¬(e.pinned = false ∧ e.state = .stale)) := by
  refine ⟨?_, ⟨table_of (img := freeImage) rfl (by decide +kernel) (by decide +kernel), by decide +kernel, by decide +kernel,
    by decide +kernel, every_entry (by decide +kernel)⟩, ⟨table_of (img := freeImage) rfl (by decide +kernel) (by decide +kernel),
    by decide +kernel, every_entry (by decide +kernel), by decide +kernel, every_entry (by decide +kernel)⟩,
    ⟨table_of (img := freeImage) rfl (by decide +kernel) (by decide +kernel), by decide +kernel, every_entry (by decide +kernel)⟩⟩
  rintro s (rfl | rfl | rfl) k (rfl | rfl) <;>
    exact ⟨good_of rfl (by decide +kernel) rfl (by decide +kernel) (by unfold FieldsGood Between; decide +kernel), by decide +kernel⟩

theorem witness_AlertsReachTheirBlocks :
    (GoodFromOther (hearing flashAlertFrame sparse) freeImage (flashAlertFrame.getLast?.getD 0) flashAlertFrame ∧
      num flashAlertFrame 2 = 0x51 ∧ TableLaw sparse) ∧
    (∀ k : Byte, k = 6 ∨ k = 63 ∨ k = 9 →
      GoodFromOther (hearing (preemptAlertFrame k) freeRun) freeImage ((preemptAlertFrame k).getLast?.getD 0)
        (preemptAlertFrame k) ∧ num (preemptAlertFrame k) 2 = 0x52) ∧
    (freeRun.os.mode = .run ∧ (freeImage.cls .emergency).acceptAlerts = true ∧ freeRun.pe.alert = none) := by
  refine ⟨⟨good_of rfl (by decide +kernel) rfl (by decide +kernel) (by unfold FieldsGood Between; decide +kernel), by decide +kernel,
    table_of (img := freeImage) rfl (by decide +kernel) (by decide +kernel)⟩, ?_, by decide +kernel⟩
  rintro k (rfl | rfl | rfl) <;>
    exact ⟨good_of rfl (by decide +kernel) rfl (by decide +kernel) (by unfold FieldsGood Between; decide +kernel), by decide +kernel⟩

/-- The laws of the table at work, and a step from there. -/
theorem witness_NeighborTableLawHolds : TableLaw (crowded.withPending [.entryStale 0]) ∧
    AgeLaw (crowded.withPending [.entryStale 0]) ∧ ∃ t, step (crowded.withPending [.entryStale 0]) = .next t := by
  refine ⟨table_of (img := freeImage) rfl (by decide +kernel) (by decide +kernel), ?_, ⟨_, rfl⟩⟩
  have key : ∀ p : Place, ((crowded.withPending [.entryStale 0]).nt.places[p]).all (fun e => e.last.all fun b =>
      decide (1 ≤ b.period ∧ b.period ≤ 10 ∧ (b.reference < b.cycle ∨ (b.cycle = 0 ∧ b.reference = 0)) ∧
        (e.state = .heard → e.age < 300 * b.period) ∧ e.age < 1000 * b.period)) = true := by decide +kernel
  intro p e b hp hb
  have := key p
  rw [hp] at this
  simp only [Option.all_some, hb, decide_eq_true_eq] at this
  exact this

/-! ## Witnesses: platoons -/

/-- The entry and the link of station 5, and a link one edge short of its threshold of 6. -/
def link5 : Link :=
  { inStage := some 0, travel := 250, exitDetector := some 8, outStage := some 1, threshold := 6, headway := 20, alert := false }
def entry5 (st : EntryState) : Entry := { entryAt 5 true st 0 with link := some link5 }
def nearThreshold : LinkSend := { green := true, greenTimer := 40, exitCount := 5, sent := false, serial := 255 }
def forming (st : EntryState) (s : State) : State :=
  (withEntries [entry5 st] s).withPl { s.pl with links := put s.pl.links (0 : Place) (some nearThreshold) }

/-- A queue of an active notice in its last tenth and one that arrives next. -/
def endingNotice : Notice := { sender := 5, serial := 3, stage := 0, t := 0, remaining := 1, active := true, arrival := 0 }
def comingNotice : Notice := { sender := 5, serial := 4, stage := 0, t := 1, remaining := 100, active := false, arrival := 1 }
def noticed : State := freeRun.withPl { freeRun.pl with queue := [endingNotice, comingNotice], nextArrival := 2 }

theorem noticed_platoons : PlatoonLaw noticed := by
  unfold PlatoonLaw noticeOrder
  decide +kernel

theorem witness_NoticesFormActivateAndEnd :
    (let s := forming .absent freeRun
     s.nt.places[(0 : Place)] = some (entry5 .absent) ∧ s.pl.links[(0 : Place)] = some nearThreshold ∧
       nearThreshold.exitCount + 1 = link5.threshold ∧ link5.threshold ≤ 255 ∧ (entry5 .absent).state ≠ .heard ∧
       s.cf.image = some freeImage ∧ link5.exitDetector = some 8 ∧ freeImage.detectors[(8 : Detector)].kind = .count ∧
       freeImage.detectors[(7 : Detector)].kind ≠ .count) ∧
    (let s := forming .heard freeRun
     (entry5 .heard).state = .heard ∧ (entry5 .heard).last = some sampleBeacon ∧ sampleBeacon.accepting = true ∧
       offerAnswer s.lu (.platoon 5 0 40 120) ≠ .refused ∧ offerAnswer threePlatoons.lu (.platoon 11 0 40 120) = .refused) ∧
    (PlatoonLaw noticed ∧ endingNotice ∈ noticed.pl.queue ∧ comingNotice ∈ noticed.pl.queue ∧ comingNotice.t ≤ 1 ∧
      endingNotice.remaining ≤ 1 ∧ tenthMark noticed = true) :=
  ⟨by decide +kernel, by decide +kernel, noticed_platoons, by decide +kernel⟩

/-- A link in its green at a tenth mark, one out of it, and a tick that is no tenth mark. -/
theorem witness_NoticesFormActivateAndEnd_greenTimer :
    let s := atMark 10 (forming .heard freeRun)
    tenthMark s = true ∧ s.pl.links[(0 : Place)] = some nearThreshold ∧ nearThreshold.green = true ∧
      ({ nearThreshold with green := false } : LinkSend).green = false ∧ s.pl.links[(7 : Place)] = none ∧
      tenthMark (atMark 11 s) = false := by decide +kernel

/-- R62: a link whose exit detector is not of kind COUNT forms no notice. -/
theorem test_notice_needs_count :
    let l := { link5 with exitDetector := some 7, threshold := 6 }
    let s := (withEntries [{ entry5 .heard with link := some l }] freeRun).withPl
      { freeRun.pl with links := put freeRun.pl.links (0 : Place) (some nearThreshold) }
    after (.noticeFormed 0) s = s := by decide +kernel

/-- A full queue. -/
def sixteen : State := freeRun.withPl { freeRun.pl with
  queue := (List.range 16).map fun i =>
    { sender := 7, serial := i, stage := 0, t := 900, remaining := 100, active := false, arrival := i }
  accepting := false, nextArrival := 16 }

/-- A notice for this station that arrives in 15 tenths, one active from its insertion, and a stale one. -/
theorem witness_PlatoonNoticeIsExamined :
    (∀ s, s = forming .heard noticed ∨ s = forming .heard sixteen → ∀ k : Byte × Byte, k = (0, 235) ∨ k = (1, 4) ∨ k = (1, 94) →
      GoodFromOther (hearing (platoonFrame k.1 k.2) s) freeImage ((platoonFrame k.1 k.2).getLast?.getD 0)
        (platoonFrame k.1 k.2) ∧ num (platoonFrame k.1 k.2) 2 = 0x53 ∧ num (platoonFrame k.1 k.2) 3 = freeImage.address ∧
        TableLaw s ∧ PlatoonLaw s ∧ s.os.mode = .run ∧ s.nt.places[(0 : Place)] = some (entry5 .heard)) ∧
    (250 - (235 : Int) = 15 ∧ (250 - (260 : Int) + 100 : Int) = 90 ∧ (250 - (350 : Int) + 100 : Int) ≤ 0) ∧
    ((∃ n ∈ noticed.pl.queue, n.sender = 5 ∧ n.serial = 3) ∧ sixteen.pl.queue.length = 16 ∧
      ∀ n ∈ sixteen.pl.queue, ¬(n.sender = 5 ∧ n.serial = 3)) ∧
    (∀ (p : Place) (e : Entry) (l : Link), sparse.nt.places[p] = some e → e.link = some l → l.inStage = none) := by
  refine ⟨?_, by decide, by decide +kernel, every_link (by decide +kernel)⟩
  have h16 : PlatoonLaw (forming .heard sixteen) := by
    unfold PlatoonLaw noticeOrder
    decide +kernel
  have h2 : PlatoonLaw (forming .heard noticed) := by
    unfold PlatoonLaw noticeOrder
    decide +kernel
  rintro s (rfl | rfl) k (rfl | rfl | rfl) <;>
    exact ⟨good_of rfl (by decide +kernel) rfl (by decide +kernel) (by unfold FieldsGood Between; decide +kernel), by decide +kernel,
      by decide +kernel, table_of (img := freeImage) rfl (by decide +kernel) (by decide +kernel), by assumption, by decide +kernel,
      by decide +kernel⟩

/-- The law of the queue at work, and a step from there. -/
theorem witness_PlatoonQueueLawHolds : PlatoonLaw noticed ∧ ∃ t, step (noticed.withPending [.noticeEnd 5 3]) = .next t :=
  ⟨noticed_platoons, ⟨_, rfl⟩⟩

/-! ## Witnesses: preemption -/

/-- A service of a class. -/
def serviceOf (cls : PreClass) (phase : ServicePhase) (remaining : Nat) : Service :=
  { cls, phase, elapsed := 0, remaining, fromLine := false, alertSent := false, byMax := false }

/-- The station with this service active. -/
def serving (v : Service) (s : State) : State := s.withPe { s.pe with service := some v }
/-- A class's request set. -/
def asking (c : PreClass) (r : Request) (s : State) : State := s.withPe (s.pe.setRequest c r)

/-- R152: the target of a class is not current and COMPLETE, decided. -/
theorem away_of {img : Image} {s : State} {c : PreClass} {st : Stage} (h : (img.cls c).target = some st)
    (h' : stageComplete s st = false) : TargetAway img s c := by
  intro x hx
  rw [h] at hx
  cases hx
  exact h'

theorem witness_RequestsRaiseServices :
    (∀ c : PreClass, freeRun.cf.image = some freeImage ∧ freeRun.os.mode = .run ∧ (freeRun.pe.cls c).filtered = false ∧
      10 * (freeImage.cls c).onDelay ≤ (freeRun.pe.cls c).count ∧ (freeRun.pe.cls c).request = .none ∧
      freeRun.pe.service = none ∧ (∀ d, d = .rail ∨ d = .emergency ∨ d = .transit → freeRun.pe.requested d = false)) ∧
    ((freeImage.cls .rail).target = some 2 ∧ (freeImage.cls .emergency).target = some 1 ∧ stageComplete freeRun 2 = false ∧
      stageComplete freeRun 1 = false) ∧
    (let s := serving (serviceOf .transit .entry 300) freeRun
     s.pe.service = some (serviceOf .transit .entry 300) ∧ TargetAway freeImage s .transit ∧ higherClass .rail .transit = true ∧
       NoneAbove s .transit ∧ (s.pe.cls .rail).request = .none) ∧
    (let s := asking .emergency .requestedLine (serving (serviceOf .rail .entry 300) freeRun)
     s.pe.service = some (serviceOf .rail .entry 300) ∧ TargetAway freeImage s .rail ∧ higherClass .emergency .rail = false ∧
       NoneAbove s .rail ∧ (s.pe.cls .emergency).request = .requestedLine ∧
       ((asking .emergency .lockedOut s).pe.cls .emergency).request = .lockedOut) ∧
    (let s := freeRun.withPe { freeRun.pe with alert := some { sender := 5, serial := 9, countdown := 1 } }
     s.pe.alert = some { sender := 5, serial := 9, countdown := 1 } ∧ (s.pe.cls .emergency).request = .none) ∧
    (let s := asking .emergency .requestedLine freeRun
     s.pe.service = none ∧ (∀ d, d ≠ .emergency → s.pe.requested d = false) ∧ s.pe.lineDwell ≤ 1) ∧
    (let s := asking .transit .inhibited freeRun
     (s.pe.cls .transit).request = .inhibited ∧ s.pe.inhibit ≤ 1 ∧ (s.pe.cls .transit).filtered = false ∧
       s.pe.requested .emergency = false) ∧
    (let s := asking .transit .inhibited (freeRun.withPe (freeRun.pe.setCls .transit { freeRun.pe.cls .transit with filtered := true }))
     (s.pe.cls .transit).request = .inhibited ∧ (s.pe.cls .transit).filtered = true ∧ (freeImage.cls .transit).target = some 2) := by
  refine ⟨?_, by decide +kernel, ⟨by decide +kernel, away_of (st := 2) (by decide +kernel) (by decide +kernel), by decide +kernel, ?_,
    by decide +kernel⟩, ⟨by decide +kernel, away_of (st := 2) (by decide +kernel) (by decide +kernel), by decide +kernel, ?_,
    by decide +kernel⟩, by decide +kernel, ⟨by decide +kernel, ?_, by decide +kernel⟩, by decide +kernel, by decide +kernel⟩
  · intro c
    refine ⟨rfl, ?_⟩
    refine ⟨by decide +kernel, by cases c <;> decide +kernel, by cases c <;> decide +kernel, by cases c <;> decide +kernel,
      by decide +kernel, ?_⟩
    rintro d (rfl | rfl | rfl) <;> decide +kernel
  · intro d hd
    cases d
    · decide +kernel
    · decide +kernel
    · exact absurd hd (by decide)
  · intro d hd
    cases d <;> exact absurd hd (by decide)
  · intro d hd
    cases d
    · decide +kernel
    · exact absurd rfl hd
    · decide +kernel

/-- RUN with stage `st` COMPLETE. -/
def complete (st : Stage) : State := withStage freeRun fun q => { q with current := some st }

/-- The law of the stack for an active service, decided. -/
theorem stack_of {s : State} {v : Service} (h : s.pe.service = some v) (h' : s.pe.stack.length ≤ 2)
    (h'' : (v.cls :: s.pe.stack.map (fun r => r.cls)).Pairwise fun a b => higherClass a b = true) : StackLaw s :=
  ⟨h', by rw [h]; exact h''⟩

/-- The law of the request states, decided. -/
theorem requests_of {s : State} (h : (s.pe.cls .rail).request = .none) (h' : (s.pe.cls .emergency).request ≠ .inhibited)
    (h'' : (s.pe.cls .transit).request ≠ .requestedLine) : RequestLaw s := by
  intro c
  cases c <;> simp_all

/-- PE's work in RUN and outside it; and RAIL requested over EMERGENCY in DWELL and over TRANSIT in EXIT. -/
theorem witness_RequestsRaiseServices_evaluation :
    (let s := asking .emergency .requestedLine (atMark 100 freeRun)
     s.cf.image = some freeImage ∧ RequestLaw s ∧ s.os.mode = .run ∧ (inMode .startRed s).os.mode ≠ .run ∧
       RequestLaw (inMode .startRed s)) ∧
    (let s := asking .rail .requestedLocal (serving (serviceOf .emergency .dwell 300) (complete 1))
     s.pe.service = some (serviceOf .emergency .dwell 300) ∧ higherClass .rail .emergency = true ∧
       s.pe.requested .rail = true ∧ NoneAbove s .rail ∧ (freeImage.cls .rail).target = some 2 ∧
       0 < (freeImage.cls .rail).maxDwell ∧ (serviceOf .emergency .dwell 300).elapsed < 10 * (freeImage.cls .emergency).minDwell) ∧
    (let s := asking .rail .requestedLocal (serving (serviceOf .transit .exit 300) freeRun)
     s.pe.service = some (serviceOf .transit .exit 300) ∧ higherClass .rail .transit = true ∧ s.pe.requested .rail = true ∧
       NoneAbove s .rail ∧ StackLaw s) := by
  refine ⟨⟨by decide +kernel, requests_of (by decide +kernel) (by decide +kernel) (by decide +kernel), by decide +kernel,
    by decide +kernel, requests_of (by decide +kernel) (by decide +kernel) (by decide +kernel)⟩,
    ⟨by decide +kernel, by decide +kernel, by decide +kernel, ?_, by decide +kernel, by decide +kernel, by decide +kernel⟩,
    by decide +kernel, by decide +kernel, by decide +kernel, ?_,
    stack_of (v := serviceOf .transit .exit 300) (by decide +kernel) (by decide +kernel) (by decide +kernel)⟩ <;>
  · intro d hd
    cases d <;> exact absurd hd (by decide)

theorem exits_rail : ExitsBy freeImage .rail 0 := by unfold ExitsBy; decide +kernel

theorem witness_ServicesDwellAndEnd :
    (∀ c : PreClass, ∃ st, (freeImage.cls c).target = some st ∧
      stageComplete (asking c .requestedLocal (serving (serviceOf c .entry 1) (complete st))) st = true ∧
      (asking c .requestedLocal (serving (serviceOf c .entry 1) (complete st))).pe.requested c = true) ∧
    (∀ (p : Place) (e : Entry) (l : Link), (withEntries [entry5 .heard] (complete 1)).nt.places[p] = some e → e.link = some l →
      l.alert = false) ∧
    ((complete 1).nt.places[(1 : Place)]).any (fun e => e.state != .heard && e.link.any fun l => l.alert) = true ∧
    (∀ (q : Place) (e : Entry) (l : Link), (complete 1).nt.places[q] = some e → e.link = some l → l.alert = true → q = 1) ∧
    (serviceOf .rail .entry 0).remaining = 0 ∧ ExitsBy freeImage .rail 0 ∧
    (let s := serving { serviceOf .rail .dwell 1 with elapsed := 199 } (complete 2)
     s.pe.requested .rail = false ∧ 10 * (freeImage.cls .rail).minDwell ≤ 199 + 1 ∧ s.pe.stack = []) ∧
    ((∀ x, ¬ExitsBy freeImage .transit x) ∧ 0 < (freeImage.cls .transit).inhibit ∧ 10 * (freeImage.cls .transit).minDwell ≤ 49 + 1) ∧
    (let s := serving (serviceOf .rail .exit 300) freeRun
     s.pe.stack = [] ∧ stageComplete s 0 = true ∧
       stageComplete (asking .emergency .requestedLine s) 1 = false ∧ (asking .emergency .requestedLine s).pe.requested .emergency = true ∧
       NoneAbove (asking .emergency .requestedLine s) .emergency ∧ (freeImage.cls .emergency).target = some 1 ∧
       ({ cls := .emergency, remaining := 1, phase := .dwell, fromLine := true } : Stacked).remaining = 1) := by
  refine ⟨?_, every_link (by decide +kernel), by decide +kernel,
    every_link (by decide +kernel), rfl, exits_rail, by decide +kernel, ⟨?_, by decide +kernel, by decide +kernel⟩,
    by decide +kernel, by decide +kernel, by decide +kernel, by decide +kernel, ?_, by decide +kernel, by decide +kernel⟩
  · intro c
    cases c
    · exact ⟨2, by decide +kernel⟩
    · exact ⟨1, by decide +kernel⟩
    · exact ⟨2, by decide +kernel⟩
  · unfold ExitsBy; decide +kernel
  · intro d hd
    cases d
    · decide +kernel
    · exact absurd hd (by decide)
    · exact absurd hd (by decide)

/-- Each class in ENTRY with its max dwell run and its target COMPLETE: TRANSIT keeps its command, RAIL replaces it, and EMERGENCY
finds its alert's target not HEARD, or HEARD. -/
theorem witness_ServicesDwellAndEnd_noDwell :
    (∀ c : PreClass, ∃ st, (freeImage.cls c).target = some st ∧
      stageComplete (serving (serviceOf c .entry 0) (complete st)) st = true ∧ (serviceOf c .entry 0).remaining = 0 ∧
      (serviceOf c .entry 0).fromLine = false ∧ (serviceOf c .entry 0).alertSent = false) ∧
    (withEntries [entry5 .heard, { entryAt 7 true .heard 0 with
        link := ((complete 1).nt.places[(1 : Place)]).bind fun e => e.link }] (complete 1)).nt.places[(1 : Place)].any
      (fun e => e.state == .heard && e.link.any fun l => l.alert) = true := by
  refine ⟨fun c => ?_, by decide +kernel⟩
  cases c
  · exact ⟨2, by decide +kernel⟩
  · exact ⟨1, by decide +kernel⟩
  · exact ⟨2, by decide +kernel⟩

/-- An image in which TRANSIT has no re-service inhibit. -/
def noInhibitImage : Image := { freeImage with
  classes := put freeImage.classes (2 : Fin 3) { freeImage.classes[(2 : Fin 3)] with inhibit := 0 } }

/-- EMERGENCY in ENTRY with its max dwell run and RAIL requested; TRANSIT at its min dwell without an inhibit, its input off and on;
and RAIL at its exit stage over a record of EMERGENCY. -/
theorem witness_ServicesDwellAndEnd_after :
    (let s := asking .rail .requestedLocal (serving (serviceOf .emergency .entry 0) (complete 1))
     s.pe.service = some (serviceOf .emergency .entry 0) ∧ (serviceOf .emergency .entry 0).remaining = 0 ∧
       (freeImage.cls .emergency).target = some 1 ∧ stageComplete s 1 = true ∧ (∀ x, ¬ExitsBy freeImage .emergency x) ∧
       s.pe.stack = [] ∧ s.pe.requested .rail = true ∧ (freeImage.cls .rail).target = some 2 ∧
       (∀ d, higherClass d .rail = true → d ≠ .emergency → s.pe.requested d = false)) ∧
    (∀ f : Bool,
     let r := running noInhibitImage
     let s := serving { serviceOf .transit .dwell 300 with elapsed := 49 }
       (r.withPe (r.pe.setCls .transit { r.pe.cls .transit with filtered := f }))
     s.cf.image = some noInhibitImage ∧ (noInhibitImage.cls .transit).inhibit = 0 ∧ (s.pe.cls .transit).filtered = f ∧
       (∀ x, ¬ExitsBy noInhibitImage .transit x) ∧ s.pe.stack = [] ∧ s.pe.requested .transit = false ∧
       (noInhibitImage.cls .transit).target = some 2) ∧
    (let r : Stacked := { cls := .emergency, remaining := 5, phase := .dwell, fromLine := false }
     let s0 := asking .emergency .requestedLocal (serving (serviceOf .rail .exit 300) freeRun)
     let s := s0.withPe { s0.pe with stack := [r] }
     exitSeen freeImage s = true ∧ s.pe.stack = [r] ∧ s.pe.requested .emergency = true ∧ 0 < r.remaining ∧
       NoneAbove s .emergency ∧ (freeImage.cls .emergency).target = some 1 ∧ stageComplete s 1 = false) := by
  refine ⟨⟨rfl, rfl, by decide +kernel, by decide +kernel, by unfold ExitsBy; decide +kernel, by decide +kernel, by decide +kernel,
    by decide +kernel, ?_⟩, ?_, by decide +kernel, by decide +kernel, by decide +kernel, by decide +kernel, ?_, by decide +kernel,
    by decide +kernel⟩
  · intro d hd
    cases d <;> exact absurd hd (by decide)
  · intro f
    refine ⟨rfl, by decide +kernel, by cases f <;> decide +kernel, by unfold ExitsBy; decide +kernel, by cases f <;> decide +kernel,
      by cases f <;> decide +kernel, by decide +kernel⟩
  · intro d hd
    cases d
    · decide +kernel
    · exact absurd hd (by decide)
    · exact absurd hd (by decide)

/-- What a stack leaves of its records: one whose class is not requested, one whose max dwell has run, and one that is kept. -/
def unrequested : Stacked := { cls := .emergency, remaining := 50, phase := .entry, fromLine := false }
def expired : Stacked := { cls := .emergency, remaining := 0, phase := .entry, fromLine := false }
def lasting : Stacked := { cls := .transit, remaining := 50, phase := .dwell, fromLine := false }

/-- RAIL in this phase over a stack of two. -/
def stacked (phase : ServicePhase) (r : Stacked) (s : State) : State :=
  let s' := asking .transit .requestedLocal (serving (serviceOf .rail phase 1) s)
  s'.withPe { s'.pe with stack := [r, lasting] }

/-- An image in which every exit is "continue" and no min dwell is served. -/
def plainExits : Image := { freeImage with
  classes := tab 3 fun i => { freeImage.classes[i] with exit := none, minDwell := 0 } }

/-- The ends of a service over a stack, and what each stack keeps; and TRANSIT at its exit stage with RAIL requested. -/
theorem witness_ServicesDwellAndEnd_stack :
    (StackLaw (stacked .exit unrequested freeRun) ∧ exitSeen freeImage (stacked .exit unrequested freeRun) = true ∧
      (stacked .exit unrequested freeRun).pe.requested unrequested.cls = false ∧
      (stacked .exit unrequested freeRun).pe.requested lasting.cls = true ∧ 0 < lasting.remaining) ∧
    (let s := asking .emergency .requestedLocal (stacked .exit expired freeRun)
     StackLaw s ∧ s.pe.requested expired.cls = true ∧ expired.remaining = 0 ∧ s.pe.requested lasting.cls = true) ∧
    ((∀ c x, ¬ExitsBy plainExits c x) ∧ ∀ ph : ServicePhase, StackLaw (stacked ph expired (running plainExits)) ∧
      (stacked ph expired (running plainExits)).cf.image = some plainExits ∧
      (stacked ph expired (running plainExits)).pe.service = some (serviceOf .rail ph 1)) ∧
    (let s := stacked .entry expired (withStage (running plainExits) fun q => { q with current := some 2 })
     (plainExits.cls .rail).target = some 2 ∧ stageComplete s 2 = true ∧ s.pe.requested .rail = false ∧
       (plainExits.cls .rail).minDwell = 0 ∧ 0 < (freeImage.cls .rail).minDwell) ∧
    (let s := asking .rail .requestedLocal (serving (serviceOf .transit .exit 300) freeRun)
     StackLaw s ∧ s.pe.requested .rail = true) := by
  refine ⟨⟨stack_of (v := serviceOf .rail .exit 1) (by decide +kernel) (by decide +kernel) (by decide +kernel), by decide +kernel⟩, ⟨stack_of (v := serviceOf .rail .exit 1)
    (by decide +kernel) (by decide +kernel) (by decide +kernel), by decide +kernel⟩,
    ⟨?_, ?_⟩, by decide +kernel,
    stack_of (v := serviceOf .transit .exit 300) (by decide +kernel) (by decide +kernel) (by decide +kernel), by decide +kernel⟩
  · intro c x h
    have : (plainExits.cls c).exit = none := by cases c <;> decide +kernel
    rw [h.1] at this
    cases this
  · intro ph
    cases ph <;> exact
      ⟨stack_of (v := serviceOf .rail _ 1) rfl (by decide +kernel) (by decide +kernel), by decide +kernel⟩

/-- R157: RAIL ends, the expired record of EMERGENCY is locked out, and TRANSIT is resumed. -/
theorem test_stack_discards :
    let t := after .serviceEnd (asking .emergency .requestedLocal (stacked .exit expired freeRun))
    (t.pe.cls .emergency).request = .lockedOut ∧ t.pe.stack = [] ∧
      t.pe.service.map (fun v => (v.cls, v.phase, v.remaining)) = some (.transit, .entry, 50) := by decide +kernel

/-- R152: a service that follows a "continue" exit whose target is current and COMPLETE enters DWELL at the same evaluation. -/
theorem test_dwell_after_continue :
    (let s := asking .transit .requestedLocal (serving (serviceOf .emergency .entry 0) (complete 1))
     (after .dwellEntry s).pe.service.map (fun v => (v.cls, v.phase)) = some (.transit, .entry)) ∧
    (let i := { freeImage with classes := put freeImage.classes (2 : Fin 3) { freeImage.classes[(2 : Fin 3)] with target := some 1 } }
     let s := asking .transit .requestedLocal (serving (serviceOf .emergency .entry 0) (complete 1))
     (after .dwellEntry (s.withCf { s.cf with image := some i })).pe.service.map (fun v => (v.cls, v.phase)) =
       some (.transit, .dwell)) := by decide +kernel

/-- The law of the stack at work, and a step from there. -/
theorem witness_ServiceStackLawHolds :
    (RequestLaw (asking .emergency .requestedLine freeRun) ∧
      ∃ t, step ((asking .emergency .requestedLine freeRun).withPending [.lineDwellExpiry]) = .next t) ∧
    let r : Stacked := { cls := .emergency, remaining := 5, phase := .dwell, fromLine := false }
    let pe := { freeRun.pe with service := some (serviceOf .rail .entry 300), stack := [r, { r with cls := .transit }] }
    StackLaw (freeRun.withPe pe) ∧ ∃ t, step ((freeRun.withPe pe).withPending [.serviceEnd]) = .next t :=
  ⟨⟨requests_of (by decide +kernel) (by decide +kernel) (by decide +kernel), ⟨_, rfl⟩⟩,
    ⟨by decide +kernel, (by decide : [PreClass.rail, .emergency, .transit].Pairwise fun a b => higherClass a b = true)⟩, ⟨_, rfl⟩⟩

/-! ## Witnesses: modes, the monitor and the maintenance port -/

theorem witness_ModeEventsEnterTheirModes :
    (let s := (loaded freeImage).withOs { (loaded freeImage).os with timer := 1 }
     s.cf.image = some freeImage ∧ s.os.timer ≤ 1 ∧ s.os.mode = .startFlash) ∧
    (let s := inMode .startRed (alone 0 (redGroup 255 false))
     s.os.timer ≤ 1 ∧ freeImage.startStage = some 0) ∧
    (let s := freeRun.withOs { freeRun.os with conflict := tab 16 fun _ => Vector.replicate 16 19,
                                               mismatch := tab 16 fun _ => Vector.replicate 3 49 }
     s.cf.image = some freeImage ∧ s.os.mode = .run ∧ freeImage.conflicts 0 1 = true ∧
       19 ≤ s.os.conflict[(0 : Group)][(1 : Group)] ∧ 49 ≤ s.os.mismatch[(15 : Group)][lampIndex .green] ∧
       lampCommand s 15 .green = .off ∧ lampCommand (withGroup 4 (lastTenth .clearance 9 false none) s) 4 .red = .flashing .a) :=
  by decide +kernel

/-- R173: a pedestrian red in CLEARANCE is commanded flashing, and has no MISMATCH whatever its count. -/
theorem test_flashing_has_no_mismatch :
    let s := withGroup 4 (lastTenth .clearance 9 false none) (freeRun.withOs { freeRun.os with
      mismatch := tab 16 fun _ => Vector.replicate 3 49 })
    after (.mismatch 4 .red) s = s ∧ (after (.mismatch 15 .green) s).os.mode = .faultFlash := by decide +kernel

/-- The counts one evaluation short of their limits, with every lamp sensed, and with none. -/
def almostFault (sense : BitVec 48) : State :=
  (freeRun.withPins { freeRun.pins with sense }).withOs
    { freeRun.os with conflict := tab 16 fun _ => Vector.replicate 16 19, mismatch := tab 16 fun _ => Vector.replicate 3 49 }

theorem witness_MonitorCountsAndLatches :
    (inMode .manualFlash freeRun).cf.image = some freeImage ∧ (inMode .manualFlash freeRun).os.mode ≠ .run ∧
      freeRun.os.mode = .run ∧
    (let s := almostFault (BitVec.allOnes 48)
     sensed s 0 .green = true ∧ sensed s 1 .green = true ∧ freeImage.conflicts 0 1 = true ∧
       s.os.conflict[(0 : Group)][(1 : Group)] = 19) ∧
    (let s := almostFault 0
     lampCommand s 0 .green = .steady ∧ sensed s 0 .green = false ∧ s.os.mismatch[(0 : Group)][lampIndex .green] = 49 ∧
       ∀ g : Group, ∀ l, l = Lamp.red ∨ l = .amber ∨ l = .green → sensed s g l = false) := by
  refine ⟨by decide +kernel, by decide +kernel, by decide +kernel, by decide +kernel, by decide +kernel, by decide +kernel,
    by decide +kernel, ?_⟩
  rintro g l (rfl | rfl | rfl) <;> revert g <;> decide +kernel

/-- The law of the latch in FAULT FLASH, and a step from there. -/
theorem witness_FaultLatchLawHolds :
    (let s := after (.conflict 0 1) (almostFault 0)
     s.os.mode = .faultFlash ∧ FaultLaw s ∧ ∃ t, step (s.withPending [.manualFlashOn]) = .next t) :=
  ⟨by decide +kernel, by unfold FaultLaw; decide +kernel, ⟨_, rfl⟩⟩

/-- R174: every further condition of the evaluation is counted. Groups 1 and 2, 1 and 3, 1 and 5, 2 and 3 and 2 and 5 conflict, and
with every lamp sensed the lamps commanded off disagree. -/
theorem test_further_conditions :
    let s := almostFault (BitVec.allOnes 48)
    let t := monitorWork s
    t.os.fault = some { cause := .conflict 0 1, mode := .run } ∧
      t.os.additional = 4 + ((List.finRange 16).map fun ch => (lamps.countP fun l => lampDisagrees s ch l)).sum := by decide +kernel

theorem witness_ModeCommandsEnterTheirModes_tick :
    (let s := (inMode .manualFlash freeRun).withMp { MpState.reset with phase := .pending, code := 0x40 }
     s.cf.image = some freeImage ∧ s.os.mode = .manualFlash ∧ s.mp.phase = .pending ∧ s.mp.code = 0x40) := by decide +kernel

theorem witness_ModeCommandsEnterTheirModes :
    freeRun.cf.image = some freeImage ∧ freeRun.os.mode = .run ∧ freeRun.pe.service = none ∧
      (∀ m : Mode, (inMode m freeRun).os.mode = m) ∧ (inMode .noPlanFlash State.reset).os.mode = .noPlanFlash ∧
      (inMode .noPlanFlash State.reset).cf.image = none :=
  ⟨rfl, by decide +kernel, by decide +kernel, fun _ => rfl, rfl, rfl⟩

/-- The port in one phase of a transaction. -/
def port (phase : MpPhase) (code : Byte) (shift : List Byte) : State :=
  (freeRun.withPins { freeRun.pins with selectLow := true }).withMp { MpState.reset with phase, code, shift }

theorem witness_TransactionMovesByteByByte :
    freeRun.pins.selectLow = false ∧ (∀ ph, (port ph 0x10 [0x81, 7]).pins.selectLow = true ∧ (port ph 0x10 [0x81, 7]).mp.phase = ph) ∧
      (port .answer 0x01 [0x81, 7]).mp.shift = [0x81, 7] ∧ (port .answer 0x01 []).mp.shift = [] :=
  ⟨by decide +kernel, fun _ => ⟨rfl, rfl⟩, by decide +kernel, by decide +kernel⟩

theorem witness_CommandsAnswerByTheTable :
    State.reset.os.mode = .loading ∧ (0x99 : Byte).toNat ∉ knownCodes ∧ (∀ m : Mode, (inMode m freeRun).os.mode = m) ∧
      ((0x05 : Byte).toNat = (4 : Group).val + 1 ∧ groupEnabled freeRun 4 = true) ∧
      (¬(∃ g : Group, (0x04 : Byte).toNat = g.val + 1 ∧ groupEnabled freeRun g = true)) ∧
      (serving (serviceOf .rail .entry 300) freeRun).pe.service = some (serviceOf .rail .entry 300) ∧
      freeRun.pe.service = none ∧
      (∀ a : Byte, (freeRun.withMp { MpState.reset with phase := .pending, code := 0x50, args := [a] }).mp.args = [a]) ∧
      ¬(1 ≤ (4 : Byte).toNat ∧ (4 : Byte).toNat ≤ 3) ∧ (1 ≤ (3 : Byte).toNat ∧ (3 : Byte).toNat ≤ 3) :=
  ⟨by decide +kernel, by decide, fun _ => rfl, by decide +kernel, by decide +kernel, rfl, by decide +kernel, fun _ => rfl,
    by decide, by decide⟩

theorem witness_ReadCommandsShowTheState : freeRun.os.mode ≠ .loading ∧ (inMode .noPlanFlash State.reset).os.mode ≠ .loading ∧
    crowded.nt.places[(0 : Place)] = some (entryAt 5 true .heard 10) ∧ sparse.nt.places[(7 : Place)] = none := by decide +kernel

theorem witness_CommandsActOnTheirBlocks :
    freeRun.os.mode ≠ .loading ∧ ((0x01 : Byte).toNat = (0 : Group).val + 1 ∧ groupEnabled freeRun 0 = true) ∧
      ((0x04 : Byte).toNat = (3 : Plan).val + 1 ∧ freeRun.cf.image = some freeImage ∧ freeRun.os.mode ≠ .noPlanFlash) ∧
      ((inMode .noPlanFlash State.reset).os.mode ≠ .loading ∧ (inMode .noPlanFlash State.reset).cf.image = none) ∧
      coordinatedActive coordRun = true ∧ coordinatedActive freeRun = false ∧
      ((inMode .noPlanFlash State.reset).lu.access = .disabled ∧ freeRun.lu.access ≠ .disabled) ∧
      (deferring.lu.inHand = none ∧ { frame := .beacon, entered := 0 } ∈ deferring.lu.queue) ∧
      ((∀ q ∈ freeRun.lu.queue, q.frame ≠ .beacon) ∧ freeRun.lu.inHand = none) := by decide +kernel

end Sys2Proof.Machine.Tests
end

/-! Chapter 5, the arithmetic of the corridor discipline: the reference position and the wrapped error (R69, R89) and the
correction (R92, R93). -/

namespace Sys2Proof.Machine

/-! ## Positions on the cycle (R69, R89) -/

/-- The model takes a difference on the cycle in natural numbers, as `x + c - y % c`; it is the difference `x - y` modulo `c`. -/
theorem cast_add_sub_mod {c : Nat} (x y : Nat) (hc : 0 < c) :
    (((x + c - y % c) % c : Nat) : Int) = ((x : Int) - y) % c := by
  have hy : y % c ≤ x + c := by have := Nat.mod_lt y hc; omega
  calc (((x + c - y % c) % c : Nat) : Int) = ((x : Int) - (y : Int) % c + c) % c := by
        push_cast [Nat.cast_sub hy]; ring_nf
    _ = ((x : Int) - y) % c := by rw [Int.add_emod_right, Int.sub_emod_emod]

theorem reference_of_c_zero {s : State} (h : s.ck.c = 0) : reference s = 0 := if_pos h

theorem reference_eq_sub_emod {s : State} (h : s.ck.c ≠ 0) : (reference s : Int) = ((s.ck.p : Int) - s.ck.o) % s.ck.c := by
  rw [reference, if_neg h, cast_add_sub_mod _ _ (Nat.pos_of_ne_zero h)]

theorem reference_lt {s : State} (h : s.ck.c ≠ 0) : reference s < s.ck.c := by
  rw [reference, if_neg h]
  exact Nat.mod_lt _ (Nat.pos_of_ne_zero h)

theorem coordinatedActive_eq_true {s : State} :
    coordinatedActive s = true ↔ ∃ r, activePlan s = some r ∧ r.cycle ≠ 0 := by
  cases h : activePlan s <;> simp [coordinatedActive, h, PlanRecord.isCoordinated]

/-- The clock's cycle length is 0 only where no coordinated plan is active. -/
theorem ClockLaw.c_ne_zero {s : State} (law : ClockLaw s) (h : coordinatedActive s = true) : s.ck.c ≠ 0 := by
  obtain ⟨hcycle, -, -, -⟩ := law
  obtain ⟨r, hr, hr0⟩ := coordinatedActive_eq_true.mp h
  have hc := hcycle r hr
  omega

/-- A free plan or none: the cycle length is 0. A plan number without an image, which names no plan record, is left out. -/
theorem ClockLaw.c_eq_zero {s : State} (law : ClockLaw s) (h : coordinatedActive s = false)
    (hplan : (∃ img, s.cf.image = some img) ∨ s.ck.active = none) : s.ck.c = 0 := by
  obtain ⟨hcycle, hnone, -, -⟩ := law
  cases hactive : s.ck.active with
  | none => exact hnone hactive
  | some p =>
    obtain ⟨img, himg⟩ := hplan.resolve_right (by simp [hactive])
    have hr : activePlan s = some img.plans[p] := by simp [activePlan, himg, hactive]
    have hfree : img.plans[p].cycle = 0 := by
      by_contra hne
      simp [coordinatedActive_eq_true.mpr ⟨_, hr, hne⟩] at h
    rw [hcycle _ hr, hfree]

/-- R89 with the difference on the cycle written as a remainder of integers. -/
theorem wrappedError_eq {c : Nat} (e r : Nat) (hc : 0 < c) :
    wrappedError c e r =
      if 2 * (((e : Int) - r) % c) < c then ((e : Int) - r) % c else ((e : Int) - r) % c - c := by
  rw [← cast_add_sub_mod e r hc, wrappedError]
  norm_cast

/-- Settles O33: ClockLaw tells where C is 0 and where not, and every cycle length is even, so half of it is exact. -/
theorem referencePositionAndWrappedError : Obligations.ReferencePositionAndWrappedError := by
  refine ⟨fun s law => ⟨fun hcoord => ?_, fun hfree hplan => reference_of_c_zero (law.c_eq_zero hfree hplan)⟩, ?_⟩
  · have hc := law.c_ne_zero hcoord
    have href := reference_eq_sub_emod hc
    refine ⟨href, reference_lt hc, fun hpo => ?_⟩
    simpa [hpo] using href
  · intro c e r hc heven _ _ d
    have hd : 0 ≤ d ∧ d < c := ⟨Int.emod_nonneg _ (by omega), Int.emod_lt_of_pos _ (by omega)⟩
    have herror : wrappedError c e r = if 2 * d < c then d else d - c := wrappedError_eq e r hc
    split at herror <;> omega

/-! ## The correction (R92, R93) -/

@[simp] theorem gainMagnitude_zero_shift (a : Nat) : gainMagnitude a 0 = a := rfl

/-- The bit `k` of `a` and the bits below it are the remainder of `a` by `2 ^ (k + 1)`. -/
theorem mod_two_pow_succ_eq (a k : Nat) : a % 2 ^ (k + 1) = a % 2 ^ k + 2 ^ k * (a.testBit k).toNat := by
  rw [Nat.mod_pow_succ, Nat.toNat_testBit]

/-- R92's guard and sticky bits compare the part cut off with one half: the quotient goes up where that part is more than half,
and at one half where the quotient is odd. -/
theorem gainMagnitude_succ (a k : Nat) :
    gainMagnitude a (k + 1) =
      if 2 ^ k < a % 2 ^ (k + 1) ∨ a % 2 ^ (k + 1) = 2 ^ k ∧ a / 2 ^ (k + 1) % 2 = 1 then a / 2 ^ (k + 1) + 1
      else a / 2 ^ (k + 1) := by
  have hsticky : a % 2 ^ k < 2 ^ k := Nat.mod_lt _ (Nat.two_pow_pos k)
  rw [mod_two_pow_succ_eq]
  cases hguard : a.testBit k with
  | true => by_cases hzero : a % 2 ^ k = 0 <;> simp [gainMagnitude, hguard, hzero, Nat.pos_iff_ne_zero]
  | false => simp [gainMagnitude, hguard, hsticky.le, hsticky.ne]

/-- Both ways to round: down from a remainder of at most half, up from one of at least half, and at exactly half to even. -/
theorem gainMagnitude_succ_cases (a k : Nat) :
    (2 * (a % 2 ^ (k + 1)) = 2 ^ (k + 1) → gainMagnitude a (k + 1) % 2 = 0) ∧
      (gainMagnitude a (k + 1) = a / 2 ^ (k + 1) ∧ 2 * (a % 2 ^ (k + 1)) ≤ 2 ^ (k + 1) ∨
        gainMagnitude a (k + 1) = a / 2 ^ (k + 1) + 1 ∧ 2 ^ (k + 1) ≤ 2 * (a % 2 ^ (k + 1))) := by
  have hpow : 2 ^ (k + 1) = 2 * 2 ^ k := Nat.pow_succ'
  rw [gainMagnitude_succ]
  split <;> omega

/-- The rounded quotient misses the exact one, in units of `2 ^ (k + 1)`, by the remainder or by what the remainder lacks,
whichever is at most half. -/
theorem gainMagnitude_succ_error (a k : Nat) :
    let error := (2 ^ (k + 1) * (gainMagnitude a (k + 1) : Int) - a).natAbs
    2 * error ≤ 2 ^ (k + 1) ∧ (error = a % 2 ^ (k + 1) ∨ error + a % 2 ^ (k + 1) = 2 ^ (k + 1)) := by
  have hlt : a % 2 ^ (k + 1) < 2 ^ (k + 1) := Nat.mod_lt _ (Nat.two_pow_pos _)
  have hdiv : (2 ^ (k + 1) * (a / 2 ^ (k + 1) : Nat) : Int) + (a % 2 ^ (k + 1) : Nat) = a := by
    exact_mod_cast Nat.div_add_mod a (2 ^ (k + 1))
  have hcast : ((2 ^ (k + 1) : Nat) : Int) = 2 ^ (k + 1) := by push_cast; rfl
  obtain ⟨-, ⟨hm, hhalf⟩ | ⟨hm, hhalf⟩⟩ := gainMagnitude_succ_cases a k
  · rw [hm]
    omega
  · rw [hm, Nat.cast_succ, mul_add_one]
    omega

/-- R92: to the nearest whole number. -/
theorem gainMagnitude_nearest (a g : Nat) : 2 * (2 ^ g * (gainMagnitude a g : Int) - a).natAbs ≤ 2 ^ g := by
  cases g with
  | zero => simp
  | succ k => exact (gainMagnitude_succ_error a k).1

/-- R92: a tie goes to the even neighbour. -/
theorem gainMagnitude_even_of_tie {a g : Nat} (hg : 0 < g)
    (htie : 2 * (2 ^ g * (gainMagnitude a g : Int) - a).natAbs = 2 ^ g) : gainMagnitude a g % 2 = 0 := by
  obtain ⟨k, rfl⟩ := Nat.exists_eq_add_one.mpr hg
  obtain ⟨heven, -⟩ := gainMagnitude_succ_cases a k
  apply heven
  obtain ⟨-, herror | herror⟩ := gainMagnitude_succ_error a k <;> omega

/-- R92: rounding up needs a remainder, so the magnitude never grows. -/
theorem gainMagnitude_le (a g : Nat) : gainMagnitude a g ≤ a := by
  cases g with
  | zero => simp
  | succ k =>
    have hpow : 2 ≤ 2 ^ (k + 1) := Nat.le_self_pow (by omega) 2
    have hdiv := Nat.div_add_mod a (2 ^ (k + 1))
    have hmul : 2 * (a / 2 ^ (k + 1)) ≤ 2 ^ (k + 1) * (a / 2 ^ (k + 1)) := Nat.mul_le_mul_right _ hpow
    obtain ⟨-, ⟨hm, -⟩ | ⟨hm, hhalf⟩⟩ := gainMagnitude_succ_cases a k <;> omega

@[simp] theorem gainMagnitude_zero (g : Nat) : gainMagnitude 0 g = 0 := Nat.le_zero.mp (gainMagnitude_le 0 g)

/-- R92: the sign of the average on the rounded magnitude; where the average is 0 the magnitude is too. -/
theorem gain_eq_sign_mul (a : Int) (g : Nat) : gain a g = a.sign * gainMagnitude a.natAbs g := by
  rcases lt_trichotomy a 0 with h | rfl | h
  · simp [gain, h, Int.sign_eq_neg_one_of_neg h]
  · simp [gain]
  · simp [gain, h.not_gt, Int.sign_eq_one_of_pos h]

theorem gain_neg (a : Int) (g : Nat) : gain (-a) g = -gain a g := by
  simp [gain_eq_sign_mul]

theorem gain_natAbs (a : Int) (g : Nat) : (gain a g).natAbs = gainMagnitude a.natAbs g := by
  rw [gain]
  split <;> simp

/-- The correction misses the exact quotient by as much as its magnitude does. -/
theorem gain_error (a : Int) (g : Nat) :
    (2 ^ g * gain a g - a).natAbs = (2 ^ g * (gainMagnitude a.natAbs g : Int) - a.natAbs).natAbs := by
  rcases lt_or_ge a 0 with h | h
  · have habs : (a.natAbs : Int) = -a := by omega
    rw [gain, if_pos h, mul_neg, habs, ← Int.natAbs_neg]
    ring_nf
  · have habs : (a.natAbs : Int) = a := by omega
    rw [gain, if_neg h.not_gt, habs]

theorem applyDeadband_of_le {d : Int} {deadband : Nat} (h : d.natAbs ≤ deadband) : applyDeadband d deadband = 0 := if_pos h

theorem applyDeadband_of_lt {d : Int} {deadband : Nat} (h : deadband < d.natAbs) : applyDeadband d deadband = d :=
  if_neg h.not_ge

/-- Settles O36: the figures of a correction are those of its magnitude, whose remainder the guard and sticky bits compare with
one half. -/
theorem gainRoundsToEvenAndDeadbandZeroes : Obligations.GainRoundsToEvenAndDeadbandZeroes := by
  refine ⟨fun a g _ => ⟨?_, ?_, fun hg htie => ?_, gain_neg a g, fun ha => ?_, ?_⟩,
    fun d deadband => ⟨applyDeadband_of_le, applyDeadband_of_lt⟩⟩
  · rintro rfl
    rw [gain_eq_sign_mul, gainMagnitude_zero_shift, Int.sign_mul_natAbs]
  · rw [gain_error]
    exact gainMagnitude_nearest _ g
  · rw [gain_error] at htie
    have heven := gainMagnitude_even_of_tie hg htie
    rw [← gain_natAbs] at heven
    omega
  · rw [gain_eq_sign_mul]
    exact mul_nonneg (Int.sign_nonneg_iff.mpr ha) (Int.natCast_nonneg _)
  · rw [gain_natAbs]
    exact gainMagnitude_le _ g

end Sys2Proof.Machine

/-! Chapter 10: the entries of MANUAL FLASH and FAULT FLASH (Table 10.3), and one evaluation of the conflict monitor (R171 to
R174). -/

namespace Sys2Proof.Machine

/-! ## The entries of MANUAL FLASH and FAULT FLASH (Table 10.3) -/

@[simp] theorem offer_os (f : TxFrame) (s : State) : (offer f s).os = s.os := (offer_only f s).os (by simp)
@[simp] theorem offer_ge (f : TxFrame) (s : State) : (offer f s).ge = s.ge := (offer_only f s).ge (by simp)
@[simp] theorem offer_sq (f : TxFrame) (s : State) : (offer f s).sq = s.sq := (offer_only f s).sq (by simp)
@[simp] theorem offer_pl (f : TxFrame) (s : State) : (offer f s).pl = s.pl := (offer_only f s).pl (by simp)
@[simp] theorem offer_pe (f : TxFrame) (s : State) : (offer f s).pe = s.pe := (offer_only f s).pe (by simp)

/-- A state that differs in the Line Unit alone is the other one with its own Line Unit. -/
theorem Only.withLu_eq {s t : State} (h : Only [.lu] s t) : t.withLu s.lu = s := by
  cases s
  cases t
  rw [State.withLu, State.mk.injEq]
  exact ⟨h.free (by simp), h.pins (by simp), h.tb (by simp), h.os (by simp), h.cf (by simp), h.ge (by simp), h.sq (by simp),
    h.du (by simp), h.ck (by simp), rfl, h.nt (by simp), h.pl (by simp), h.pe (by simp), h.mp (by simp), h.pending (by simp)⟩

/-- An offer made after work that leaves LU alone is the one offer LU has taken. -/
theorem offered_offer {s u : State} (f : TxFrame) (h : u.lu = s.lu) : Offered f s (offer f u) := by
  rw [Offered, ← h, (offer_only f u).withLu_eq]

theorem leaveRun_of_run {s : State} (h : s.os.mode = .run) : leaveRun s = clearEntries (cancelService s) := if_pos h

theorem leaveRun_of_ne {s : State} (h : s.os.mode ≠ .run) : leaveRun s = s := if_neg h

@[simp] theorem leaveRun_os (s : State) : (leaveRun s).os = s.os := (leaveRun_only s).os (by simp)
@[simp] theorem leaveRun_cf (s : State) : (leaveRun s).cf = s.cf := (leaveRun_only s).cf (by simp)
@[simp] theorem leaveRun_pl (s : State) : (leaveRun s).pl = s.pl := (leaveRun_only s).pl (by simp)
@[simp] theorem leaveRun_lu (s : State) : (leaveRun s).lu = s.lu := (leaveRun_only s).lu (by simp)

/-- R15: leaving RUN clears every entry request. -/
theorem leaveRun_ge (s : State) (g : Group) :
    (leaveRun s).ge[g] = { s.ge[g] with entry := s.ge[g].entry && decide (s.os.mode ≠ .run) } := by
  by_cases h : s.os.mode = .run
  · rw [leaveRun_of_run h]
    have hge : (clearEntries (cancelService s)).ge[g] = withdrawEntry s.ge[g] := mapGroups_ge _ _ g
    simp [hge, withdrawEntry, h]
  · simp [leaveRun_of_ne h, h]

/-- Leaving RUN drops no more of SQ than PE's messages still waiting. -/
theorem leaveRun_sq (s : State) :
    (leaveRun s).sq.lastCause = s.sq.lastCause ∧ (leaveRun s).sq.calls = s.sq.calls := by
  by_cases h : s.os.mode = .run
  · rw [leaveRun_of_run h]
    exact ⟨rfl, rfl⟩
  · rw [leaveRun_of_ne h]
    exact ⟨rfl, rfl⟩

theorem cancelClass_eq (x : ClassState) :
    cancelClass x = { request := if x.request = .lockedOut ∨ x.request = .inhibited then x.request else .none,
                      filtered := false, count := 0 } := by
  cases h : x.request <;> simp [cancelClass, h]

/-- R160. -/
theorem cancelService_cancelled (s : State) : ServiceCancelled s (cancelService s) := by
  refine ⟨rfl, rfl, rfl, rfl, rfl, rfl, rfl, rfl, rfl, fun c => ?_⟩
  rw [← cancelClass_eq]
  exact tab_get (fun i => cancelClass s.pe.classes[i]) (classIndex c)

@[simp] theorem setSources_source (src : LampSource) (s : State) (g : Group) :
    (setSources src s).os.source[g] = if groupEnabled s g then src else .dark :=
  tab_get (fun g : Group => if groupEnabled s g then src else .dark) g

theorem clearCounts_countsZero (o : OsState) : CountsZero (clearCounts o) := by
  simp [CountsZero, clearCounts, -Fin.getElem_fin]

/-- R16. -/
theorem forceFlashing_ge (s : State) (g : Group) :
    (forceFlashing s).ge[g] = if groupEnabled s g then
      { phase := .flashing, timer := 0, minGreenDone := false, e := s.ge[g].e, entry := false, leave := none }
      else s.ge[g] := mapGroups_ge _ s g

theorem groupEnabled_eq {s : State} {img : Image} (hi : s.cf.image = some img) (g : Group) :
    groupEnabled s g = img.groups[g].enabled := by
  simp [groupEnabled, hi]

/-- R46, R135: at its stop the Stage Sequencer shows no stage, so every link's green ends. -/
theorem stopSequencer_greensEnded {s t : State} (h : t.pl = s.pl) : GreensEnded s (stopSequencer t) := by
  intro p
  have hnone : ¬OutboundGreen (stopSequencer t) p := by
    rintro ⟨_, _, _, -, -, -, hcurrent, -⟩
    simp [SqState.reset] at hcurrent
  obtain ⟨-, hread⟩ : GreensReread s (stopSequencer t) := readGreens_reread h
  simpa only [hnone] using hread p

/-- A flash entry up to the sources of its channels. -/
def flashSourced (mode : Mode) (s : State) : State :=
  setSources .flash ((leaveRun s).withOs { clearCounts (leaveRun s).os with mode := mode, timer := 0 })

/-- A flash entry up to its FLASH-ALERT. -/
def flashEntered (mode : Mode) (s : State) : State := emptyQueue (stopSequencer (forceFlashing (flashSourced mode s)))

theorem flashSourced_only (mode : Mode) (s : State) : Only [.os] (leaveRun s) (flashSourced mode s) :=
  (withOs_only _ _).trans (setSources_only _ _)

@[simp] theorem flashSourced_cf (mode : Mode) (s : State) : (flashSourced mode s).cf = s.cf := by
  rw [(flashSourced_only mode s).cf (by simp), leaveRun_cf]

theorem flashEntered_only (mode : Mode) (s : State) :
    Only [.sq, .pl] (forceFlashing (flashSourced mode s)) (flashEntered mode s) :=
  (stopSequencer_only _).trans ((emptyQueue_only _).mono (by simp))

theorem enterFlash_eq_offer (mode : Mode) (cause : AlertCause) (s : State) :
    enterFlash mode cause s = offer (.flashAlert cause) (flashEntered mode s) := rfl

@[simp] theorem enterFlash_timer (mode : Mode) (cause : AlertCause) (s : State) : (enterFlash mode cause s).os.timer = 0 := by
  rw [enterFlash_eq_offer, offer_os]
  rfl

@[simp] theorem enterFlash_fault (mode : Mode) (cause : AlertCause) (s : State) :
    (enterFlash mode cause s).os.fault = s.os.fault := by
  rw [enterFlash_eq_offer, offer_os, ← leaveRun_os s]
  rfl

@[simp] theorem enterFlash_additional (mode : Mode) (cause : AlertCause) (s : State) :
    (enterFlash mode cause s).os.additional = s.os.additional := by
  rw [enterFlash_eq_offer, offer_os, ← leaveRun_os s]
  rfl

theorem flashEntered_source {s : State} {img : Image} (hi : s.cf.image = some img) (mode : Mode) (g : Group) :
    (flashEntered mode s).os.source[g] = if img.groups[g].enabled then .flash else .dark := by
  have hcf : (leaveRun s).cf.image = some img := by rw [leaveRun_cf, hi]
  rw [← groupEnabled_eq hcf]
  exact setSources_source _ _ g

/-- R16, with what leaving RUN has done to the groups (R15). -/
theorem flashEntered_ge {s : State} {img : Image} (hi : s.cf.image = some img) (mode : Mode) (g : Group) :
    (flashEntered mode s).ge[g] = if img.groups[g].enabled then
      { phase := .flashing, timer := 0, minGreenDone := false, e := (leaveRun s).ge[g].e, entry := false, leave := none }
      else (leaveRun s).ge[g] := by
  have hcf : (flashSourced mode s).cf.image = some img := by rw [flashSourced_cf, hi]
  rw [(flashEntered_only mode s).ge (by simp), forceFlashing_ge, groupEnabled_eq hcf, (flashSourced_only mode s).ge (by simp)]

theorem flashEntered_pe (mode : Mode) (s : State) : (flashEntered mode s).pe = (leaveRun s).pe := rfl

/-- Table 10.3: all that the entry of MANUAL FLASH or FAULT FLASH does. -/
theorem enterFlash_entered {s : State} {img : Image} (hi : s.cf.image = some img) (mode : Mode) (cause : AlertCause) :
    EnteredFlash img mode cause s (enterFlash mode cause s) := by
  refine ⟨enterFlash_os .., enterFlash_timer .., ?sources, ?counts, ?forced, ?stopped, ?greens, ?queue, ?run, ?away, ?offered⟩
  case sources =>
    intro g
    rw [enterFlash_eq_offer, offer_os, flashEntered_source hi]
  case counts =>
    rw [enterFlash_eq_offer, offer_os]
    exact clearCounts_countsZero s.os
  case forced =>
    intro g
    rw [enterFlash_eq_offer, offer_ge, flashEntered_ge hi, leaveRun_ge]
  case stopped =>
    rw [StoppedFrom, enterFlash_eq_offer, offer_sq]
    exact ⟨⟨rfl, rfl, rfl, rfl, rfl, rfl, rfl, rfl, rfl, rfl, rfl, rfl, rfl, rfl⟩, leaveRun_sq s⟩
  case greens =>
    intro p
    rw [enterFlash_eq_offer, offer_pl]
    exact stopSequencer_greensEnded (leaveRun_pl s) p
  case queue =>
    rw [enterFlash_eq_offer, offer_pl]
    exact ⟨rfl, rfl⟩
  case run =>
    intro h
    rw [ServiceCancelled, enterFlash_eq_offer, offer_pe, flashEntered_pe, leaveRun_of_run h]
    exact cancelService_cancelled s
  case away =>
    intro h
    rw [enterFlash_eq_offer, offer_pe, flashEntered_pe, leaveRun_of_ne h]
  case offered => exact offered_offer _ (leaveRun_lu s)

/-- Of the Output Supervisor before it, a flash entry looks at the mode alone. -/
theorem EnteredFlash.of_withOs {img : Image} {mode : Mode} {cause : AlertCause} {s t : State} {o : OsState}
    (hmode : o.mode = s.os.mode) (h : EnteredFlash img mode cause (s.withOs o) t) : EnteredFlash img mode cause s t := by
  cases o
  subst hmode
  exact h

/-! ## The monitor's readings and counts (R172, R173) -/

/-- The monitor is active in START RED, RUN and FLASH ENTRY (R171). -/
theorem monitored_iff (m : Mode) : m.monitored = true ↔ m = .startRed ∨ m = .run ∨ m = .flashEntry := by
  cases m <;> simp [Mode.monitored]

theorem showsRightOfWay_iff (img : Image) (s : State) (g : Group) :
    showsRightOfWay img s g = true ↔
      sensed s g .green = true ∨ (img.groups[g].kind = .vehicle ∧ sensed s g .amber = true) := by
  rw [showsRightOfWay]
  cases img.groups[g].kind <;> simp

theorem lampDisagrees_iff (s : State) (ch : Group) (l : Lamp) :
    lampDisagrees s ch l = true ↔ (lampCommand s ch l = .steady ∧ sensed s ch l = false) ∨
      (lampCommand s ch l = .off ∧ sensed s ch l = true) := by
  rw [lampDisagrees]
  cases lampCommand s ch l <;> simp

@[simp] theorem lampAt_lampIndex (l : Lamp) : lampAt (lampIndex l) = l := by
  cases l <;> rfl

@[simp] theorem lampIndex_lampAt (i : Fin 3) : lampIndex (lampAt i) = i := by
  fin_cases i <;> rfl

theorem lamps_eq_map_lampAt : lamps = (List.finRange 3).map lampAt := rfl

theorem conflictCounts_get (img : Image) (s : State) (a b : Group) :
    (conflictCounts img s)[a][b] =
      if a < b ∧ img.conflicts a b = true ∧ showsRightOfWay img s a = true ∧ showsRightOfWay img s b = true then
        satInc 20 s.os.conflict[a][b] else 0 := by
  rw [conflictCounts, tab_get, tab_get]

theorem mismatchCounts_get (s : State) (ch : Group) (l : Lamp) :
    (mismatchCounts s)[ch][lampIndex l] =
      if lampDisagrees s ch l then satInc 50 s.os.mismatch[ch][lampIndex l] else 0 := by
  rw [mismatchCounts, tab_get, tab_get, lampAt_lampIndex]

/-- A pair is counted with its lower group first, so no pair is counted twice. -/
theorem lt_of_conflictCounts_pos {img : Image} {s : State} {a b : Group} (h : 0 < (conflictCounts img s)[a][b]) : a < b := by
  rw [conflictCounts_get] at h
  split at h
  case isTrue hcounted => exact hcounted.1
  case isFalse => exact absurd h (lt_irrefl 0)

/-! ## The conditions of one evaluation (R174) -/

/-- The pairs whose count is at its limit, in order. -/
def conflictConditions (o : OsState) : List FaultCause :=
  (List.finRange 16).flatMap fun a => (List.finRange 16).filterMap fun b =>
    if a < b ∧ 20 ≤ o.conflict[a][b] then some (FaultCause.conflict a b) else none

/-- The lamps whose count is at its limit, in order. -/
def mismatchConditions (o : OsState) : List FaultCause :=
  (List.finRange 16).flatMap fun ch => (List.finRange 3).filterMap fun i =>
    if 50 ≤ o.mismatch[ch][i] then some (FaultCause.mismatch ch (lampAt i)) else none

theorem conditions_eq_append (o : OsState) : conditions o = conflictConditions o ++ mismatchConditions o := by
  simp only [conditions, conflictConditions, mismatchConditions, lamps_eq_map_lampAt, List.filterMap_map,
    Function.comp_def, lampIndex_lampAt]

/-- The first value that a function of the indices gives is the one at the least index with a value. -/
theorem findSome?_finRange_eq_some {α : Type} {n : Nat} {f : Fin n → Option α} {i : Fin n} {x : α} (hi : f i = some x)
    (hlt : ∀ j < i, f j = none) : (List.finRange n).findSome? f = some x := by
  rw [← Fin.findSome?_eq_findSome?_finRange]
  exact Fin.findSome?_eq_some_iff.mpr ⟨i, hi, hlt⟩

/-- The first entry of a table read row by row, where the entry at `i` and `j` is listed and every other listed one comes later. -/
theorem head?_rows_eq_some {α : Type} {n m : Nat} {p : Fin n → Fin m → Prop} [∀ k l, Decidable (p k l)]
    {x : Fin n → Fin m → α} {i : Fin n} {j : Fin m} (hij : p i j) (hfirst : ∀ k l, p k l → i < k ∨ (i = k ∧ j ≤ l)) :
    ((List.finRange n).flatMap fun k => (List.finRange m).filterMap fun l => if p k l then some (x k l) else none).head? =
      some (x i j) := by
  have hnone {k : Fin n} {l : Fin m} (h : k < i ∨ (k = i ∧ l < j)) : (if p k l then some (x k l) else none) = none := by
    refine if_neg fun hp => ?_
    have := hfirst k l hp
    omega
  simp only [List.head?_flatMap, List.head?_filterMap]
  refine findSome?_finRange_eq_some (findSome?_finRange_eq_some (if_pos hij) fun l hl => hnone (.inr ⟨rfl, hl⟩)) fun k hk => ?_
  exact List.findSome?_eq_none_iff.mpr fun l _ => hnone (.inl hk)

/-- The number of the listed entries of a table. -/
theorem length_rows {α : Type} {n m : Nat} (p : Fin n → Fin m → Prop) [∀ k l, Decidable (p k l)] (x : Fin n → Fin m → α) :
    ((List.finRange n).flatMap fun k => (List.finRange m).filterMap fun l => if p k l then some (x k l) else none).length =
      ((List.finRange n).map fun k => (List.finRange m).countP fun l => decide (p k l)).sum := by
  have hsome (k : Fin n) (l : Fin m) : (if p k l then some (x k l) else none).isSome = decide (p k l) := by
    split <;> simp [*]
  simp only [List.length_flatMap, List.length_filterMap_eq_countP, hsome]

theorem conflictConditions_eq_nil {o : OsState} (h : ∀ a b : Group, o.conflict[a][b] < 20) : conflictConditions o = [] := by
  simp [conflictConditions, h, -Fin.getElem_fin]

theorem mismatchConditions_eq_nil {o : OsState} (h : ∀ (ch : Group) (l : Lamp), o.mismatch[ch][lampIndex l] < 50) :
    mismatchConditions o = [] := by
  have hindex (ch : Group) (i : Fin 3) : o.mismatch[ch][i] < 50 := lampIndex_lampAt i ▸ h ch (lampAt i)
  simp [mismatchConditions, hindex, -Fin.getElem_fin]

theorem conflictConditions_head? {o : OsState} {a b : Group} (hlt : a < b) (h : 20 ≤ o.conflict[a][b])
    (hfirst : ∀ x y : Group, 20 ≤ o.conflict[x][y] → a < x ∨ (a = x ∧ b ≤ y)) :
    (conflictConditions o).head? = some (.conflict a b) := by
  exact head?_rows_eq_some ⟨hlt, h⟩ fun x y hxy => hfirst x y hxy.2

theorem mismatchConditions_head? {o : OsState} {ch : Group} {l : Lamp} (h : 50 ≤ o.mismatch[ch][lampIndex l])
    (hfirst : ∀ (x : Group) (k : Lamp), 50 ≤ o.mismatch[x][lampIndex k] →
      ch < x ∨ (ch = x ∧ lampIndex l ≤ lampIndex k)) :
    (mismatchConditions o).head? = some (.mismatch ch l) := by
  have hat (x : Group) (i : Fin 3) : 50 ≤ o.mismatch[x][i] → ch < x ∨ (ch = x ∧ lampIndex l ≤ i) :=
    lampIndex_lampAt i ▸ hfirst x (lampAt i)
  rw [mismatchConditions, head?_rows_eq_some h hat, lampAt_lampIndex]

theorem conflictConditions_length {o : OsState} (hlt : ∀ a b : Group, 20 ≤ o.conflict[a][b] → a < b) :
    (conflictConditions o).length =
      ((List.finRange 16).map fun a => (List.finRange 16).countP fun b => decide (20 ≤ o.conflict[a][b])).sum := by
  have hcond (a b : Group) : (a < b ∧ 20 ≤ o.conflict[a][b]) ↔ 20 ≤ o.conflict[a][b] := and_iff_right_of_imp (hlt a b)
  simp only [conflictConditions, length_rows, hcond]

theorem mismatchConditions_length (o : OsState) :
    (mismatchConditions o).length =
      ((List.finRange 16).map fun ch => (List.finRange 3).countP fun i => decide (50 ≤ o.mismatch[ch][i])).sum := by
  simp only [mismatchConditions, length_rows]

/-! ## One evaluation (R171, R174) -/

/-- The Output Supervisor with the counts of one evaluation. -/
def countedOs (img : Image) (s : State) : OsState :=
  { s.os with conflict := conflictCounts img s, mismatch := mismatchCounts s }

theorem monitorWork_of_unmonitored {s : State} (h : ¬s.os.mode.monitored = true) : monitorWork s = s := by
  unfold monitorWork
  split <;> simp [h]

/-- R174: with no condition the evaluation leaves its counts. -/
theorem monitorWork_of_nil {s : State} {img : Image} (hi : s.cf.image = some img) (hm : s.os.mode.monitored = true)
    (h : conditions (countedOs img s) = []) : monitorWork s = s.withOs (countedOs img s) := by
  have hos : conditions (s.withOs (countedOs img s)).os = [] := h
  simp only [countedOs] at hos
  simp only [monitorWork, hi, hm, if_true, hos, countedOs]

/-- R174: the first condition is latched, and the others are the further ones. -/
theorem monitorWork_of_head {s : State} {img : Image} {c : FaultCause} (hi : s.cf.image = some img)
    (hm : s.os.mode.monitored = true) (h : (conditions (countedOs img s)).head? = some c) :
    monitorWork s = latchFault c ((conditions (countedOs img s)).length - 1) (s.withOs (countedOs img s)) := by
  obtain ⟨rest, hrest⟩ := List.head?_eq_some_iff.mp h
  have hos : conditions (s.withOs (countedOs img s)).os = c :: rest := hrest
  rw [hrest]
  simp only [countedOs] at hos
  simp only [monitorWork, hi, hm, if_true, hos, countedOs, List.length_cons, Nat.add_sub_cancel]

/-- R174: what latching a fault does. -/
theorem latchFault_latched {s : State} {img : Image} (hi : s.cf.image = some img) (c : FaultCause) (further : Nat) :
    EnteredFlash img .faultFlash .fault s (latchFault c further s) ∧
      (latchFault c further s).os.fault = some { cause := c, mode := s.os.mode } ∧
      (latchFault c further s).os.additional = min (s.os.additional + further) 255 := by
  rw [latchFault, enterFaultFlash, enterFlash_fault, enterFlash_additional]
  refine ⟨EnteredFlash.of_withOs ?_ (enterFlash_entered ?_ _ _), rfl, rfl⟩
  · rfl
  · exact hi

/-- R174: an evaluation whose first condition is `c`. -/
theorem monitorWork_latched {s : State} {img : Image} {c : FaultCause} (hi : s.cf.image = some img)
    (hm : s.os.mode.monitored = true) (h : (conditions (countedOs img s)).head? = some c) :
    EnteredFlash img .faultFlash .fault s (monitorWork s) ∧
      (monitorWork s).os.fault = some { cause := c, mode := s.os.mode } ∧
      (monitorWork s).os.additional = min (s.os.additional + ((conditions (countedOs img s)).length - 1)) 255 := by
  rw [monitorWork_of_head hi hm h]
  obtain ⟨hentered, hfault, hadditional⟩ := latchFault_latched (s := s.withOs (countedOs img s)) hi c
    ((conditions (countedOs img s)).length - 1)
  exact ⟨hentered.of_withOs rfl, hfault, hadditional⟩

theorem conditions_countedOs_length (img : Image) (s : State) :
    (conditions (countedOs img s)).length =
      ((List.finRange 16).map fun a => (List.finRange 16).countP fun b => decide (20 ≤ (conflictCounts img s)[a][b])).sum +
        ((List.finRange 16).map fun ch => (List.finRange 3).countP fun i => decide (50 ≤ (mismatchCounts s)[ch][i])).sum := by
  rw [conditions_eq_append, List.length_append,
    conflictConditions_length fun a b h => lt_of_conflictCounts_pos (lt_of_lt_of_le (by decide) h), mismatchConditions_length]
  rfl

/-- Settles O54: the counts are the model's own two tables, and the first condition of their list is the least pair at its limit,
or with no such pair the least lamp. -/
theorem monitorCountsAndLatches : Obligations.MonitorCountsAndLatches := by
  refine fun s img hi => ⟨fun h => ?unmonitored, fun h => ?_⟩
  case unmonitored =>
    obtain ⟨hstart, hrun, hentry⟩ := h
    exact monitorWork_of_unmonitored (by simp [monitored_iff, hstart, hrun, hentry])
  have hm : s.os.mode.monitored = true := (monitored_iff _).mpr h
  refine ⟨conflictCounts img s, mismatchCounts s, ?pairs, ?lit, ?quiet, ?conflict, ?mismatch⟩
  case pairs =>
    intro a b
    simp only [← showsRightOfWay_iff]
    rw [conflictCounts_get]
    exact ⟨fun hcounted => if_pos hcounted, fun hcounted => if_neg hcounted⟩
  case lit =>
    intro ch l
    simp only [← lampDisagrees_iff]
    rw [mismatchCounts_get]
    exact ⟨fun hwrong => if_pos hwrong, fun hwrong => if_neg hwrong⟩
  case quiet =>
    intro hpairs hlit
    refine monitorWork_of_nil hi hm ?_
    rw [conditions_eq_append, conflictConditions_eq_nil hpairs, mismatchConditions_eq_nil hlit, List.append_nil]
  case conflict =>
    intro a b hab hfirst
    rw [← conditions_countedOs_length]
    have hlt : a < b := lt_of_conflictCounts_pos (lt_of_lt_of_le (by decide) hab)
    refine monitorWork_latched hi hm ?_
    rw [conditions_eq_append, List.head?_append, conflictConditions_head? hlt hab hfirst, Option.some_or]
  case mismatch =>
    intro ch l hl hpairs hfirst
    rw [← conditions_countedOs_length]
    refine monitorWork_latched hi hm ?_
    rw [conditions_eq_append, conflictConditions_eq_nil hpairs, List.nil_append]
    exact mismatchConditions_head? hl hfirst

end Sys2Proof.Machine

/-! The machine: what each command reaches (the table of `Instr.reaches`), and how a law of the state is carried from step to
step: the works of a tick, the delivered commands and the events that reach its blocks. -/

namespace Sys2Proof.Machine

/-! ## Frames of the commands -/

theorem Only.without {b : Block} {bs : List Block} {s t : State} (h : Only (b :: bs) s t) (hb : b.Same s t) : Only bs s t := by
  intro c hc
  by_cases hcb : c = b
  · exact hcb ▸ hb
  · exact h c (by simp [hcb, hc])

/-- The command completes and changes no block but those listed. -/
def Within (bs : List Block) (s : State) (o : Host.Outcome State Fault Refusal) : Prop := ∃ t, o = .next t ∧ Only bs s t

theorem within_next {bs : List Block} {s t : State} (h : Only bs s t) : Within bs s (.next t) := ⟨t, rfl, h⟩

theorem within_whenDue {bs : List Block} {c : Bool} {s t : State} (h : Only bs s t) : Within bs s (.next (whenDue c t s)) :=
  within_next (whenDue_only fun _ => h)

/-! ### Load, groups and tick -/

theorem execHeaderRead_within (header : Vector Byte 18) (s : State) : Within [.cf, .os] s (execHeaderRead header s) := by
  refine within_whenDue ?_
  split
  · exact ((withCf_only s _).trans (withCf_only _ _)).mono (by simp)
  · exact ((withCf_only s _).mono (by simp)).trans (failLoad_only _ _ _)

theorem execMemoryNoAcknowledge_within (delivered : List Byte) (s : State) :
    Within [.cf, .os] s (execMemoryNoAcknowledge delivered s) :=
  within_whenDue (((withCf_only s _).mono (by simp)).trans (failLoad_only _ _ _))

theorem execLoadEnd_within (body : List Byte) (s : State) :
    Within [.os, .cf, .ge, .sq, .du, .ck, .lu, .nt, .pl, .pe] s (execLoadEnd body s) :=
  within_whenDue (((withCf_only s _).mono (by simp)).trans (judgeImage_only _ _))

theorem beginTick_only (d : BitVec 24) (r : BitVec 3) (x : BitVec 48) (s : State) : Only [.pins, .tb] s (beginTick d r x s) :=
  (withPins_only s _).comp (withTb_only _ _) (by simp) (by simp)

theorem nextFree_only (s : State) : Only [.free] s (nextFree s) := withFree_only s _

theorem works_only (began : Mode) (order : List Work) (s : State) :
    Only [.free, .os, .cf, .ge, .sq, .du, .ck, .lu, .nt, .pl, .pe, .mp] s (order.foldl (doWork began) s) :=
  Only.foldl _ (doWork_only began) order s

theorem execTick_within (d : BitVec 24) (r : BitVec 3) (x : BitVec 48) (s : State) :
    Within [.free, .pins, .tb, .os, .cf, .ge, .sq, .du, .ck, .lu, .nt, .pl, .pe, .mp] s (execTick d r x s) :=
  within_next <| ((beginTick_only d r x s).mono (by simp)).trans <|
    ((works_only s.os.mode _ _).mono (by simp +contextual)).trans ((nextFree_only _).mono (by simp))

theorem execPrepEnd_within (g : Group) (s : State) : Within [.ge, .sq] s (execPrepEnd g s) := by
  refine within_next ?_
  split
  · exact Only.refl _ s
  · exact whenDue_only fun _ => installGroups_only _ s

theorem execMinGreenEnd_within (g : Group) (s : State) : Within [.ge, .sq] s (execMinGreenEnd g s) := by
  refine within_next ?_
  split
  · exact Only.refl _ s
  · exact whenDue_only fun _ => installGroups_only _ s

theorem execClearanceEnd_within (g : Group) (s : State) : Within [.ge, .sq] s (execClearanceEnd g s) := by
  refine within_next ?_
  split
  · exact Only.refl _ s
  · exact whenDue_only fun _ => installGroups_only _ s

/-! ### The Stage Sequencer -/

/-- An event of the Stage Sequencer, with PL's reading after it. -/
theorem readGreens_after {s t : State} (h : Only [.ge, .sq] s t) : Only [.ge, .sq, .pl] s (readGreens t) :=
  h.comp (readGreens_only t) (by simp) (by simp)

theorem latched_only (s t : State) (h : Only [.sq] s t) : Only [.ge, .sq] s (runSelection (testLatch t)) :=
  ((h.trans (testLatch_only t)).mono (by simp)).trans (runSelection_only _)

theorem execPassageTimerExpiry_within (s : State) : Within [.ge, .sq, .pl] s (execPassageTimerExpiry s) := by
  refine within_next ?_
  split
  · exact Only.refl _ s
  · exact whenDue_only fun _ => readGreens_after (latched_only _ _ (withSq_only s _))

theorem execMaxTimerExpiry_within (s : State) : Within [.ge, .sq, .pl] s (execMaxTimerExpiry s) := by
  refine within_next ?_
  split
  · exact Only.refl _ s
  · exact whenDue_only fun _ => readGreens_after (latched_only _ _ (withSq_only s _))

theorem execHoldExtensionExpiry_within (s : State) : Within [.ge, .sq, .pl] s (execHoldExtensionExpiry s) :=
  within_whenDue (readGreens_after (((withSq_only s _).mono (by simp)).trans (testYield_only true _)))

theorem execStageChangeComplete_within (s : State) : Within [.ge, .sq, .pl] s (execStageChangeComplete s) := by
  refine within_next ?_
  split
  · exact Only.refl _ s
  · exact whenDue_only fun _ => readGreens_after (completeChange_only _ s)

theorem execPeCommand_within (target : Stage) (truncating : Bool) (s : State) :
    Within [.ge, .sq, .pl] s (execPeCommand target truncating s) :=
  within_whenDue (readGreens_after (takeCommand_only target truncating s))

theorem execPeCommandRelease_within (downgrade : Bool) (s : State) : Within [.ge, .sq] s (execPeCommandRelease downgrade s) := by
  refine within_next ?_
  split
  · exact Only.refl _ s
  · split
    · exact whenDue_only fun _ => (dropTruncation_only s).trans ((withSq_only _ _).mono (by simp))
    · exact dropCommand_only s

theorem haltFinished_mode {s : State} (h : haltFinished s = true) : s.os.mode = .flashEntry := by
  simp only [haltFinished, Bool.and_eq_true, beq_iff_eq] at h
  exact h.1.1.1

/-- The report of a halt's end is made in FLASH ENTRY, where no service is left to cancel. -/
theorem reportHalt_only_of_finished {s : State} (h : haltFinished s = true) :
    Only [.os, .ge, .sq, .pl, .lu] s (reportHalt s) := by
  have hpe : (reportHalt s).pe = s.pe := by
    rw [reportHalt, enterManualFlash, enterFlash_eq_offer, offer_pe, flashEntered_pe, leaveRun_of_ne]
    · rfl
    · simp [haltFinished_mode h]
  exact Only.without (b := .pe) ((reportHalt_only s).mono (by simp)) hpe

theorem execHalt_within (s : State) : Within [.os, .ge, .sq, .pl, .lu] s (execHalt s) := by
  have taken : Only [.os, .ge, .sq, .pl, .lu] s (readGreens (takeHalt s)) :=
    (takeHalt_only s).comp (readGreens_only _) (by simp) (by simp)
  refine within_whenDue ?_
  dsimp only
  split
  · exact taken.trans (reportHalt_only_of_finished ‹_›)
  · exact taken

theorem execHaltDone_within (s : State) : Within [.os, .ge, .sq, .pl, .lu] s (execHaltDone s) :=
  within_next (whenDue_only fun h => reportHalt_only_of_finished h)

/-! ### Detectors, clock and line -/

theorem detectorEvent_within {bs : List Block} (d : Detector) (due : DetectorRecord → Det → Bool)
    {act : DetectorRecord → State → State} {s : State} (h : ∀ r, Only bs s (act r s)) :
    Within bs s (detectorEvent d due act s) := by
  refine within_next ?_
  split
  · exact Only.refl _ s
  · exact whenDue_only fun _ => h _

theorem execOnEdge_within (d : Detector) (s : State) : Within [.sq, .du, .pl, .lu] s (execOnEdge d s) :=
  detectorEvent_within d _ fun r => onEdge_only r d s

theorem execOffEdge_within (d : Detector) (s : State) : Within [.du] s (execOffEdge d s) :=
  detectorEvent_within d _ fun _ => setDet_only d _ s

theorem execFailedOn_within (d : Detector) (s : State) : Within [.du] s (execFailedOn d s) :=
  detectorEvent_within d _ fun _ => setDet_only d _ s

theorem execFailedQuiet_within (d : Detector) (s : State) : Within [.du] s (execFailedQuiet d s) :=
  detectorEvent_within d _ fun _ => setDet_only d _ s

theorem execPlanAdoption_within (s : State) : Within [.ck, .sq] s (execPlanAdoption s) := by
  refine within_next ?_
  split
  · exact Only.refl _ s
  · exact whenDue_only fun _ => adoptPending_only _ s

theorem execBeaconDue_within (s : State) : Within [.ck, .lu] s (execBeaconDue s) := by
  refine within_next ?_
  split
  · exact Only.refl _ s
  · exact whenDue_only fun _ => countBeacon_only _ s

theorem execLineFree_within (s : State) : Within [.lu] s (execLineFree s) := by
  refine within_whenDue ?_
  dsimp only
  split
  · exact (withLu_only s _).trans (drawBackoff_only _)
  · exact withLu_only s _

theorem execBackoffSlotEnd_within (s : State) : Within [.lu] s (execBackoffSlotEnd s) := by
  refine within_whenDue ?_
  dsimp only
  split
  · exact (withLu_only s _).trans (startAttempt_only _)
  · exact withLu_only s _

theorem execIntraFrameGap_within (s : State) : Within [.lu] s (execIntraFrameGap s) := by
  refine within_next ?_
  split
  · exact whenDue_only fun _ => withLu_only s _
  · exact Only.refl _ s

theorem execByteReceived_within (b : Byte) (framingError : Bool) (s : State) :
    Within [.lu, .ck, .nt, .pl, .pe, .sq] s (execByteReceived b framingError s) :=
  within_whenDue (receiveByte_only b framingError s)

theorem execFrameReceived_within (last : Byte) (s : State) :
    Within [.lu, .ck, .nt, .pl, .pe, .sq] s (execFrameReceived last s) :=
  within_whenDue (receiveByte_only last false s)

/-! ### Neighbors, platoons, preemption and modes -/

theorem execEntryStale_within (p : Place) (s : State) : Within [.nt] s (execEntryStale p s) := by
  refine within_next ?_
  split
  · exact whenDue_only fun _ => setPlace_only p _ s
  · exact Only.refl _ s

theorem execEntryLost_within (p : Place) (s : State) : Within [.nt] s (execEntryLost p s) := by
  refine within_next ?_
  split
  · exact whenDue_only fun _ => setPlace_only p _ s
  · exact Only.refl _ s

theorem execNoticeFormed_within (p : Place) (s : State) : Within [.pl, .lu] s (execNoticeFormed p s) := by
  refine within_next ?_
  split
  · exact whenDue_only fun _ => ((withPl_only s _).mono (by simp)).trans (formNotice_only p _)
  · exact Only.refl _ s

theorem execNoticeActivation_within (sender serial : Nat) (s : State) :
    Within [.pl, .sq] s (execNoticeActivation sender serial s) := by
  refine within_next ?_
  split
  · exact Only.refl _ s
  · exact whenDue_only fun _ => (setQueue_only _ s).comp (writeStageCalls_only _ _) (by simp) (by simp)

theorem execNoticeEnd_within (sender serial : Nat) (s : State) : Within [.pl] s (execNoticeEnd sender serial s) := by
  refine within_next ?_
  split
  · exact Only.refl _ s
  · exact whenDue_only fun _ => setQueue_only _ s

theorem peEvent_within {bs : List Block} {due : Image → Bool} {act : Image → State → State} {s : State}
    (h : ∀ img, Only bs s (act img s)) : Within bs s (peEvent due act s) := by
  refine within_next ?_
  split
  · exact Only.refl _ s
  · exact whenDue_only fun _ => h _

/-- Service decisions made after a change of PE. -/
theorem decided_only (img : Image) {s t : State} (h : Only [.pe] s t) : Only [.free, .pe, .sq, .lu] s (serviceDecisions img t) :=
  (h.mono (by simp)).trans (serviceDecisions_only img t)

theorem execRequestInputOn_within (c : PreClass) (s : State) : Within [.free, .pe, .sq, .lu] s (execRequestInputOn c s) :=
  peEvent_within fun img => decided_only img ((withPe_only s _).trans (withPe_only _ _))

theorem execLineAlertCountdownExpiry_within (s : State) : Within [.free, .pe, .sq, .lu] s (execLineAlertCountdownExpiry s) :=
  peEvent_within fun img => decided_only img (withPe_only s _)

theorem execLineDwellExpiry_within (s : State) : Within [.free, .pe, .sq, .lu] s (execLineDwellExpiry s) :=
  peEvent_within fun img => decided_only img (withPe_only s _)

theorem execInhibitExpiry_within (s : State) : Within [.free, .pe, .sq, .lu] s (execInhibitExpiry s) :=
  peEvent_within fun img => decided_only img (withPe_only s _)

/-- The entry into DWELL after a change of PE and SQ. -/
theorem dwelled_only (img : Image) {s t : State} (h : Only [.pe, .sq] s t) : Only [.free, .pe, .sq, .lu] s (enterDwell img t) :=
  h.comp (enterDwell_only img t) (by simp) (by simp)

theorem execDwellEntry_within (s : State) : Within [.free, .pe, .sq, .lu] s (execDwellEntry s) :=
  peEvent_within fun img =>
    ((enterDwell_only img s).mono (by simp)).trans (dwelled_only img (exitDwell_only img _))

theorem maxDwellExit_only (img : Image) (v : Service) (s : State) : Only [.pe, .sq] s (maxDwellExit img v s) :=
  ((withPe_only s _).mono (by simp)).trans (enterExit_only img _ _)

theorem execMinDwellExpiry_within (s : State) : Within [.free, .pe, .sq, .lu] s (execMinDwellExpiry s) := by
  refine peEvent_within fun img => ?_
  split
  · exact dwelled_only img (enterExit_only img _ s)
  · exact Only.refl _ s

theorem execMaxDwellExpiry_within (s : State) : Within [.free, .pe, .sq, .lu] s (execMaxDwellExpiry s) := by
  refine peEvent_within fun img => ?_
  split
  · exact dwelled_only img (maxDwellExit_only img _ s)
  · exact Only.refl _ s

theorem execServiceEnd_within (s : State) : Within [.free, .pe, .sq, .lu] s (execServiceEnd s) :=
  peEvent_within fun img => dwelled_only img (endService_only img s)

/-- A fault latched by an event of the monitor. -/
theorem execConflict_within (a b : Group) (s : State) : Within [.os, .ge, .sq, .pl, .pe, .lu] s (execConflict a b s) := by
  refine within_next ?_
  split
  · exact Only.refl _ s
  · exact whenDue_only fun _ => latchFault_only _ _ s

theorem execModeTimerExpiry_within (s : State) : Within [.os, .ge, .sq, .pl] s (execModeTimerExpiry s) :=
  within_whenDue (((withOs_only s _).mono (by simp)).trans (modeAfterTimer_only _))

/-! ### Delivered commands -/

theorem deliver_within {bs : List Block} (c : MpCommand) {s : State} (h : Only bs s (carryOut s c)) :
    Within (.mp :: bs) s (.next (deliver c s)) := within_next (deliver_only c s h)

theorem execUnknownCommand_within (code : Byte) (s : State) : Within [.mp] s (execUnknownCommand code s) :=
  within_whenDue (deliver_only _ s (Only.refl _ s))

theorem selectPin_within {c : Bool} (s : State) (x : Pins) (m : MpState) :
    Within [.pins, .mp] s (.next (whenDue c ((s.withPins x).withMp m) s)) :=
  within_whenDue ((withPins_only s x).comp (withMp_only _ m) (by simp) (by simp))

theorem Within.mono {bs cs : List Block} {s : State} {o : Host.Outcome State Fault Refusal} (h : Within bs s o)
    (sub : ∀ b, b ∈ bs → b ∈ cs) : Within cs s o := by
  obtain ⟨t, rfl, ht⟩ := h
  exact within_next (ht.mono sub)

/-- Every command completes and reaches no block but those of its row. -/
theorem exec_within (c : Instr) (s : State) : Within (Instr.reaches c) s (exec c s) := by
  cases c with
  | powerOn => exact within_next (resetStation_only s)
  | resetPin => exact within_next (resetStation_only s)
  | headerRead h => exact execHeaderRead_within h s
  | memoryNoAcknowledge bs => exact execMemoryNoAcknowledge_within bs s
  | loadEnd body => exact execLoadEnd_within body s
  | tick d r x => exact execTick_within d r x s
  | prepEnd g => exact execPrepEnd_within g s
  | minGreenEnd g => exact execMinGreenEnd_within g s
  | clearanceEnd g => exact execClearanceEnd_within g s
  | passageTimerExpiry => exact execPassageTimerExpiry_within s
  | maxTimerExpiry => exact execMaxTimerExpiry_within s
  | holdExtensionExpiry => exact execHoldExtensionExpiry_within s
  | stageChangeComplete => exact execStageChangeComplete_within s
  | peCommand t b => exact execPeCommand_within t b s
  | peCommandRelease b => exact execPeCommandRelease_within b s
  | halt => exact execHalt_within s
  | haltDone => exact execHaltDone_within s
  | onEdge d => exact execOnEdge_within d s
  | offEdge d => exact execOffEdge_within d s
  | failedOn d => exact execFailedOn_within d s
  | failedQuiet d => exact execFailedQuiet_within d s
  | unsyncGiveUp => exact within_whenDue (withCk_only s _)
  | holdEnd => exact within_whenDue (withCk_only s _)
  | planAdoption => exact execPlanAdoption_within s
  | beaconDue => exact execBeaconDue_within s
  | planHoldExpiry => exact within_whenDue (withCk_only s _)
  | lineFree => exact execLineFree_within s
  | backoffSlotEnd => exact execBackoffSlotEnd_within s
  | byteReceived b e => exact execByteReceived_within b e s
  | intraFrameGap => exact execIntraFrameGap_within s
  | frameReceived b => exact execFrameReceived_within b s
  | entryStale p => exact execEntryStale_within p s
  | entryLost p => exact execEntryLost_within p s
  | noticeFormed p => exact execNoticeFormed_within p s
  | noticeActivation a n => exact execNoticeActivation_within a n s
  | noticeEnd a n => exact execNoticeEnd_within a n s
  | requestInputOn c => exact execRequestInputOn_within c s
  | dwellEntry => exact execDwellEntry_within s
  | minDwellExpiry => exact execMinDwellExpiry_within s
  | maxDwellExpiry => exact execMaxDwellExpiry_within s
  | serviceEnd => exact execServiceEnd_within s
  | lineAlertCountdownExpiry => exact execLineAlertCountdownExpiry_within s
  | lineDwellExpiry => exact execLineDwellExpiry_within s
  | inhibitExpiry => exact execInhibitExpiry_within s
  | modeTimerExpiry => exact execModeTimerExpiry_within s
  | conflict a b => exact execConflict_within a b s
  | mismatch ch l => exact within_whenDue (latchFault_only _ _ s)
  | selectFall => exact selectPin_within s _ _
  | selectRise => exact selectPin_within s _ _
  | status => exact deliver_within _ (Only.refl _ s)
  | readGroups => exact deliver_within _ (Only.refl _ s)
  | readNeighbors => exact deliver_within _ (Only.refl _ s)
  | readPlatoons => exact deliver_within _ (Only.refl _ s)
  | readPreemption => exact deliver_within _ (Only.refl _ s)
  | exchangePending m => exact (deliver_within _ (clearPending_only m s)).mono (by simp [Instr.reaches])
  | placeCall a => exact (deliver_within _ (placeCallEffect_only a s)).mono (by simp [Instr.reaches])
  | selectPlan a => exact (deliver_within _ (selectPlanEffect_only a s)).mono (by simp [Instr.reaches])
  | manualFlashOn => exact (deliver_within _ (manualFlashOnEffect_only s)).mono (by simp [Instr.reaches])
  | manualFlashOff => exact (deliver_within _ (enterStartRed_only s)).mono (by simp [Instr.reaches])
  | restart => exact (deliver_within _ (restartStation_only s)).mono (by simp [Instr.reaches])
  | reload => exact (deliver_within _ (reloadStation_only s)).mono (by simp +contextual [Instr.reaches])
  | blockRestartLine => exact (deliver_within _ (restartLine_only s)).mono (by simp [Instr.reaches])
  | blockRestartNeighbors =>
    exact (deliver_within _ ((restartTable_only s).comp (restartClock_only _) (ds := [.nt, .ck]) (by simp) (by simp))).mono
      (by simp [Instr.reaches])
  | blockRestartDetectors => exact (deliver_within _ (blockRestartDetectors_only s)).mono (by simp [Instr.reaches])
  | unknownCommand code => exact execUnknownCommand_within code s
  | lineBusy => exact within_whenDue (withLu_only s _)
  | byteNotReceivedBack => exact within_whenDue (attemptFailed_only s)
  | spiByteTransfer b => exact within_whenDue (withMp_only s _)

theorem exec_only {c : Instr} {s t : State} (h : exec c s = .next t) : Only (Instr.reaches c) s t := by
  obtain ⟨u, hu, only⟩ := exec_within c s
  rw [hu] at h
  injection h with h
  exact h ▸ only

/-- Settles O1: a step is the command's meaning, and the idle step is named on the empty queue. -/
theorem stepRunsTheFrontCommand : Obligations.StepRunsTheFrontCommand := by
  refine ⟨fun c rest s => rfl, fun s h => ?_⟩
  unfold step
  rw [h]

/-- Settles O2: each row's frame is the union of the frames of its operations, and no row of the table lists the queue. -/
theorem everyCommandKeepsToItsBlocks : Obligations.EveryCommandKeepsToItsBlocks := by
  intro c s
  obtain ⟨t, ht, only⟩ := exec_within c s
  exact ⟨t, ht, only, only.pending (by cases c <;> simp [Instr.reaches])⟩

/-! ## What keeps a law -/

/-- The blocks an accepted command of the Maintenance Port reaches beyond the port. -/
def MpCommand.blocks : MpCommand → List Block
  | .status | .readGroups | .readNeighbors | .readPlatoons | .readPreemption | .unknown _ => []
  | .exchangePending _ => [.du]
  | .placeCall _ => [.sq]
  | .selectPlan _ => [.ck]
  | .manualFlashOn => [.os, .ge, .sq, .pe]
  | .manualFlashOff => [.os, .ge, .sq, .pl]
  | .restart => [.os, .ge, .sq, .pl, .pe]
  | .reload => [.os, .cf, .ge, .sq, .du, .ck, .lu, .nt, .pl, .pe]
  | .blockRestart _ => [.lu, .ck, .nt, .du]

theorem carryOut_blocks (c : MpCommand) (s : State) : Only c.blocks s (carryOut s c) := by
  cases c with
  | status => exact Only.refl _ s
  | readGroups => exact Only.refl _ s
  | readNeighbors => exact Only.refl _ s
  | readPlatoons => exact Only.refl _ s
  | readPreemption => exact Only.refl _ s
  | unknown code => exact Only.refl _ s
  | exchangePending m => exact clearPending_only m s
  | placeCall a => exact placeCallEffect_only a s
  | selectPlan a => exact selectPlanEffect_only a s
  | manualFlashOn => exact manualFlashOnEffect_only s
  | manualFlashOff => exact enterStartRed_only s
  | restart => exact restartStation_only s
  | reload => exact reloadStation_only s
  | blockRestart a => exact blockRestartEffect_only a.toNat s

/-- The blocks a work of a tick reaches. -/
def Work.blocks : Work → List Block
  | .mp => [.os, .cf, .ge, .sq, .du, .ck, .lu, .nt, .pl, .pe, .mp]
  | .groups => [.ge, .sq]
  | .sequencer => [.os, .ge, .sq, .pl, .pe, .lu]
  | .detectors => [.sq, .du, .pl, .lu]
  | .clock => [.ck, .sq, .lu]
  | .neighbors => [.nt]
  | .platoonCountdown => [.pl, .sq]
  | .greenTimers => [.pl]
  | .preemption => [.free, .pe, .sq, .lu]
  | .supervisor => [.os, .ge, .sq, .pl, .pe, .lu]

theorem doWork_blocks (began : Mode) (s : State) (w : Work) : Only w.blocks s (doWork began s w) := by
  cases w with
  | mp => exact mpWork_only s
  | groups => exact geWork_only s
  | sequencer => exact sqWork_only s
  | detectors => exact duWork_only s
  | clock => exact ckWork_only s
  | neighbors => exact ntWork_only s
  | platoonCountdown => exact plQueueWork_only s
  | greenTimers => exact plTimerWork_only s
  | preemption => exact peWork_only s
  | supervisor => exact supervisorWork_only began s

/-- The law is a matter of these blocks alone. -/
def Reads (bs : List Block) (L : State → Prop) : Prop := ∀ s t, (∀ b ∈ bs, b.Same s t) → L s → L t

/-- Some block of `bs` is reached. -/
def touches (bs cs : List Block) : Bool := cs.any fun b => bs.contains b

theorem Reads.of_only {bs cs : List Block} {L : State → Prop} (hr : Reads bs L) {s t : State} (h : Only cs s t)
    (hd : touches bs cs = false) (hs : L s) : L t := by
  refine hr s t (fun b hb => h b fun hc => ?_) hs
  simp only [touches, List.any_eq_false, List.contains_iff_mem] at hd
  exact hd b hc hb

/-- A law holds after a step where it holds after the reached part of it. -/
theorem Reads.of_touched {bs cs : List Block} {L : State → Prop} (hr : Reads bs L) {s t : State} (h : Only cs s t)
    (ht : touches bs cs = true → L t) (hs : L s) : L t := by
  cases hd : touches bs cs with
  | false => exact hr.of_only h hd hs
  | true => exact ht hd

/-- The command that a row delivers. -/
def Instr.delivers : Instr → Option MpCommand
  | .status => some .status
  | .readGroups => some .readGroups
  | .readNeighbors => some .readNeighbors
  | .readPlatoons => some .readPlatoons
  | .readPreemption => some .readPreemption
  | .exchangePending m => some (.exchangePending m)
  | .placeCall a => some (.placeCall a)
  | .selectPlan a => some (.selectPlan a)
  | .manualFlashOn => some .manualFlashOn
  | .manualFlashOff => some .manualFlashOff
  | .restart => some .restart
  | .reload => some .reload
  | .blockRestartLine => some (.blockRestart 1)
  | .blockRestartNeighbors => some (.blockRestart 2)
  | .blockRestartDetectors => some (.blockRestart 3)
  | _ => none

theorem exec_of_delivers {c : Instr} {m : MpCommand} (h : Instr.delivers c = some m) (s : State) :
    exec c s = .next (deliver m s) := by
  cases c <;> cases h <;> rfl

def Instr.isTick : Instr → Bool
  | .tick _ _ _ => true
  | _ => false

theorem Instr.eq_tick_of_isTick {c : Instr} (h : Instr.isTick c = true) : ∃ d r x, c = .tick d r x := by
  cases c with
  | tick d r x => exact ⟨d, r, x, rfl⟩
  | _ => exact Bool.noConfusion h

/-- The row is an event of its own: no TICK and no delivered command. -/
def Instr.isEvent (c : Instr) : Bool := !Instr.isTick c && (Instr.delivers c).isNone

/-- The blocks of the part that a law can speak of: not the model's counter and queue, nor the pins, the marks and the port. -/
def lawBlocks : List Block := [.os, .cf, .ge, .sq, .du, .ck, .lu, .nt, .pl, .pe]

theorem deliver_keeps {bs : List Block} {L : State → Prop} (hr : Reads bs L) (hb : ∀ b ∈ bs, b ∈ lawBlocks) {m : MpCommand}
    {s : State} (h : mpStatus s m = .accepted → L (carryOut s m)) (hs : L s) : L (deliver m s) := by
  have hmp : touches bs [.mp] = false := by
    simp only [touches, List.any_eq_false, List.contains_iff_mem, List.mem_singleton, forall_eq]
    exact fun hm => absurd (hb _ hm) (by decide)
  by_cases ha : mpStatus s m = .accepted
  · rw [deliver_accepted ha]
    exact hr.of_only (withMp_only _ _) hmp (h ha)
  · rw [deliver_refused ha]
    exact hr.of_only (withMp_only _ _) hmp hs

theorem works_keep {L : State → Prop} {began : Mode} (h : ∀ w s, L s → L (doWork began s w)) :
    ∀ (order : List Work) (s : State), L s → L (order.foldl (doWork began) s)
  | [], _, hs => hs
  | w :: rest, s, hs => works_keep h rest _ (h w s hs)

/-- A law is kept by every step where it is kept by every event, accepted command and work of a tick that reaches its blocks. -/
theorem Reads.kept {bs : List Block} {L : State → Prop} (hr : Reads bs L) (hb : ∀ b ∈ bs, b ∈ lawBlocks)
    (hevent : ∀ c s t, touches bs (Instr.reaches c) = true → Instr.isEvent c = true → L s → exec c s = .next t → L t)
    (hmp : ∀ m s, touches bs m.blocks = true → mpStatus s m = .accepted → L s → L (carryOut s m))
    (hwork : ∀ w began s, touches bs w.blocks = true → w ≠ .mp → L s → L (doWork began s w)) : Kept L := by
  have delivered (m : MpCommand) (s : State) (hs : L s) : L (deliver m s) :=
    deliver_keeps hr hb (fun ha => hr.of_touched (carryOut_blocks m s) (fun ht => hmp m s ht ha hs) hs) hs
  have worked (began : Mode) (w : Work) (s : State) (hs : L s) : L (doWork began s w) := by
    by_cases hw : w = .mp
    · subst hw
      show L (mpWork s)
      unfold mpWork
      split
      · exact delivered _ s hs
      · exact hs
    · exact hr.of_touched (doWork_blocks began s w) (fun ht => hwork w began s ht hw hs) hs
  have untouched (cs : List Block) (hc : ∀ b ∈ cs, b ∉ lawBlocks) : touches bs cs = false := by
    simp only [touches, List.any_eq_false, List.contains_iff_mem]
    exact fun b hm hbs => hc b hm (hb b hbs)
  have ran (c : Instr) (s t : State) (hs : L s) (h : exec c s = .next t) : L t := by
    by_cases hc : Instr.isEvent c = true
    · exact hr.of_touched (exec_only h) (fun ht => hevent c s t ht hc hs h) hs
    · cases hm : Instr.delivers c with
      | some m =>
        rw [exec_of_delivers hm] at h
        injection h with h
        exact h ▸ delivered m s hs
      | none =>
        have htick : Instr.isTick c = true := by simpa [Instr.isEvent, hm] using hc
        obtain ⟨d, r, x, rfl⟩ := Instr.eq_tick_of_isTick htick
        injection h with h
        rw [← h]
        refine hr.of_only (nextFree_only _) (untouched _ (by decide)) (works_keep (worked _) _ _ ?_)
        exact hr.of_only (beginTick_only d r x s) (untouched _ (by decide)) hs
  intro s t hs h
  unfold step at h
  split at h
  · injection h with h
    exact h ▸ hs
  · exact ran _ _ t (hr.of_only (cs := [.pending]) (fun b hb => by cases b <;> first | rfl | simp at hb)
      (untouched _ (by decide)) hs) h

end Sys2Proof.Machine

/-! Chapter 11: what the loader asks of an image (Table 11.2), and the loader's judgement of the header and of the body (R178,
R179). -/

namespace Sys2Proof.Machine

/-! ## The structural checks (Table 11.2) -/

theorem somePair_eq_true {f : Group → Group → Bool} : somePair f = true ↔ ∃ a g, f a g = true := by
  simp [somePair]

theorem conflicts_iff (m : Image) (a g : Group) : m.conflicts a g = true ↔ a ≠ g ∧ m.intergreen[a][g] ≠ none := by
  unfold Image.conflicts Image.inter
  split <;> simp [*, Option.isSome_iff_ne_none]

theorem badAddress_iff (m : Image) : (!(decide (1 ≤ m.address) && decide (m.address ≤ 62))) = true ↔ ¬AddressOk m := by
  simp only [AddressOk, Bool.not_eq_true', ← Bool.not_eq_true, Bool.and_eq_true, decide_eq_true_eq]

theorem asymmetric_iff (m : Image) : asymmetric m = true ↔ ¬SymmetryOk m := by
  simp only [asymmetric, somePair_eq_true, Bool.and_eq_true, Bool.not_eq_true', SymmetryOk, not_forall, conflicts_iff,
    Bool.eq_false_iff, ne_eq]
  refine exists_congr fun a => exists_congr fun g => ⟨?_, ?_⟩
  · rintro ⟨⟨hne, hag⟩, hga⟩
    exact ⟨hne, hag, fun h => hga ⟨Ne.symm hne, h⟩⟩
  · rintro ⟨hne, hag, hga⟩
    exact ⟨⟨hne, hag⟩, fun h => hga h.2⟩

theorem intergreenTooShort_iff (m : Image) : intergreenTooShort m = true ↔ ¬IntergreenOk m := by
  simp only [intergreenTooShort, somePair_eq_true, IntergreenOk, not_forall]
  refine exists_congr fun a => exists_congr fun g => ?_
  cases m.intergreen[a][g] <;> simp

theorem stageHasConflict_iff (m : Image) : stageHasConflict m = true ↔ ¬NoStageConflict m := by
  simp only [stageHasConflict, List.any_eq_true, List.mem_finRange, true_and, somePair_eq_true, Bool.and_eq_true,
    conflicts_iff, NoStageConflict, not_forall, exists_prop, and_assoc]

theorem stageGroupFault_iff (m : Image) : stageGroupFault m = true ↔ ¬StageGroupsOk m := by
  simp only [stageGroupFault, List.any_eq_true, List.mem_finRange, true_and, Bool.and_eq_true, Bool.or_eq_true,
    List.all_eq_true, Bool.not_eq_true', StageGroupsOk, not_forall, exists_prop, not_and_or, not_exists, forall_const,
    Bool.not_eq_true]

theorem noStageEnabled_iff (m : Image) : noStageEnabled m = true ↔ ¬SomeStageEnabled m := by
  simp [noStageEnabled, SomeStageEnabled]

theorem stageOn_iff (m : Image) (x : Option Stage) : stageOn m x = true ↔ NamesEnabled m x := by
  unfold stageOn NamesEnabled
  split <;> simp

theorem isCoordinated_iff (r : PlanRecord) : r.isCoordinated = true ↔ r.cycle ≠ 0 := by simp [PlanRecord.isCoordinated]

theorem badStageReference_iff (m : Image) : badStageReference m = true ↔ ¬StageReferencesOk m := by
  simp only [badStageReference, Bool.or_eq_true, Bool.not_eq_true', ← Bool.not_eq_true, stageOn_iff, List.any_eq_true,
    List.mem_finRange, true_and, Bool.and_eq_true, isCoordinated_iff, StageReferencesOk, not_and_or, not_forall, exists_prop,
    or_assoc]

theorem badCycleLength_iff (m : Image) : badCycleLength m = true ↔ ¬CycleLengthsOk m := by
  simp only [badCycleLength, List.any_eq_true, List.mem_finRange, true_and, Bool.and_eq_true, isCoordinated_iff,
    Bool.not_eq_true', ← Bool.not_eq_true, decide_eq_true_eq, CycleLengthsOk, not_forall, not_or]

theorem pointsBelow_iff (c : Nat) (x : PlanStage) :
    pointsBelow c x = true ↔ x.permStart < c ∧ x.permEnd < c ∧ ∀ f, x.forceOff = some f → f < c := by
  unfold pointsBelow
  cases x.forceOff <;> simp [and_assoc]

theorem badCyclePoint_iff (m : Image) : badCyclePoint m = true ↔ ¬CyclePointsOk m := by
  simp only [badCyclePoint, List.any_eq_true, List.mem_finRange, true_and, Bool.and_eq_true, isCoordinated_iff,
    Bool.not_eq_true', ← Bool.not_eq_true, decide_eq_true_eq, List.all_eq_true, forall_const, pointsBelow_iff, CyclePointsOk,
    not_forall, exists_prop, and_assoc]

/-- R179: the checks are made in order, and the first that fails gives the cause. -/
theorem structuralCause_cases (m : Image) :
    (¬AddressOk m ∧ structuralCause m = .address) ∨ AddressOk m ∧
    ((¬SymmetryOk m ∧ structuralCause m = .asymmetry) ∨ SymmetryOk m ∧
    ((¬IntergreenOk m ∧ structuralCause m = .intergreen) ∨ IntergreenOk m ∧
    ((¬NoStageConflict m ∧ structuralCause m = .stageConflict) ∨ NoStageConflict m ∧
    ((¬StageGroupsOk m ∧ structuralCause m = .stageGroup) ∨ StageGroupsOk m ∧
    ((¬SomeStageEnabled m ∧ structuralCause m = .noStage) ∨ SomeStageEnabled m ∧
    ((¬StageReferencesOk m ∧ structuralCause m = .stageReference) ∨ StageReferencesOk m ∧
    ((¬CycleLengthsOk m ∧ structuralCause m = .cycleLength) ∨ CycleLengthsOk m ∧
    ((¬CyclePointsOk m ∧ structuralCause m = .cyclePoint) ∨
      (CyclePointsOk m ∧ structuralCause m = .none))))))))) := by
  unfold structuralCause
  split_ifs <;> simp_all only [badAddress_iff, asymmetric_iff, intergreenTooShort_iff, stageHasConflict_iff, stageGroupFault_iff,
    noStageEnabled_iff, badStageReference_iff, badCycleLength_iff, badCyclePoint_iff, not_not, not_true_eq_false,
    not_false_eq_true, and_true, false_and, or_true, or_false]

/-- Settles O9: the nine checks in order, each read in the words of its table row. -/
theorem firstFailingCheckGivesTheCause : Obligations.FirstFailingCheckGivesTheCause := by
  intro m
  rcases structuralCause_cases m with ⟨h, hc⟩ | ⟨h1, ⟨h, hc⟩ | ⟨h2, ⟨h, hc⟩ | ⟨h3, ⟨h, hc⟩ | ⟨h4, ⟨h, hc⟩ | ⟨h5,
    ⟨h, hc⟩ | ⟨h6, ⟨h, hc⟩ | ⟨h7, ⟨h, hc⟩ | ⟨h8, ⟨h, hc⟩ | ⟨h9, hc⟩⟩⟩⟩⟩⟩⟩⟩⟩ <;> simp [*]

/-! ## The header and the body (R178, R179) -/

theorem failLoad_rejected {s t : State} (cause : LoadCause) (clamped : Nat) (h : Only [.cf] s t) (hi : t.cf.image = s.cf.image)
    (hv : t.cf.valid = s.cf.valid) : LoadRejected cause clamped s (failLoad cause clamped t) := by
  refine ⟨(h.mono (by simp)).trans (failLoad_only _ _ _), rfl, rfl, rfl, hi, hv, ?_⟩
  show ({ t.os with mode := .noPlanFlash } : OsState) = _
  rw [h.os (by simp)]

theorem byteAt_toList {n : Nat} (h : Vector Byte n) (i : Nat) (hi : i < n) : byteAt h.toList i = h[i] := by
  simp [byteAt, hi]

theorem declaredLength_eq (bs : List Byte) : declaredLength bs = 256 * num bs 3 + num bs 4 := by
  simp only [declaredLength, num16, u16, num, Nat.mul_comm]

/-- R178: the three checks of a header, in order. -/
theorem headerCause_toList (h : Vector Byte 18) :
    headerCause h.toList =
      if h[0] ≠ 0xA6 ∨ h[1] ≠ 0x4F then .mark
      else if h[2] ≠ 0x01 then .format
      else if 8 < h[16].toNat ∨ 256 * h[3].toNat + h[4].toNat ≠ 885 + 9 * h[16].toNat then .length
      else .none := by
  simp only [headerCause, declaredLength_eq, num, byteAt_toList h _ (by decide : 0 < 18), byteAt_toList h _ (by decide : 1 < 18),
    byteAt_toList h _ (by decide : 2 < 18), byteAt_toList h _ (by decide : 3 < 18), byteAt_toList h _ (by decide : 4 < 18),
    byteAt_toList h _ (by decide : 16 < 18)]
  simp [-not_and]

/-- What HEADER_READ leaves while a header is awaited. -/
def headerRead (h : Vector Byte 18) (s : State) : State :=
  let s' := s.withCf { s.cf with position := 18, buffer := h.toList }
  if headerCause h.toList = .none then s'.withCf { s'.cf with load := .readingBody } else failLoad (headerCause h.toList) 0 s'

theorem exec_headerRead (h : Vector Byte 18) {s : State} (hm : s.os.mode = .loading) (hl : s.cf.load = .readingHeader) :
    exec (.headerRead h) s = .next (headerRead h s) :=
  congrArg Host.Outcome.next (whenDue_true (by simp [loading, hm, hl]) _ _)

/-- Settles O5: the header's cause is that of its first failing check, and both rejections end the load the same way. -/
theorem loaderJudgesTheHeaderAndMissingBytes : Obligations.LoaderJudgesTheHeaderAndMissingBytes := by
  constructor
  · intro h s hm hl
    refine ⟨_, exec_headerRead h hm hl, ?_⟩
    have read : Only [.cf] s (s.withCf { s.cf with position := 18, buffer := h.toList }) := withCf_only s _
    have rejected (cause : LoadCause) (hc : cause ≠ .none) (hh : headerCause h.toList = cause) :
        (headerRead h s).cf.position = 18 ∧ (headerRead h s).cf.overrun = s.cf.overrun ∧
          LoadRejected cause 0 s (headerRead h s) := by
      rw [headerRead, hh, if_neg hc]
      exact ⟨rfl, rfl, failLoad_rejected _ _ read rfl rfl⟩
    have hh := headerCause_toList h
    by_cases h1 : h[0] ≠ 0xA6 ∨ h[1] ≠ 0x4F
    · rw [if_pos h1] at hh ⊢
      exact rejected _ (by simp) hh
    by_cases h2 : h[2] ≠ 0x01
    · rw [if_neg h1, if_pos h2] at hh ⊢
      exact rejected _ (by simp) hh
    by_cases h3 : 8 < h[16].toNat ∨ 256 * h[3].toNat + h[4].toNat ≠ 885 + 9 * h[16].toNat
    · rw [if_neg h1, if_neg h2, if_pos h3] at hh ⊢
      exact rejected _ (by simp) hh
    · rw [if_neg h1, if_neg h2, if_neg h3] at hh ⊢
      rw [headerRead, if_pos hh]
      exact ⟨rfl, rfl, read.trans (withCf_only _ _), rfl, rfl, rfl, rfl, rfl, rfl⟩
  · intro bs s hm hl hlen
    have hlen' : s.cf.position + bs.length < readLimit s := by simpa [readLimit, declaredLength_eq] using hlen
    refine ⟨_, congrArg Host.Outcome.next (whenDue_true (by simp [hm, hl, hlen']) _ _), ?_, rfl, rfl⟩
    exact failLoad_rejected _ _ (withCf_only s _) rfl rfl

/-- LOAD_END once the declared length has been read. -/
theorem exec_loadEnd {body : List Byte} {s : State} (hm : s.os.mode = .loading) (hl : s.cf.load = .readingBody)
    (hlen : s.cf.position + body.length = 256 * num s.cf.buffer 3 + num s.cf.buffer 4) :
    exec (.loadEnd body) s =
      .next (judgeImage (s.cf.buffer ++ body) (s.withCf { s.cf with position := s.cf.position + body.length })) :=
  congrArg Host.Outcome.next (whenDue_true (by simp [loading, hm, hl, hlen, declaredLength_eq]) _ _)

/-- Settles O6: a body is judged by its check sequence first and by its clamped image then. -/
theorem loadEndRejectsABadImage : Obligations.LoadEndRejectsABadImage := by
  intro body s hm hl hlen bs m
  have read : Only [.cf] s (s.withCf { s.cf with position := s.cf.position + body.length }) := withCf_only s _
  refine ⟨fun hcrc => ⟨_, exec_loadEnd hm hl hlen, ?_⟩, fun hcrc hc => ⟨_, exec_loadEnd hm hl hlen, ?_⟩⟩
  · have hagrees : imageCrcAgrees bs = false := by simpa [imageCrcAgrees] using hcrc
    simp only [judgeImage, bs, hagrees, Bool.not_false, if_true] 
    exact failLoad_rejected _ _ read rfl rfl
  · have hagrees : imageCrcAgrees bs = true := by simpa [imageCrcAgrees] using hcrc
    simp only [judgeImage, bs, hagrees, Bool.not_true, Bool.false_eq_true, if_false]
    rw [if_neg hc]
    exact failLoad_rejected _ _ read rfl rfl

/-! ## A valid image taken into use (R181) -/

/-- A body whose check sequence agrees and whose clamped image passes every check. -/
theorem judgeImage_valid {bs : List Byte} {s : State} (hcrc : crcBytes (bs.take (bs.length - 2)) = bs.drop (bs.length - 2))
    (hc : structuralCause (clampImage (readImage bs)) = .none) :
    judgeImage bs s =
      completeLoad (clampImage (readImage bs)) (clampedCount (readImage bs) (clampImage (readImage bs))) s := by
  have hagrees : imageCrcAgrees bs = true := by simpa [imageCrcAgrees] using hcrc
  simp [judgeImage, hagrees, hc]

theorem sequencerStopped_reset (q : SqState) :
    SequencerStopped { SqState.reset with lastCause := q.lastCause, calls := q.calls } := by
  simp [SequencerStopped, SqState.reset]

@[simp] theorem enterStartFlash_fault (s : State) : (enterStartFlash s).os.fault = s.os.fault := rfl
@[simp] theorem enterStartFlash_additional (s : State) : (enterStartFlash s).os.additional = s.os.additional := rfl

theorem enterStartFlash_source (s : State) (g : Group) :
    (enterStartFlash s).os.source[g] = if groupEnabled s g then .flash else .dark := setSources_source _ _ g

theorem enterStartFlash_countsZero (s : State) : CountsZero (enterStartFlash s).os :=
  ⟨(clearCounts_countsZero s.os).1, (clearCounts_countsZero s.os).2⟩

/-- R16. -/
theorem enterStartFlash_ge (s : State) (g : Group) :
    (enterStartFlash s).ge[g] = if groupEnabled s g then
      { phase := .flashing, timer := 0, minGreenDone := false, e := s.ge[g].e, entry := false, leave := none } else s.ge[g] :=
  forceFlashing_ge (setSources .flash (s.withOs _)) g

@[simp] theorem enterStartFlash_sq (s : State) :
    (enterStartFlash s).sq = { SqState.reset with lastCause := s.sq.lastCause, calls := s.sq.calls } := rfl

theorem outboundGreen_of_changing {s : State} (h : s.sq.phase = .changing) (p : Place) : outboundGreen s p = false := by
  have hc (st : Stage) : stageComplete s st = false := by simp [stageComplete, h]
  unfold outboundGreen
  split
  · split
    · exact hc _
    · rfl
  · rfl

/-- R135: at its stop the Stage Sequencer shows no stage, so PL's reading leaves each link without its green. -/
theorem stopSequencer_links (s : State) (p : Place) :
    (stopSequencer s).pl.links[p] = (s.pl.links[p]).map (readGreen false) := by
  rw [← outboundGreen_of_changing (s := s.withSq { SqState.reset with lastCause := s.sq.lastCause, calls := s.sq.calls }) rfl p]
  exact tab_get (fun p => _) p

theorem readGreen_of_ended {l : LinkSend} (h : l.green = false) : readGreen false l = l := by simp [readGreen, h]

/-- The blocks as a valid image leaves them, before START FLASH is entered. -/
def loaded (m : Image) (n : Nat) (s : State) : State :=
  let s1 := s.withCf { s.cf with image := some m, load := .ended, valid := true, cause := .none, clamped := n, buffer := [] }
  let s2 := loadClock m (enableLine s1)
  let s3 := s2.withNt { NtState.reset with places := pinnedTable m, refused := s2.nt.refused }
  resetDetectors (reloadPe (s3.withPl { s3.pl with queue := [], accepting := true, links := createLinks s3.nt }))

theorem completeLoad_eq (m : Image) (n : Nat) (s : State) : completeLoad m n s = enterStartFlash (loaded m n s) := rfl

/-- The fields that START FLASH does not touch. -/
theorem completeLoad_rest (m : Image) (n : Nat) (s : State) :
    (completeLoad m n s).cf = (loaded m n s).cf ∧ (completeLoad m n s).du = (loaded m n s).du ∧
      (completeLoad m n s).ck = (loaded m n s).ck ∧ (completeLoad m n s).lu = (loaded m n s).lu ∧
      (completeLoad m n s).nt = (loaded m n s).nt ∧ (completeLoad m n s).pe = (loaded m n s).pe :=
  ⟨rfl, rfl, rfl, rfl, rfl, rfl⟩

/-- R134: a new send state for each pinned entry whose link has an outbound part. -/
theorem createLinks_get (nt : NtState) (p : Place) :
    ((createLinks nt)[p] = none ∨
        (createLinks nt)[p] = some { green := false, greenTimer := 0, exitCount := 0, sent := false, serial := 0 }) ∧
      (((createLinks nt)[p]).isSome = true ↔
        ∃ e l, nt.places[p] = some e ∧ e.link = some l ∧ l.exitDetector.isSome = true) := by
  unfold createLinks
  rw [tab_get]
  split
  next e he =>
    split
    next l hl => split <;> simp_all
    next hl => simp [he, hl]
  next he => simp [he]

/-- The links stand as they are created: none has its green at the end of a load. -/
theorem completeLoad_links (m : Image) (n : Nat) (s : State) (p : Place) :
    (completeLoad m n s).pl.links[p] = (createLinks (loaded m n s).nt)[p] := by
  have hl : (completeLoad m n s).pl.links[p] = ((loaded m n s).pl.links[p]).map (readGreen false) := stopSequencer_links _ p
  rw [hl]
  show ((createLinks (loaded m n s).nt)[p]).map (readGreen false) = _
  rcases (createLinks_get (loaded m n s).nt p).1 with h | h <;> rw [h] <;> rfl

theorem preemptionCleared_reset (w i : Nat) : PreemptionCleared { PeState.reset with withheld := w, ignored := i } := by
  refine ⟨fun c => ?_, rfl, rfl, rfl, rfl, rfl, rfl⟩
  exact tab_get (fun _ => ClassState.reset) (classIndex c)

theorem recordCleared_reset : RecordCleared EvalRecord.reset := rfl

/-- R163, R16, R46, R63: the station at the end of a load that began in `s`. -/
theorem completeLoad_station (m : Image) (n : Nat) {s : State} (hm : s.os.mode = .loading) :
    let t := completeLoad m n s
    (t.cf.image = some m ∧ t.cf.valid = true ∧ t.cf.load = .ended ∧ t.cf.cause = .none ∧ t.cf.clamped = n ∧
      t.cf.overrun = s.cf.overrun) ∧
      (t.os.mode = .startFlash ∧ t.os.timer = 10 * m.startFlash ∧ SourcesFrom m .flash t.os ∧ CountsZero t.os ∧
        t.os.fault = s.os.fault ∧ t.os.additional = s.os.additional) ∧ ForcedToFlash m s t ∧
      (SequencerStopped t.sq ∧ t.sq.lastCause = s.sq.lastCause ∧ t.sq.calls = s.sq.calls) ∧ DetectorsReset t := by
  refine ⟨⟨rfl, rfl, rfl, rfl, rfl, rfl⟩, ⟨rfl, rfl, fun g => enterStartFlash_source _ g, enterStartFlash_countsZero _, rfl, rfl⟩,
    fun g => ?_, ⟨sequencerStopped_reset s.sq, rfl, rfl⟩, fun d => tab_get (fun _ => Det.reset) d⟩
  have hg : (completeLoad m n s).ge[g] = if m.groups[g].enabled = true then
      { phase := .flashing, timer := 0, minGreenDone := false, e := s.ge[g].e, entry := false, leave := none } else s.ge[g] :=
    enterStartFlash_ge _ g
  rw [hg]
  simp [hm]

/-- R83, R118: the clock and the line at the end of a load. -/
theorem completeLoad_clockAndLine (m : Image) (n : Nat) (s : State) :
    let t := completeLoad m n s
    let plan1 := m.plans[(0 : Plan)]
    (t.ck.active = some 0 ∧ t.ck.pendingPlan = some 0 ∧ t.ck.c = 100 * plan1.cycle ∧
      (plan1.cycle = 0 → t.ck.o = 0 ∧ t.ck.p = 0 ∧ t.ck.unsync = false) ∧
      (plan1.cycle ≠ 0 → t.ck.o = 10 * plan1.offset ∧ t.ck.p = t.ck.o ∧ t.ck.unsync = true) ∧
      t.ck.hold = 0 ∧ t.ck.b = 0 ∧ t.ck.unsyncCount = 0 ∧ t.ck.planHold = 0 ∧ t.ck.beaconCount = 0 ∧ RecordCleared t.ck.record) ∧
      t.lu.access = .idle ∧ LineQuiet t.lu ∧ t.lu.sequence = BitVec.ofNat 16 m.address ∧ t.lu.counters = s.lu.counters ∧
      t.lu.clash = s.lu.clash := by
  dsimp only
  rw [(completeLoad_rest m n s).2.2.1, (completeLoad_rest m n s).2.2.2.1]
  refine ⟨⟨rfl, rfl, rfl, fun h => ?_, fun h => ?_, rfl, rfl, rfl, rfl, rfl, recordCleared_reset⟩, rfl,
    ⟨rfl, rfl, rfl, rfl, rfl, rfl, rfl⟩, rfl, rfl, rfl⟩
  · have hp : m.plans[(0 : Plan)].isCoordinated = false :=
      Bool.eq_false_iff.mpr fun hc => (isCoordinated_iff _).mp hc h
    have hne : ¬m.plans[(0 : Plan)].isCoordinated = true := by rw [hp]; exact Bool.false_ne_true
    exact ⟨if_neg hne, if_neg hne, hp⟩
  · have hp : m.plans[(0 : Plan)].isCoordinated = true := (isCoordinated_iff _).mpr h
    exact ⟨if_pos hp, rfl, hp⟩

/-- R120, R134, R161: the neighbors, the platoons and the preemption at the end of a load. -/
theorem completeLoad_corridor (m : Image) (n : Nat) (s : State) :
    let t := completeLoad m n s
    ((∀ p : Place, t.nt.places[p] = ((usableRecords m.address [] m.neighbors)[p.val]?).map (pinnedEntry m)) ∧
      (∀ p : Place, t.nt.passOver[p] = false) ∧ t.nt.refused = s.nt.refused) ∧
      (QueueEmptied t.pl ∧ t.pl.withheld = s.pl.withheld ∧ t.pl.unlinked = s.pl.unlinked ∧ t.pl.stale = s.pl.stale ∧
        t.pl.overflow = s.pl.overflow) ∧
      (∀ p : Place, (t.pl.links[p] = none ∨
          t.pl.links[p] = some { green := false, greenTimer := 0, exitCount := 0, sent := false, serial := 0 }) ∧
        ((t.pl.links[p]).isSome = true ↔
          ∃ e l, t.nt.places[p] = some e ∧ e.link = some l ∧ l.exitDetector.isSome = true)) ∧
      PreemptionCleared t.pe ∧ t.pe.alertSerial = 0 ∧ t.pe.withheld = s.pe.withheld ∧ t.pe.ignored = s.pe.ignored := by
  refine ⟨⟨fun p => tab_get _ p, fun p => tab_get (fun _ => false) p, rfl⟩, ⟨⟨rfl, rfl⟩, rfl, rfl, rfl, rfl⟩, fun p => ?_,
    preemptionCleared_reset _ _, rfl, rfl, rfl⟩
  rw [completeLoad_links]
  exact createLinks_get _ p

/-- Settles O7: a valid image is judged so, and its end of load sets each block as listed. -/
theorem loadEndTakesAValidImage : Obligations.LoadEndTakesAValidImage := by
  constructor
  · intro body s hm hl hlen bs m hcrc hc
    refine ⟨_, exec_loadEnd hm hl hlen, ?_⟩
    rw [judgeImage_valid hcrc hc]
    obtain ⟨⟨h1, h2, h3, h4, h5, h6⟩, ⟨o1, o2, o3, o4, o5, o6⟩, hge, ⟨q1, q2, q3⟩, hdu⟩ :=
      completeLoad_station m (clampedCount (readImage bs) m) (s := s.withCf { s.cf with position := _ }) hm
    exact ⟨((withCf_only s _).mono (by simp)).trans (completeLoad_only _ _ _), h1, h2, h3, h4, h5, h6, o1, o2, o3, o4, o5, o6,
      hge, q1, q2, q3, hdu⟩
  · intro body s hm hl hlen bs m plan1 hcrc hc
    refine ⟨_, exec_loadEnd hm hl hlen, ?_⟩
    rw [judgeImage_valid hcrc hc]
    obtain ⟨⟨k1, k2, k3, k4, k5, k6, k7, k8, k9, k10, k11⟩, l1, l2, l3, l4, l5⟩ :=
      completeLoad_clockAndLine m (clampedCount (readImage bs) m) (s.withCf { s.cf with position := _ })
    obtain ⟨⟨n1, n2, n3⟩, ⟨p1, p2, p3, p4, p5⟩, hlinks, hpe⟩ :=
      completeLoad_corridor m (clampedCount (readImage bs) m) (s.withCf { s.cf with position := _ })
    exact ⟨k1, k2, k3, k4, k5, k6, k7, k8, k9, k10, k11, l1, l2, l3, l4, l5, n1, n2, n3, p1, p2, p3, p4, p5, hlinks, hpe⟩

end Sys2Proof.Machine

/-! Chapter 11: clamping (R180). Each timing field goes to the nearer limit of its range, and the count of an image is the number
of its timing fields outside their ranges. -/

namespace Sys2Proof.Machine

/-! ## One field -/

theorem between_clamp {lo hi : Nat} (h : lo ≤ hi) (v : Nat) : Between lo hi (clamp lo hi v) := by
  unfold Between clamp
  omega

theorem clamp_of_between {lo hi v : Nat} (h : Between lo hi v) : clamp lo hi v = v := by
  unfold Between at h
  unfold clamp
  omega

/-- A field with its value clamped. -/
theorem toNearerLimit_mk {lo hi : Nat} (h : lo ≤ hi) (v : Nat) :
    TimingField.toNearerLimit ⟨lo, hi, v⟩ = ⟨lo, hi, clamp lo hi v⟩ := by
  simp only [clamp, TimingField.toNearerLimit, TimingField.mk.injEq, true_and]
  split_ifs <;> omega

theorem eq_clamp_iff {lo hi : Nat} (h : lo ≤ hi) (v : Nat) :
    v = clamp lo hi v ↔ ¬(TimingField.outside ⟨lo, hi, v⟩) = true := by
  simp only [clamp, TimingField.outside, Bool.or_eq_true, decide_eq_true_eq]
  omega

theorem changed_clamp {lo hi : Nat} (h : lo ≤ hi) (v : Nat) :
    changed v (clamp lo hi v) = if (TimingField.outside ⟨lo, hi, v⟩) = true then 1 else 0 := by
  unfold changed
  by_cases hv : v = clamp lo hi v
  · rw [if_pos hv, if_neg ((eq_clamp_iff h v).mp hv)]
  · rw [if_neg hv, if_pos (not_not.mp fun ho => hv ((eq_clamp_iff h v).mpr ho))]

@[simp] theorem changed_self (v : Nat) : changed v v = 0 := if_pos rfl

/-! ## One record -/

theorem clampGroup_eq (r : GroupRecord) :
    clampGroup r = { r with
      prep := clamp 0 (if r.kind = .vehicle then 30 else 0) r.prep, minGreen := clamp 10 600 r.minGreen,
      clearance := clamp 30 (if r.kind = .vehicle then 80 else 600) r.clearance } := by
  cases h : r.kind <;> simp [clampGroup, h, clamp]

theorem groupTimings_clampGroup (r : GroupRecord) :
    groupTimings (clampGroup r) = (groupTimings r).map TimingField.toNearerLimit := by
  have hc : 30 ≤ if r.kind = .vehicle then 80 else 600 := by split <;> decide
  simp [groupTimings, clampGroup_eq, toNearerLimit_mk, hc]

theorem groupChanges_clampGroup (r : GroupRecord) :
    groupChanges r (clampGroup r) = (groupTimings r).countP TimingField.outside := by
  have hc : 30 ≤ if r.kind = .vehicle then 80 else 600 := by split <;> decide
  simp [groupTimings, groupChanges, clampGroup_eq, changed_clamp, hc, List.countP_cons]
  omega

theorem stageChanges_clampStage (r : StageRecord) : stageChanges r (clampStage r) =
    ([⟨0, 100, r.passage⟩, ⟨10, 180, r.maxGreen⟩] : List TimingField).countP TimingField.outside := by
  simp [stageChanges, clampStage, changed_clamp, List.countP_cons]
  omega

theorem detectorChanges_clampDetector (r : DetectorRecord) : detectorChanges r (clampDetector r) =
    ([⟨0, 25, r.onFilter⟩, ⟨0, 25, r.offFilter⟩, ⟨0, 240, r.noActivity⟩] : List TimingField).countP TimingField.outside := by
  simp [detectorChanges, clampDetector, changed_clamp, List.countP_cons]
  omega

theorem neighborChanges_clampNeighbor (r : NeighborRecord) : neighborChanges r (clampNeighbor r) =
    ([⟨0, 3, r.weight⟩, ⟨0, 3000, r.travel⟩, ⟨1, 50, r.threshold⟩, ⟨10, 40, r.headway⟩] : List TimingField).countP
      TimingField.outside := by
  simp [neighborChanges, clampNeighbor, changed_clamp, List.countP_cons]
  omega

theorem classTimings_clampClass (c : PreClass) (r : ClassRecord) :
    classTimings c (clampClass c r) = (classTimings c r).map TimingField.toNearerLimit := by
  cases c <;> simp [classTimings, clampClass, toNearerLimit_mk]

theorem classChanges_clampClass (c : PreClass) (r : ClassRecord) :
    classChanges r (clampClass c r) = (classTimings c r).countP TimingField.outside := by
  cases c <;> simp [classTimings, classChanges, clampClass, changed_clamp, List.countP_cons] <;> omega

theorem countP_intergreen (x : Option Nat) :
    (if x = x.map (clamp 0 200) then 0 else 1) =
      ((x.map fun i => (⟨0, 200, i⟩ : TimingField)).toList).countP TimingField.outside := by
  cases x with
  | none => rfl
  | some i => simpa [changed, List.countP_cons] using changed_clamp (by decide : 0 ≤ 200) i

/-! ## Tables -/

@[simp] theorem tab_toList {α : Type} {n : Nat} (f : Fin n → α) : (tab n f).toList = (List.finRange n).map f := by
  rw [← List.ofFn_eq_map]
  rfl

theorem vector_toList {α : Type} {n : Nat} (v : Vector α n) : v.toList = (List.finRange n).map fun i => v[i] := by
  rw [← List.ofFn_eq_map]
  exact List.ext_getElem (by simp) fun i h1 h2 => by simp

theorem total_countP {α : Type} {n : Nat} (v : Vector α n) (f : α → List TimingField) (g : Fin n → Nat)
    (h : ∀ i, g i = (f v[i]).countP TimingField.outside) :
    total n g = (v.toList.flatMap f).countP TimingField.outside := by
  rw [vector_toList, List.countP_flatMap, total, List.map_map]
  exact congrArg List.sum (List.map_congr_left fun i _ => h i)

theorem flatMap_clamped {α β : Type} {n : Nat} (v : Vector α n) (c : α → α) (f : α → List β) (k : β → β)
    (h : ∀ x, f (c x) = (f x).map k) : (tab n fun i => c v[i]).toList.flatMap f = (v.toList.flatMap f).map k := by
  rw [tab_toList, vector_toList, List.flatMap_map, List.flatMap_map, List.map_flatMap]
  simp only [h]

theorem sum_zip_map {α : Type} (l : List α) (c : α → α) (g : α → α → Nat) :
    ((l.zip (l.map c)).map fun p => g p.1 p.2).sum = (l.map fun x => g x (c x)).sum := by
  induction l with
  | nil => rfl
  | cons x l ih => simp [ih]

/-! ## The image -/

theorem clampImage_cls (m : Image) (c : PreClass) : (clampImage m).cls c = clampClass c (m.cls c) := by
  refine (tab_get (fun i => clampClass (classAt i) m.classes[i]) (classIndex c)).trans ?_
  cases c <;> rfl

theorem clampImage_group (m : Image) (g : Group) : (clampImage m).groups[g] = clampGroup m.groups[g] := tab_get _ g

theorem clampImage_intergreen (m : Image) (a g : Group) :
    (clampImage m).intergreen[a][g] = m.intergreen[a][g].map (clamp 0 200) := by
  show (tab 16 fun a => tab 16 fun g => m.intergreen[a][g].map (clamp 0 200))[a][g] = _
  rw [tab_get, tab_get]

theorem clampImage_stage (m : Image) (i : Stage) : (clampImage m).stages[i] = clampStage m.stages[i] := tab_get _ i
theorem clampImage_plan (m : Image) (i : Plan) : (clampImage m).plans[i] = clampPlan m.plans[i] := tab_get _ i
theorem clampImage_detector (m : Image) (i : Detector) : (clampImage m).detectors[i] = clampDetector m.detectors[i] := tab_get _ i

/-- The timing fields of an intergreen table. -/
def intergreenTimings (row : Vector (Option Nat) 16) : List TimingField :=
  row.toList.filterMap fun x => x.map fun i => ⟨0, 200, i⟩

theorem intergreenTimings_clamp (row : Vector (Option Nat) 16) :
    intergreenTimings (tab 16 fun g => row[g].map (clamp 0 200)) = (intergreenTimings row).map TimingField.toNearerLimit := by
  rw [intergreenTimings, intergreenTimings, tab_toList, vector_toList, List.filterMap_map, List.filterMap_map,
    List.map_filterMap]
  refine List.filterMap_congr fun g _ => ?_
  show (row[g].map (clamp 0 200)).map _ = (row[g].map _).map _
  cases row[g] with
  | none => rfl
  | some i => exact congrArg some (toNearerLimit_mk (by decide) i).symm

theorem total_intergreen (row : Vector (Option Nat) 16) :
    (total 16 fun g => if row[g] = row[g].map (clamp 0 200) then 0 else 1) =
      (intergreenTimings row).countP TimingField.outside := by
  rw [total_countP row (fun x => (x.map fun i => (⟨0, 200, i⟩ : TimingField)).toList) _ fun g => countP_intergreen row[g],
    intergreenTimings, List.filterMap_eq_flatMap_toList]

theorem timings_clampImage (m : Image) : timings (clampImage m) = (timings m).map TimingField.toNearerLimit := by
  simp only [timings, List.map_append]
  congr 1
  · congr 1
    · congr 1
      · congr 1
        · simp [clampImage, toNearerLimit_mk]
        · congr 1
          · exact flatMap_clamped m.groups clampGroup groupTimings _ groupTimings_clampGroup
          · exact flatMap_clamped m.intergreen (fun row => tab 16 fun g => row[g].map (clamp 0 200)) intergreenTimings _
              intergreenTimings_clamp
      · congr 1
        · exact flatMap_clamped m.stages clampStage _ _ fun r => by simp [clampStage, toNearerLimit_mk]
        · simp [clampImage, clampPlan, vector_toList m.plans, toNearerLimit_mk]
    · congr 1
      · exact flatMap_clamped m.detectors clampDetector _ _ fun r => by simp [clampDetector, toNearerLimit_mk]
      · simp [clampImage, List.flatMap_map, List.map_flatMap, clampNeighbor, toNearerLimit_mk]
  · simp only [clampImage_cls, List.map_flatMap, classTimings_clampClass]

theorem clampedCount_clampImage (m : Image) :
    clampedCount m (clampImage m) = min ((timings m).countP TimingField.outside) 255 := by
  have groups : (total 16 fun g => groupChanges m.groups[g] (clampImage m).groups[g]) =
      (m.groups.toList.flatMap groupTimings).countP TimingField.outside :=
    total_countP m.groups groupTimings _ fun g => by rw [clampImage_group, groupChanges_clampGroup]
  have inter : (total 16 fun x => total 16 fun g =>
        if m.intergreen[x][g] = (clampImage m).intergreen[x][g] then 0 else 1) =
      (m.intergreen.toList.flatMap intergreenTimings).countP TimingField.outside :=
    total_countP m.intergreen intergreenTimings _ fun x => by
      simp only [clampImage_intergreen]
      exact total_intergreen m.intergreen[x]
  have stages : (total 8 fun i => stageChanges m.stages[i] (clampImage m).stages[i]) = (m.stages.toList.flatMap fun r =>
      ([⟨0, 100, r.passage⟩, ⟨10, 180, r.maxGreen⟩] : List TimingField)).countP TimingField.outside :=
    total_countP m.stages _ _ fun i => by rw [clampImage_stage, stageChanges_clampStage]
  have plans : (total 4 fun i => changed m.plans[i].holdCap (clampImage m).plans[i].holdCap) =
      (m.plans.toList.map fun r => (⟨0, 30, r.holdCap⟩ : TimingField)).countP TimingField.outside := by
    rw [List.map_eq_flatMap]
    exact total_countP m.plans _ _ fun i => by
      rw [clampImage_plan]
      simpa [clampPlan, List.countP_cons] using changed_clamp (by decide : 0 ≤ 30) m.plans[i].holdCap
  have detectors : (total 24 fun i => detectorChanges m.detectors[i] (clampImage m).detectors[i]) =
      (m.detectors.toList.flatMap fun r => ([⟨0, 25, r.onFilter⟩, ⟨0, 25, r.offFilter⟩, ⟨0, 240, r.noActivity⟩] :
        List TimingField)).countP TimingField.outside :=
    total_countP m.detectors _ _ fun i => by rw [clampImage_detector, detectorChanges_clampDetector]
  have neighbors : ((m.neighbors.zip (clampImage m).neighbors).map fun p => neighborChanges p.1 p.2).sum =
      (m.neighbors.flatMap fun r => ([⟨0, 3, r.weight⟩, ⟨0, 3000, r.travel⟩, ⟨1, 50, r.threshold⟩, ⟨10, 40, r.headway⟩] :
        List TimingField)).countP TimingField.outside := by
    rw [List.countP_flatMap]
    refine (sum_zip_map m.neighbors clampNeighbor neighborChanges).trans (congrArg List.sum (List.map_congr_left fun r _ => ?_))
    exact neighborChanges_clampNeighbor r
  have classes : (total 3 fun i => classChanges m.classes[i] (clampImage m).classes[i]) =
      (allClasses.flatMap fun c => classTimings c (m.cls c)).countP TimingField.outside := by
    rw [List.countP_flatMap]
    have each (c : PreClass) : classChanges m.classes[classIndex c] (clampImage m).classes[classIndex c] =
        (classTimings c (m.cls c)).countP TimingField.outside := by
      rw [← classChanges_clampClass, ← clampImage_cls]
      rfl
    exact congrArg List.sum (congrArg₂ _ (each .rail) (congrArg₂ _ (each .emergency) (congrArg₂ _ (each .transit) rfl)))
  rw [clampedCount, groups, inter, stages, plans, detectors, neighbors, classes, Nat.min_comm]
  refine congrArg (min · 255) ?_
  simp only [timings, List.countP_append, List.countP_cons, List.countP_nil]
  unfold intergreenTimings
  simp only [clampImage, changed_clamp, Nat.reduceLeDiff]
  omega

theorem classInRange_clampClass (c : PreClass) (r : ClassRecord) : ClassInRange c (clampClass c r) := by
  cases c <;> simp [ClassInRange, clampClass, between_clamp]

theorem timingInRange_clampImage (m : Image) : TimingInRange (clampImage m) := by
  have b {lo hi : Nat} (h : lo ≤ hi) (v : Nat) : Between lo hi (clamp lo hi v) := between_clamp h v
  refine ⟨b (by decide) _, b (by decide) _, b (by decide) _, b (by decide) _, b (by decide) _, b (by decide) _, b (by decide) _,
    b (by decide) _, b (by decide) _, fun g => ?_, fun a g i h => ?_, fun st => ?_, fun p => ?_, fun d => ?_, fun r hr => ?_,
    fun c => ?_⟩
  · rw [clampImage_group]
    generalize m.groups[g] = r
    refine ⟨b (by decide) _, ?_⟩
    cases hk : r.kind <;> simp [clampGroup, hk, between_clamp]
  · rw [clampImage_intergreen, Option.map_eq_some_iff] at h
    obtain ⟨v, -, rfl⟩ := h
    exact (b (by decide) v).2
  · rw [clampImage_stage]
    exact ⟨b (by decide) _, b (by decide) _⟩
  · rw [clampImage_plan]
    exact b (by decide) _
  · rw [clampImage_detector]
    exact ⟨b (by decide) _, b (by decide) _, b (by decide) _⟩
  · obtain ⟨x, -, rfl⟩ := List.mem_map.mp hr
    exact ⟨b (by decide) _, b (by decide) _, b (by decide) _, b (by decide) _⟩
  · rw [clampImage_cls]
    exact classInRange_clampClass c _

theorem sameStructure_clampImage (m : Image) : SameStructure m (clampImage m) := by
  refine ⟨rfl, rfl, fun g => ?_, fun a g => ?_, fun st => ?_, fun p => ?_, fun d => ?_, ?_, fun c => ?_⟩
  · rw [clampImage_group]
    rfl
  · rw [clampImage_intergreen, Option.map_eq_none_iff]
  · rw [clampImage_stage]
    rfl
  · rw [clampImage_plan]
    rfl
  · rw [clampImage_detector]
    rfl
  · exact List.map_map
  · rw [clampImage_cls]
    cases c <;> simp [clampClass]

theorem clampGroup_of_inRange {r : GroupRecord} (hg : Between 10 600 r.minGreen)
    (hk : match r.kind with
      | .vehicle => Between 0 30 r.prep ∧ Between 30 80 r.clearance
      | .pedestrian => r.prep = 0 ∧ Between 30 600 r.clearance) : clampGroup r = r := by
  cases r with | mk en kind prep mg cl fl ph => cases kind <;> simp_all [clampGroup, clamp_of_between]

theorem clampClass_of_inRange {c : PreClass} {r : ClassRecord} (h : ClassInRange c r) : clampClass c r = r := by
  obtain ⟨h1, h2, h3, h4, h5⟩ := h
  cases c with
  | rail => simp [clampClass, clamp_of_between h1, clamp_of_between h2, clamp_of_between h3]
  | emergency =>
    obtain ⟨h6, h7, h8⟩ := h5 rfl
    simp [clampClass, clamp_of_between h1, clamp_of_between h2, clamp_of_between h3, clamp_of_between h6, clamp_of_between h7,
      clamp_of_between h8]
  | transit =>
    simp [clampClass, clamp_of_between h1, clamp_of_between h2, clamp_of_between h3, clamp_of_between (h4 rfl)]

theorem tab_of_eq {α : Type} {n : Nat} {f : Fin n → α} {v : Vector α n} (h : ∀ i, f i = v[i]) : tab n f = v :=
  Vector.ext fun i hi => (tab_get f ⟨i, hi⟩).trans (h ⟨i, hi⟩)

theorem clampImage_of_inRange {m : Image} (h : TimingInRange m) : clampImage m = m := by
  obtain ⟨h1, h2, h3, h4, h5, h6, h7, h8, h9, hg, hi, hs, hp, hd, hn, hc⟩ := h
  have groups : (tab 16 fun g => clampGroup m.groups[g]) = m.groups :=
    tab_of_eq fun g => clampGroup_of_inRange (hg g).1 (hg g).2
  have inter : (tab 16 fun a => tab 16 fun g => m.intergreen[a][g].map (clamp 0 200)) = m.intergreen :=
    tab_of_eq fun a => tab_of_eq fun g => by
      cases hv : m.intergreen[a][g] with
      | none => rfl
      | some i => exact congrArg some (clamp_of_between ⟨Nat.zero_le i, hi a g i hv⟩)
  have stages : (tab 8 fun i => clampStage m.stages[i]) = m.stages :=
    tab_of_eq fun i => by rw [clampStage, clamp_of_between (hs i).1, clamp_of_between (hs i).2]
  have plans : (tab 4 fun i => clampPlan m.plans[i]) = m.plans :=
    tab_of_eq fun i => by rw [clampPlan, clamp_of_between (hp i)]
  have detectors : (tab 24 fun i => clampDetector m.detectors[i]) = m.detectors :=
    tab_of_eq fun i => by
      rw [clampDetector, clamp_of_between (hd i).1, clamp_of_between (hd i).2.1, clamp_of_between (hd i).2.2]
  have neighbors : m.neighbors.map clampNeighbor = m.neighbors := by
    refine (List.map_congr_left fun r hr => ?_).trans (List.map_id _)
    obtain ⟨w, t, th, hw⟩ := hn r hr
    rw [clampNeighbor, clamp_of_between w, clamp_of_between t, clamp_of_between th, clamp_of_between hw]
    rfl
  have classes : (tab 3 fun i => clampClass (classAt i) m.classes[i]) = m.classes :=
    tab_of_eq fun i => by
      have hci := clampClass_of_inRange (hc (classAt i))
      fin_cases i <;> exact hci
  rw [clampImage, groups, inter, stages, plans, detectors, neighbors, classes, clamp_of_between h1, clamp_of_between h2,
    clamp_of_between h3, clamp_of_between h4, clamp_of_between h5, clamp_of_between h6, clamp_of_between h7,
    clamp_of_between h8, clamp_of_between h9]

theorem clampedCount_self (m : Image) : clampedCount m m = 0 := by
  have zips : ((m.neighbors.zip m.neighbors).map fun p => neighborChanges p.1 p.2).sum = 0 := by
    have := sum_zip_map m.neighbors id neighborChanges
    simpa [neighborChanges] using this
  simp [clampedCount, total, groupChanges, stageChanges, detectorChanges, classChanges, zips]

/-- Settles O8: field by field for the records, and table by table for the list of timing fields and its count. -/
theorem clampingPutsTimingInRange : Obligations.ClampingPutsTimingInRange := by
  intro m
  refine ⟨timingInRange_clampImage m, timings_clampImage m, clampedCount_clampImage m, sameStructure_clampImage m, fun h => ?_⟩
  rw [clampImage_of_inRange h]
  exact ⟨rfl, clampedCount_self m⟩

end Sys2Proof.Machine

/-! The machine and the Time Base: power-on and reset, the law of the image (R181), TB at every command (R66) and the order of the
works of a tick (R24, R70). -/

namespace Sys2Proof.Machine

/-! ## Power-on and reset -/

/-- The fields that power-on sets, which a reset of the station and the state after reset share. -/
theorem powerOnValues_of_eq {t : State} (hos : t.os = OsState.reset) (hcf : t.cf = CfState.reset)
    (hge : t.ge = tab 16 fun _ => GroupState.reset) (hsq : t.sq = SqState.reset) (hdu : t.du = tab 24 fun _ => Det.reset)
    (hck : t.ck = CkState.reset) (hlu : t.lu = LuState.reset) (hnt : t.nt = NtState.reset) (hpl : t.pl = PlState.reset)
    (hpe : t.pe = PeState.reset) : PowerOnValues t := by
  simp only [PowerOnValues, hos, hcf, hsq, hck, hlu, hnt, hpl, hpe]
  refine ⟨⟨rfl, rfl, fun ch => tab_get _ ch, ⟨fun a b => ?_, fun ch i => ?_⟩, rfl, rfl⟩, ⟨rfl, rfl, rfl, rfl, rfl, rfl, rfl⟩,
    fun g => ?_, sequencerStopped_reset SqState.reset, ⟨rfl, fun g => tab_get _ g⟩, fun d => ?_,
    ⟨rfl, rfl, rfl, rfl, rfl, rfl, rfl, rfl, rfl, rfl, rfl, rfl⟩, rfl, rfl, ⟨rfl, rfl, rfl, rfl, rfl, rfl, rfl⟩, ⟨rfl, rfl⟩,
    fun p => ⟨tab_get _ p, tab_get _ p⟩, rfl, ⟨rfl, rfl⟩, fun p => tab_get _ p, rfl, rfl, rfl, rfl,
    preemptionCleared_reset 0 0, rfl, rfl, rfl⟩
  · show (tab 16 fun _ => tab 16 fun _ => 0)[a][b] = 0
    rw [tab_get, tab_get]
  · show (tab 16 fun _ => tab 3 fun _ => 0)[ch][i] = 0
    rw [tab_get, tab_get]
  · rw [hge, tab_get]
    rfl
  · rw [hdu, tab_get]
    rfl

/-- Settles O3: both resets make the station anew, with its pins, its free counter and its queue kept. -/
theorem powerOnAndResetPinValues : Obligations.PowerOnAndResetPinValues := by
  have values (s : State) : PowerOnValues (resetStation s) := powerOnValues_of_eq rfl rfl rfl rfl rfl rfl rfl rfl rfl rfl
  refine ⟨fun c s hc => ⟨resetStation s, ?_, values s, rfl, rfl, rfl, rfl, rfl, rfl, rfl, rfl, rfl⟩,
    powerOnValues_of_eq rfl rfl rfl rfl rfl rfl rfl rfl rfl rfl, rfl, rfl, rfl, rfl⟩
  rcases hc with rfl | rfl <;> rfl

theorem reset_group (g : Group) : State.reset.ge[g] = GroupState.reset := tab_get _ g
theorem reset_place (p : Place) : State.reset.nt.places[p] = none := tab_get _ p
theorem reset_class (c : PreClass) : State.reset.pe.cls c = ClassState.reset := tab_get _ (classIndex c)

/-- Settles O4: at reset no image is held, the tables are empty and every count is 0. -/
theorem resetMeetsEveryLaw : Obligations.ResetMeetsEveryLaw := by
  refine ⟨?mode, ?gate, ?intergreen, ?clock, ?balance, ?queue, ?line, ?table, ?age, ?platoon, ?stack, ?request, ?fault, ?stopped,
    ?phase, ?port, ?counter⟩
  case mode => exact ⟨fun _ => .inl rfl, fun _ => rfl⟩
  case gate => exact fun g => congrArg GroupState.phase (reset_group g)
  case intergreen => exact fun img h => absurd h (by simp [State.reset, CfState.reset])
  case clock => exact ⟨fun r h => absurd h (by simp [activePlan, State.reset, CfState.reset]), fun _ => rfl, fun _ => rfl,
    fun h => absurd rfl h⟩
  case balance => exact Nat.le_refl 0
  case queue => simp [QueueLaw, State.reset, LuState.reset, platoonFrames]
  case line => simp [LineLaw, State.reset, LuState.reset, CfState.reset]
  case table => simp [TableLaw, reset_place, -Fin.getElem_fin]
  case age => simp [AgeLaw, reset_place, -Fin.getElem_fin]
  case platoon => simp [PlatoonLaw, State.reset, PlState.reset]
  case stack => simp [StackLaw, State.reset, PeState.reset]
  case request => simp [RequestLaw, reset_class, ClassState.reset]
  case fault => simp [FaultLaw, State.reset, OsState.reset]
  case stopped => exact fun _ _ => rfl
  case phase => simp [PhaseLaw, State.reset, SqState.reset]
  case port => simp [PortLaw, State.reset, MpState.reset]
  case counter =>
    simp [CounterLaw, GroupState.reset, -Fin.getElem_fin, State.reset, OsState.reset, CfState.reset, NtState.reset, CkState.reset,
      EvalRecord.reset, PlState.reset, PeState.reset, LuState.reset, LineCounters.reset]

/-! ## The image (R181) -/

/-- Outside the Maintenance Port's work, a station in LOADING stays as it is at a tick: no work touches its mode. -/
theorem doWork_os_of_loading {began : Mode} {s : State} {w : Work} (hm : s.os.mode = .loading) (hi : s.cf.image = none)
    (hw : w ≠ .mp) : (doWork began s w).os = s.os := by
  cases w with
  | mp => exact absurd rfl hw
  | sequencer => exact congrArg State.os (if_neg (by simp [hm]))
  | supervisor =>
    have monitor (u : State) (hu : u.cf.image = none) : monitorWork u = u := by simp [monitorWork, hu]
    have timer (u : State) (hu : u.os.mode = .loading) : modeTimerWork began u = u := by
      simp [modeTimerWork, modeTimerRuns, hu]
    show (supervisorWork began s).os = s.os
    simp [supervisorWork, monitor s hi, timer s hm]
  | groups => exact (geWork_only s).os (by simp)
  | detectors => exact (duWork_only s).os (by simp)
  | clock => exact (ckWork_only s).os (by simp)
  | neighbors => exact (ntWork_only s).os (by simp)
  | platoonCountdown => exact (plQueueWork_only s).os (by simp)
  | greenTimers => exact (plTimerWork_only s).os (by simp)
  | preemption => exact (peWork_only s).os (by simp)

theorem doWork_cf {began : Mode} {s : State} {w : Work} (hw : w ≠ .mp) : (doWork began s w).cf = s.cf :=
  (doWork_blocks began s w).cf (by cases w <;> simp [Work.blocks] at hw ⊢)

theorem doWork_mp {began : Mode} {s : State} {w : Work} (hw : w ≠ .mp) : (doWork began s w).mp = s.mp :=
  (doWork_blocks began s w).mp (by cases w <;> simp [Work.blocks] at hw ⊢)

/-- Of the delivered commands RELOAD alone gives up the image. -/
theorem carryOut_cf {m : MpCommand} (hm : m ≠ .reload) (s : State) : (carryOut s m).cf = s.cf :=
  (carryOut_blocks m s).cf (by cases m <;> simp [MpCommand.blocks] at hm ⊢)

theorem deliver_image (m : MpCommand) (s : State) :
    (deliver m s).cf = s.cf ∨ (m = .reload ∧ (deliver m s).cf.image = none ∧ (deliver m s).os.mode = .loading) := by
  by_cases ha : mpStatus s m = .accepted
  · rw [deliver_accepted ha]
    by_cases hm : m = .reload
    · subst hm
      exact .inr ⟨rfl, rfl, rfl⟩
    · exact .inl (carryOut_cf hm s)
  · rw [deliver_refused ha]
    exact .inl rfl

/-- What a command in the transaction becomes at a tick from `s` on: it waits with the image untouched, or it has been delivered,
and then the image stands but after a RELOAD. -/
def ImageAtTick (s u : State) : Prop :=
  (u.mp = s.mp ∧ u.cf = s.cf) ∨
    pendingCommand u.mp = none ∧
      (u.cf = s.cf ∨ (pendingCommand s.mp = some .reload ∧ u.cf.image = none ∧ u.os.mode = .loading))

theorem pendingCommand_recordAnswer {c : MpCommand} {mp : MpState} (h : pendingCommand mp = some c) (x : List Byte) :
    pendingCommand (recordAnswer c x mp) = none := by
  rw [recordAnswer, if_pos h]
  rfl

theorem carryOut_mp (s : State) (c : MpCommand) : (carryOut s c).mp = s.mp := (carryOut_only c s).mp (by simp)

/-- R183: after its delivery a command is pending no more. -/
theorem pendingCommand_deliver {c : MpCommand} {s : State} (h : pendingCommand s.mp = some c) :
    pendingCommand (deliver c s).mp = none := by
  by_cases ha : mpStatus s c = .accepted
  · rw [deliver_accepted ha]
    exact pendingCommand_recordAnswer (by rw [carryOut_mp, h]) _
  · rw [deliver_refused ha]
    exact pendingCommand_recordAnswer h _

theorem mpWork_of_none {s : State} (h : pendingCommand s.mp = none) : mpWork s = s := by simp [mpWork, h]
theorem mpWork_of_some {s : State} {c : MpCommand} (h : pendingCommand s.mp = some c) : mpWork s = deliver c s := by
  simp [mpWork, h]

theorem imageAtTick_work {s : State} (began : Mode) (w : Work) (u : State) (h : ImageAtTick s u) :
    ImageAtTick s (doWork began u w) := by
  by_cases hw : w = .mp
  · subst hw
    show ImageAtTick s (mpWork u)
    cases hc : pendingCommand u.mp with
    | none => rwa [mpWork_of_none hc]
    | some c =>
      obtain ⟨hmp, hcf⟩ : u.mp = s.mp ∧ u.cf = s.cf := h.resolve_right fun hr => by simp [hr.1] at hc
      rw [mpWork_of_some hc]
      refine .inr ⟨pendingCommand_deliver hc, ?_⟩
      rcases deliver_image c u with hk | ⟨rfl, hi, hm⟩
      · exact .inl (hk.trans hcf)
      · exact .inr ⟨hmp ▸ hc, hi, hm⟩
  · rw [ImageAtTick, doWork_cf hw, doWork_mp hw]
    rcases h with ⟨hmp, hcf⟩ | ⟨hp, hcf | ⟨hr, hi, hm⟩⟩
    · exact .inl ⟨hmp, hcf⟩
    · exact .inr ⟨hp, .inl hcf⟩
    · exact .inr ⟨hp, .inr ⟨hr, hi, by rw [doWork_os_of_loading hm hi hw, hm]⟩⟩

theorem execTick_image (d : BitVec 24) (r : BitVec 3) (x : BitVec 48) (s : State) :
    ImageAtTick s (tickIn (workOrder s.free) d r x s) := by
  have h := works_keep (L := ImageAtTick s) (imageAtTick_work s.os.mode) (workOrder s.free) (beginTick d r x s) (.inl ⟨rfl, rfl⟩)
  rw [tickIn]
  generalize (workOrder s.free).foldl (doWork s.os.mode) (beginTick d r x s) = u at h
  exact h

/-- The loader's own events take place in LOADING alone. -/
theorem whenDue_of_not_loading {c : Bool} {s t : State} (hm : s.os.mode ≠ .loading) (hc : c = true → s.os.mode = .loading) :
    whenDue c t s = s := whenDue_false (Bool.eq_false_iff.mpr fun h => hm (hc h)) t s

/-- Settles O10: by the table of blocks only resets, loads, RELOAD and a TICK reach the loader, and a load's events are due in
LOADING alone. -/
theorem imageChangesOnlyByResetOrReload : Obligations.ImageChangesOnlyByResetOrReload := by
  intro c s t h hm hne
  have reached : Block.cf ∈ Instr.reaches c := by
    by_contra hcf
    exact hne (congrArg CfState.image ((exec_only h).cf hcf))
  have stuck {t' : State} (ht : t = t') (hs : t' = s) : False := hne (by rw [ht, hs])
  cases c with
  | powerOn => injection h with h; exact ⟨.inl rfl, h ▸ rfl, h ▸ rfl⟩
  | resetPin => injection h with h; exact ⟨.inr (.inl rfl), h ▸ rfl, h ▸ rfl⟩
  | headerRead header =>
    injection h with h
    exact (stuck h.symm (whenDue_of_not_loading hm fun hc => by simp_all [loading])).elim
  | memoryNoAcknowledge bs =>
    injection h with h
    exact (stuck h.symm (whenDue_of_not_loading hm fun hc => by simp_all)).elim
  | loadEnd body =>
    injection h with h
    exact (stuck h.symm (whenDue_of_not_loading hm fun hc => by simp_all [loading])).elim
  | tick d r x =>
    injection h with h
    rcases h ▸ execTick_image d r x s with ⟨-, hcf⟩ | ⟨-, hcf | ⟨hp, hi, hl⟩⟩
    · exact absurd (congrArg CfState.image hcf) hne
    · exact absurd (congrArg CfState.image hcf) hne
    · exact ⟨.inr (.inr (.inr ⟨⟨d, r, x, rfl⟩, hp⟩)), hi, hl⟩
  | reload =>
    injection h with h
    rcases h ▸ deliver_image .reload s with hcf | ⟨-, hi, hl⟩
    · exact absurd (congrArg CfState.image hcf) hne
    · exact ⟨.inr (.inr (.inl rfl)), hi, hl⟩
  | _ => simp [Instr.reaches] at reached

/-! ## The Time Base (R66) -/

theorem exec_tick (d : BitVec 24) (r : BitVec 3) (x : BitVec 48) (s : State) :
    exec (.tick d r x) s = .next (nextFree ((workOrder s.free).foldl (doWork s.os.mode) (beginTick d r x s))) := rfl

theorem advanceMark_iterate_m (n : Nat) (s : State) (h : s.tb.m < 1000) :
    (Nat.iterate advanceMark n s).tb.m = (s.tb.m + n) % 1000 := by
  induction n generalizing s with
  | zero => exact (Nat.mod_eq_of_lt h).symm
  | succ n ih =>
    rw [Function.iterate_succ_apply, ih (advanceMark s) (Nat.mod_lt _ (by decide))]
    show ((s.tb.m + 1) % 1000 + n) % 1000 = _
    omega

/-- Settles O11: of the rows a TICK and the resets alone reach TB, and the marks are remainders of M. -/
theorem timeBaseCountsTheTicks : Obligations.TimeBaseCountsTheTicks := by
  refine ⟨fun d r x s => ⟨_, exec_tick d r x s, ?_, ?_⟩, fun c s t h => ?_, fun s hm => ?_, fun n hn1 hn2 => ?_⟩
  · rw [(nextFree_only _).tb (by simp), (works_only _ _ _).tb (by simp)]
    rfl
  · rw [(nextFree_only _).pins (by simp), (works_only _ _ _).pins (by simp)]
    rfl
  · by_cases hc : Block.tb ∈ Instr.reaches c
    · cases c with
      | powerOn => injection h with h; exact h ▸ rfl
      | resetPin => injection h with h; exact h ▸ rfl
      | tick d r x => exact .inr ⟨d, r, x, rfl⟩
      | _ => simp [Instr.reaches] at hc
    · have same := (exec_only h).tb hc
      rw [if_neg]
      · exact .inl same
      · rintro (rfl | rfl) <;> simp [Instr.reaches] at hc
  · simp only [tenthMark, secondMark, disciplineMark, beq_iff_eq]
    refine ⟨⟨fun h => ⟨s.tb.m / 10, by omega⟩, fun ⟨k, h⟩ => by omega⟩, ⟨fun h => ⟨s.tb.m / 100, by omega⟩, fun ⟨k, h⟩ => by omega⟩,
      trivial, fun h => by omega, fun h => by omega⟩
  · have hm := advanceMark_iterate_m n State.reset (by decide)
    simp only [tenthMark, hm, beq_iff_eq]
    show (0 + n) % 1000 % 10 = 0 ↔ n = 10
    omega

/-! ## The order of the works of a tick (R24, R70) -/

theorem insertWork_perm (rank : Nat → Nat) (x : Nat × Work) (ws : List (Nat × Work)) :
    (insertWork rank x ws).Perm (x :: ws) := by
  induction ws with
  | nil => exact .refl _
  | cons y ws ih =>
    unfold insertWork
    split
    · exact .refl _
    · exact (ih.cons y).trans (.swap x y ws)

theorem foldl_insertWork_perm (rank : Nat → Nat) (xs : List (Nat × Work)) (acc : List (Nat × Work)) :
    (xs.foldl (fun acc x => insertWork rank x acc) acc).Perm (xs ++ acc) := by
  induction xs generalizing acc with
  | nil => exact .refl _
  | cons x xs ih => exact ((ih _).trans ((insertWork_perm rank x acc).append_left xs)).trans List.perm_middle

theorem rankedWorks_perm (rank : Nat → Nat) : (rankedWorks rank).Perm (allWorks.map (·.2)) := by
  simpa [rankedWorks] using (foldl_insertWork_perm rank allWorks []).map (·.2)

/-- The exchange of the Cycle Clock's work and the Stage Sequencer's. -/
def swapClock (w : Work) : Work := if w = .clock then .sequencer else if w = .sequencer then .clock else w

theorem swapClock_injective : Function.Injective swapClock := by
  intro a b h
  cases a <;> cases b <;> simp [swapClock] at h ⊢

theorem idxOf_swapClock (w : Work) (ws : List Work) : (ws.map swapClock).idxOf (swapClock w) = ws.idxOf w := by
  induction ws with
  | nil => rfl
  | cons v ws ih =>
    by_cases h : v = w
    · simp [h]
    · rw [List.map_cons, List.idxOf_cons_ne _ (swapClock_injective.ne h), List.idxOf_cons_ne _ h, ih]

theorem clockFirst_perm {ws : List Work} (h : ws.Perm (allWorks.map (·.2))) : (clockFirst ws).Perm (allWorks.map (·.2)) := by
  unfold clockFirst
  split
  · exact (h.map swapClock).trans (by decide)
  · exact h

theorem workOrder_perm (n : Nat) : (workOrder n).Perm (allWorks.map (·.2)) := clockFirst_perm (rankedWorks_perm _)

/-- The exchange brings the Cycle Clock's work before the Stage Sequencer's. -/
theorem standsBefore_clockFirst {ws : List Work} (h : Work.clock ∈ ws) : standsBefore .clock .sequencer (clockFirst ws) = true := by
  unfold clockFirst
  split
  next hb =>
    have hc := idxOf_swapClock .sequencer ws
    have hs := idxOf_swapClock .clock ws
    simp only [standsBefore, decide_eq_true_eq] at hb ⊢
    exact hc.trans_lt (hb.trans_eq hs.symm)
  next hb =>
    simp only [standsBefore, decide_eq_true_eq, Nat.not_lt] at hb ⊢
    exact lt_of_le_of_ne hb fun he => Work.noConfusion ((List.idxOf_inj h).mp he)

theorem modeTimerWork_of_idle {began : Mode} {s : State}
    (h : s.os.mode ≠ began ∨ tenthMark s = false ∨ (s.os.mode ≠ .startFlash ∧ s.os.mode ≠ .startRed)) :
    modeTimerWork began s = s := by
  refine if_neg fun hc => ?_
  simp only [modeTimerRuns, Bool.and_eq_true, Bool.or_eq_true, beq_iff_eq] at hc
  obtain ⟨⟨hten, hruns⟩, hbegan⟩ := hc
  rcases h with h | h | ⟨h1, h2⟩
  · exact h hbegan
  · rw [h] at hten
    exact Bool.noConfusion hten
  · exact hruns.elim h1 h2

theorem modeTimerWork_of_due {began : Mode} {s : State} (hb : s.os.mode = began) (ht : tenthMark s = true)
    (hm : s.os.mode = .startFlash ∨ s.os.mode = .startRed) :
    modeTimerWork began s = if s.os.timer - 1 = 0 then modeAfterTimer (s.withOs { s.os with timer := s.os.timer - 1 })
      else s.withOs { s.os with timer := s.os.timer - 1 } := by
  have hruns : modeTimerRuns s = true := by simpa [modeTimerRuns] using hm
  exact if_pos (by simp [hb, ht, hruns])

/-- Settles O12: the ranks sort the ten works, and the exchange of two of them keeps each once. -/
theorem tickTakesEveryWorkOnce : Obligations.TickTakesEveryWorkOnce := by
  refine ⟨fun n => ⟨workOrder_perm n, standsBefore_clockFirst ((rankedWorks_perm _).mem_iff.mpr (by decide))⟩, exec_tick,
    fun began s => ⟨rfl, ?_, modeTimerWork_of_idle, fun hb ht hm h1 => ?_⟩⟩
  · show supervisorWork began s = _ ∨ supervisorWork began s = _
    unfold supervisorWork
    split
    · exact .inl rfl
    · exact .inr rfl
  · rw [modeTimerWork_of_due hb ht hm, if_neg (by omega)]

/-! ## One work of a tick -/

/-- No other work of a tick reaches the block, but for a delivered command. -/
def OnlyBy (w : Work) (b : Block) : Prop := ∀ v, v ≠ .mp → v ≠ w → b ∉ v.blocks

theorem doWork_pendingCommand {began : Mode} {s : State} {w : Work} (h : pendingCommand s.mp = none) :
    (doWork began s w).mp = s.mp := by
  by_cases hw : w = .mp
  · subst hw
    exact congrArg State.mp (mpWork_of_none h)
  · exact doWork_mp hw

theorem Block.same_refl (b : Block) (s : State) : b.Same s s := Only.refl [] s b (by simp)

theorem Block.same_trans {b : Block} {s t u : State} (h : b.Same s t) (k : b.Same t u) : b.Same s u := by
  cases b <;> exact Eq.trans k h

/-- With no command pending, works leave the blocks that none of them reaches. -/
theorem works_leave {b : Block} {began : Mode} : ∀ (ws : List Work) (s : State), pendingCommand s.mp = none →
    (∀ w ∈ ws, w ≠ .mp → b ∉ w.blocks) → b.Same s (ws.foldl (doWork began) s)
  | [], s, _, _ => b.same_refl s
  | w :: ws, s, hp, h => by
    have hfirst : b.Same s (doWork began s w) := by
      by_cases hw : w = .mp
      · subst hw
        show b.Same s (mpWork s)
        rw [mpWork_of_none hp]
        exact b.same_refl s
      · exact doWork_blocks began s w b (h w (by simp) hw)
    exact Block.same_trans hfirst <| works_leave ws (doWork began s w) (by rw [doWork_pendingCommand hp, hp])
      fun v hv => h v (List.mem_cons_of_mem w hv)

theorem works_pendingCommand {began : Mode} : ∀ (ws : List Work) (s : State), pendingCommand s.mp = none →
    pendingCommand (ws.foldl (doWork began) s).mp = none
  | [], _, h => h
  | w :: ws, s, h => works_pendingCommand ws (doWork began s w) (by rw [doWork_pendingCommand h, h])

theorem workOrder_nodup (n : Nat) : (workOrder n).Nodup := (workOrder_perm n).nodup_iff.mpr (by decide)

theorem mem_workOrder (n : Nat) (w : Work) : w ∈ workOrder n :=
  (workOrder_perm n).mem_iff.mpr (by cases w <;> decide)

/-- A work of a tick among the others: those before it and those after it. -/
theorem workOrder_split (n : Nat) (w : Work) : ∃ before after, workOrder n = before ++ w :: after ∧ w ∉ before ∧ w ∉ after := by
  obtain ⟨before, after, h⟩ := List.append_of_mem (mem_workOrder n w)
  have hn := h ▸ workOrder_nodup n
  rw [List.nodup_middle, List.nodup_cons, List.mem_append, not_or] at hn
  exact ⟨before, after, h, hn.1.1, hn.1.2⟩

/-- A TICK with no command pending, seen from one of its works: at the work the blocks that the others leave stand as the tick
began, and after the tick they stand as the work leaves them. -/
theorem tick_at (w : Work) (d : BitVec 24) (r : BitVec 3) (x : BitVec 48) {s : State} (hp : pendingCommand s.mp = none) :
    ∃ u t, exec (.tick d r x) s = .next t ∧ pendingCommand u.mp = none ∧ ∀ b, OnlyBy w b →
      b.Same (beginTick d r x s) u ∧ (b ≠ .free → b.Same (doWork s.os.mode u w) t) := by
  obtain ⟨before, after, horder, hbefore, hafter⟩ := workOrder_split s.free w
  have hp' : pendingCommand (beginTick d r x s).mp = none := hp
  have hu := works_pendingCommand (began := s.os.mode) before _ hp'
  refine ⟨before.foldl (doWork s.os.mode) (beginTick d r x s), _, exec_tick d r x s, hu, fun b hb => ⟨?_, fun hfree => ?_⟩⟩
  · exact works_leave before _ hp' fun v hv hne => hb v hne fun h => hbefore (h ▸ hv)
  · rw [horder, List.foldl_append, List.foldl_cons]
    refine Block.same_trans (works_leave after _ (by rw [doWork_pendingCommand hu, hu]) fun v hv hne => ?_)
      ((nextFree_only _) b (by simpa using hfree))
    exact hb v hne fun h => hafter (h ▸ hv)

/-! ## What a load's events can do -/

/-- A load goes on or ends without an image: the loader's own fields change, and NO-PLAN FLASH may be entered. -/
def LoadGoesOn (s t : State) : Prop :=
  s.os.mode = .loading ∧ ∃ cf : CfState, cf.image = s.cf.image ∧ (cf.clamped = s.cf.clamped ∨ cf.clamped ≤ 255) ∧
    (t = s.withCf cf ∨ t = (s.withCf cf).withOs { s.os with mode := .noPlanFlash })

/-- A load ends with a valid image. -/
def LoadTaken (s t : State) : Prop :=
  s.os.mode = .loading ∧ ∃ (raw : Image) (position : Nat), structuralCause (clampImage raw) = .none ∧
    t = completeLoad (clampImage raw) (clampedCount raw (clampImage raw)) (s.withCf { s.cf with position := position })

theorem clampedCount_le (a b : Image) : clampedCount a b ≤ 255 := Nat.min_le_left _ _

theorem whenDue_cases (c : Bool) (t s : State) : (c = true ∧ whenDue c t s = t) ∨ whenDue c t s = s := by
  cases c
  · exact .inr rfl
  · exact .inl ⟨rfl, rfl⟩

theorem headerRead_cases {h : Vector Byte 18} {s t : State} (ht : exec (.headerRead h) s = .next t) :
    t = s ∨ LoadGoesOn s t := by
  injection ht with ht
  subst ht
  refine (whenDue_cases _ _ s).symm.imp_right fun ⟨hc, h1⟩ => ?_
  have hm : s.os.mode = .loading := by
    simp only [loading, Bool.and_eq_true, beq_iff_eq] at hc
    exact hc.1
  rw [h1]
  split
  · exact ⟨hm, { s.cf with position := 18, buffer := h.toList, load := .readingBody }, rfl, .inl rfl, .inl rfl⟩
  · exact ⟨hm, { s.cf with position := 18, load := .ended, cause := headerCause h.toList, clamped := 0, buffer := [] }, rfl,
      .inr (Nat.zero_le _), .inr rfl⟩

theorem memoryNoAcknowledge_cases {bs : List Byte} {s t : State} (ht : exec (.memoryNoAcknowledge bs) s = .next t) :
    t = s ∨ LoadGoesOn s t := by
  injection ht with ht
  subst ht
  refine (whenDue_cases _ _ s).symm.imp_right fun ⟨hc, h1⟩ => ?_
  have hm : s.os.mode = .loading := by
    simp only [Bool.and_eq_true, beq_iff_eq] at hc
    exact hc.1.1
  rw [h1]
  exact ⟨hm, { s.cf with
    overrun := true, position := s.cf.position + bs.length, load := .ended, cause := .overrun, clamped := 0, buffer := [] }, rfl,
    .inr (Nat.zero_le _), .inr rfl⟩

theorem loadEnd_cases {body : List Byte} {s t : State} (ht : exec (.loadEnd body) s = .next t) :
    t = s ∨ LoadGoesOn s t ∨ LoadTaken s t := by
  injection ht with ht
  subst ht
  refine (whenDue_cases _ _ s).symm.imp_right fun ⟨hc, h1⟩ => ?_
  have hm : s.os.mode = .loading := by
    simp only [loading, Bool.and_eq_true, beq_iff_eq] at hc
    exact hc.1.1
  have rejected (cause : LoadCause) {n : Nat} (hn : n ≤ 255) :
      LoadGoesOn s (failLoad cause n (s.withCf { s.cf with position := s.cf.position + body.length })) :=
    ⟨hm, { s.cf with
      position := s.cf.position + body.length, load := .ended, cause := cause, clamped := n, buffer := [] }, rfl, .inr hn, .inr rfl⟩
  rw [h1]
  unfold judgeImage
  split
  · exact .inl (rejected _ (by decide))
  · dsimp only
    split
    · exact .inr ⟨hm, _, _, ‹_›, rfl⟩
    · exact .inl (rejected _ (clampedCount_le _ _))

end Sys2Proof.Machine

/-! Chapters 4 and 5: the Cycle Clock. The rounding of the average (R91), and the law of the position and of the balance (R71,
R96) at every operation that reaches the clock. -/

namespace Sys2Proof.Machine

/-! ## The average (R91) -/

/-- The magnitude of the average. -/
def roundedQuotient (n w : Nat) : Nat := (2 * n + w) / (2 * w)

/-- The rounded quotient misses by half a unit at most, and reaches half a unit only upwards. -/
theorem roundedQuotient_bounds (n : Nat) {w : Nat} (hw : 0 < w) :
    2 * (roundedQuotient n w * w) ≤ 2 * n + w ∧ 2 * n < 2 * (roundedQuotient n w * w) + w := by
  have hdiv := Nat.div_add_mod (2 * n + w) (2 * w)
  have hlt := Nat.mod_lt (2 * n + w) (by omega : 0 < 2 * w)
  have hmul : 2 * w * ((2 * n + w) / (2 * w)) = 2 * (roundedQuotient n w * w) := by
    rw [roundedQuotient, Nat.mul_assoc, Nat.mul_comm w]
  omega

theorem average_of_neg {sum : Int} (h : sum < 0) (w : Nat) : average sum w = -(roundedQuotient sum.natAbs w : Int) := if_pos h
theorem average_of_nonneg {sum : Int} (h : 0 ≤ sum) (w : Nat) : average sum w = roundedQuotient sum.natAbs w :=
  if_neg (by omega)

theorem average_nearest (sum : Int) {w : Nat} (hw : 0 < w) : 2 * (average sum w * w - sum).natAbs ≤ w := by
  have h := roundedQuotient_bounds sum.natAbs hw
  rcases lt_or_ge sum 0 with hs | hs
  · rw [average_of_neg hs, neg_mul]
    norm_cast
    omega
  · rw [average_of_nonneg hs]
    norm_cast
    omega

/-- R91: a tie goes away from zero. -/
theorem average_tie (sum : Int) {w : Nat} (hw : 0 < w) (h : 2 * (average sum w * w - sum).natAbs = w) :
    sum.natAbs < (average sum w * w).natAbs := by
  have hb := roundedQuotient_bounds sum.natAbs hw
  rcases lt_or_ge sum 0 with hs | hs
  · rw [average_of_neg hs, neg_mul] at h ⊢
    norm_cast at h ⊢
    omega
  · rw [average_of_nonneg hs] at h ⊢
    norm_cast at h ⊢
    omega

theorem average_nonneg {sum : Int} (h : 0 ≤ sum) (w : Nat) : 0 ≤ average sum w := by
  rw [average_of_nonneg h]
  exact Int.natCast_nonneg _

theorem average_nonpos {sum : Int} (h : sum ≤ 0) (w : Nat) (hw : 0 < w) : average sum w ≤ 0 := by
  rcases lt_or_eq_of_le h with hs | rfl
  · rw [average_of_neg hs]
    omega
  · have hq : roundedQuotient 0 w = 0 := Nat.div_eq_of_lt (by omega)
    rw [average_of_nonneg le_rfl, Int.natAbs_zero, hq]
    rfl

/-- A sum of at most `h` for each unit of weight averages to at most `h`. -/
theorem average_le {sum : Int} {w h : Nat} (hw : 0 < w) (hs : sum ≤ (h : Int) * w) (hn : 0 ≤ sum) : average sum w ≤ h := by
  rw [average_of_nonneg hn]
  have hb := roundedQuotient_bounds sum.natAbs hw
  by_contra hc
  have hq : h + 1 ≤ roundedQuotient sum.natAbs w := by omega
  have hm := Nat.mul_le_mul_right w hq
  have hs' : sum.natAbs ≤ h * w := by
    have : (sum.natAbs : Int) ≤ ((h * w : Nat) : Int) := by rw [Nat.cast_mul]; omega
    exact_mod_cast this
  rw [Nat.add_mul] at hm
  omega

theorem average_ge {sum : Int} {w h : Nat} (hw : 0 < w) (hs : -(h : Int) * w ≤ sum) (hn : sum ≤ 0) : -(h : Int) ≤ average sum w := by
  rcases lt_or_eq_of_le hn with hn | rfl
  · rw [average_of_neg hn]
    have hb := roundedQuotient_bounds sum.natAbs hw
    by_contra hc
    have hq : h + 1 ≤ roundedQuotient sum.natAbs w := by omega
    have hm := Nat.mul_le_mul_right w hq
    have hs' : sum.natAbs ≤ h * w := by
      have : (sum.natAbs : Int) ≤ ((h * w : Nat) : Int) := by
        rw [neg_mul] at hs
        rw [Nat.cast_mul]
        omega
      exact_mod_cast this
    rw [Nat.add_mul] at hm
    omega
  · have := average_nonneg (le_refl 0) w
    omega

theorem average_natAbs_le {sum : Int} {w h : Nat} (hw : 0 < w) (hs : sum.natAbs ≤ h * w) : (average sum w).natAbs ≤ h := by
  have hs' : (sum.natAbs : Int) ≤ (h : Int) * w := by exact_mod_cast hs
  rcases le_total 0 sum with hn | hn
  · have h1 := average_le (h := h) hw (by omega) hn
    have h2 := average_nonneg hn w
    omega
  · have h1 := average_ge (h := h) hw (by rw [neg_mul]; omega) hn
    have h2 := average_nonpos hn w hw
    omega

/-! ## The discipline evaluation (R89 to R94) -/

theorem wrappedError_natAbs_le {c : Nat} (hc : 0 < c) (e r : Nat) : 2 * (wrappedError c e r).natAbs ≤ c := by
  have hlt := Nat.mod_lt (e + c - r % c) hc
  simp only [wrappedError]
  split <;> omega

theorem weightedSum_natAbs_le {h c : Nat} (hc : 0 < c) (he : c = 2 * h) (r : Nat) (es : List Entry) :
    (weightedSum c r es).natAbs ≤ h * totalWeight es := by
  induction es with
  | nil => simp [weightedSum, totalWeight]
  | cons e es ih =>
    have herr := wrappedError_natAbs_le hc (estimate c e) r
    have hmul : ((e.weight : Int) * wrappedError c (estimate c e) r).natAbs ≤ e.weight * h := by
      rw [Int.natAbs_mul, Int.natAbs_natCast]
      exact Nat.mul_le_mul_left _ (by omega)
    have hsum : weightedSum c r (e :: es) = (e.weight : Int) * wrappedError c (estimate c e) r + weightedSum c r es := rfl
    have hw : totalWeight (e :: es) = e.weight + totalWeight es := rfl
    rw [hsum, hw, Nat.mul_add, Nat.mul_comm h]
    exact (Int.natAbs_add_le _ _).trans (Nat.add_le_add hmul ih)

theorem applyDeadband_natAbs_le (d : Int) (n : Nat) : (applyDeadband d n).natAbs ≤ d.natAbs := by
  unfold applyDeadband
  split <;> simp

/-- R96: an evaluation's correction is at most half the cycle. -/
theorem discipline_b {img : Image} {es : List Entry} {r : Nat} {k : CkState} (hc : 0 < k.c) (heven : k.c % 2 = 0)
    (hb : 2 * k.b.natAbs ≤ k.c) : 2 * (discipline img es r k).b.natAbs ≤ k.c := by
  unfold discipline
  dsimp only
  split
  · exact hb
  next hw =>
    have hsum := weightedSum_natAbs_le hc (by omega : k.c = 2 * (k.c / 2)) r es
    have havg := average_natAbs_le (Nat.pos_of_ne_zero hw) hsum
    have hgain := gainMagnitude_le (average (weightedSum k.c r es) (totalWeight es)).natAbs img.gainShift
    rw [← gain_natAbs] at hgain
    have hdead := applyDeadband_natAbs_le (gain (average (weightedSum k.c r es) (totalWeight es)) img.gainShift) img.deadband
    show 2 * (applyDeadband _ _).natAbs ≤ k.c
    omega

/-- An evaluation writes B and the record alone. -/
theorem discipline_rest (img : Image) (es : List Entry) (r : Nat) (k : CkState) :
    discipline img es r k = { k with b := (discipline img es r k).b, record := (discipline img es r k).record } := by
  unfold discipline
  dsimp only
  split <;> rfl

/-! ## The law of the clock (R71, R96) -/

/-- The laws of the position and of the balance, of the image and the clock they read. -/
def ClockBounds (image : Option Image) (k : CkState) : Prop :=
  (∀ img p, image = some img → k.active = some p → k.c = 100 * img.plans[p].cycle) ∧ (k.active = none → k.c = 0) ∧
    (k.c = 0 → k.p = 0) ∧ (k.c ≠ 0 → k.p < k.c) ∧ 2 * k.b.natAbs ≤ k.c

theorem activePlan_eq_some {s : State} {r : PlanRecord} :
    activePlan s = some r ↔ ∃ img p, s.cf.image = some img ∧ s.ck.active = some p ∧ img.plans[p] = r := by
  unfold activePlan
  cases s.cf.image <;> cases s.ck.active <;> simp

theorem clockBounds_iff (s : State) : ClockLaw s ∧ BalanceLaw s ↔ ClockBounds s.cf.image s.ck := by
  simp only [ClockLaw, BalanceLaw, ClockBounds, activePlan_eq_some, and_assoc]
  refine and_congr_left fun _ => ⟨fun h img p hi hp => h _ ⟨img, p, hi, hp, rfl⟩, ?_⟩
  rintro h r ⟨img, p, hi, hp, rfl⟩
  exact h img p hi hp

/-- The clock with the same plan and position, and a balance no larger. -/
theorem ClockBounds.of_same {image : Option Image} {k k' : CkState} (h : ClockBounds image k) (ha : k'.active = k.active)
    (hc : k'.c = k.c) (hp : k'.p = k.p) (hb : k'.b.natAbs ≤ k.b.natAbs) : ClockBounds image k' := by
  simp only [ClockBounds, ha, hc, hp] at h ⊢
  exact ⟨h.1, h.2.1, h.2.2.1, h.2.2.2.1, by omega⟩

theorem clockBounds_reset : ClockBounds none CkState.reset :=
  ⟨nofun, fun _ => rfl, fun _ => rfl, fun h => absurd rfl h, le_refl 0⟩

/-- A position moved within the cycle. -/
theorem ClockBounds.of_mod {image : Option Image} {k k' : CkState} {x : Nat} (h : ClockBounds image k) (ha : k'.active = k.active)
    (hc : k'.c = k.c) (hpos : k.c ≠ 0) (hp : k'.p = x % k.c) (hb : k'.b.natAbs ≤ k.b.natAbs) : ClockBounds image k' := by
  obtain ⟨h1, h2, h3, h4, h5⟩ := h
  simp only [ClockBounds, ha, hc, hp]
  exact ⟨h1, h2, fun h0 => absurd h0 hpos, fun _ => Nat.mod_lt _ (Nat.pos_of_ne_zero hpos), by omega⟩

theorem ClockBounds.jumpIn {image : Option Image} {k : CkState} (h : ClockBounds image k) (hpos : k.c ≠ 0) (e : Entry) :
    ClockBounds image (jumpIn e k) :=
  h.of_mod rfl rfl hpos rfl (Nat.zero_le _)

theorem ClockBounds.missJumpIn {image : Option Image} {k : CkState} (h : ClockBounds image k) :
    ClockBounds image (missJumpIn k) := by
  unfold Machine.missJumpIn
  split <;> exact h.of_same rfl rfl rfl (le_refl _)

theorem ClockBounds.passMark {image : Option Image} {k : CkState} (h : ClockBounds image k) : ClockBounds image (passMark k) :=
  h.of_same rfl rfl rfl (le_refl _)

theorem payout_natAbs (b : Int) (slew : Nat) : (b - payout b slew).natAbs ≤ b.natAbs := by
  unfold payout
  dsimp only
  split <;> omega

theorem ClockBounds.advance {image : Option Image} {k : CkState} {pay : Int} (h : ClockBounds image k) (hpos : k.c ≠ 0)
    (hpay : (k.b - pay).natAbs ≤ k.b.natAbs) : ClockBounds image (advance pay k) :=
  h.of_mod rfl rfl hpos rfl hpay

/-- R77: an adopted plan starts at position 0. -/
theorem clockBounds_adopt (img : Image) (p : Plan) (k : CkState) : ClockBounds (some img) (adopt img.plans[p] p k) := by
  refine ⟨?_, nofun, fun _ => rfl, fun h => Nat.pos_of_ne_zero h, ?_⟩
  · intro img' p' hi hp
    injection hi with hi
    injection hp with hp
    rw [← hi, ← hp]
    rfl
  · exact Nat.zero_le _

/-- The law of a state, and what carries it. -/
def ClockOk (s : State) : Prop := ClockBounds s.cf.image s.ck

theorem ClockOk.of_eq {s t : State} (h : ClockOk s) (hi : t.cf.image = s.cf.image) (hk : t.ck = s.ck) : ClockOk t := by
  rw [ClockOk, hi, hk]
  exact h

theorem ClockOk.withCk {s : State} {k : CkState} (h : ClockBounds s.cf.image k) : ClockOk (s.withCk k) := h

theorem ClockOk.c_of_active {s : State} {img : Image} {p : Plan} (h : ClockOk s) (hi : s.cf.image = some img)
    (ha : s.ck.active = some p) : s.ck.c = 100 * img.plans[p].cycle := h.1 img p hi ha

/-- A coordinated plan has a cycle of an even number of ticks above 0. -/
theorem ClockOk.coordinated {s : State} (h : ClockOk s) (hc : coordinatedActive s = true) :
    s.ck.c ≠ 0 ∧ s.ck.c % 2 = 0 := by
  obtain ⟨r, hr, h0⟩ := coordinatedActive_eq_true.mp hc
  obtain ⟨img, p, hi, ha, rfl⟩ := activePlan_eq_some.mp hr
  have hcyc := h.c_of_active hi ha
  omega

theorem synchronise_keeps (img : Image) {s : State} (h : ClockOk s) : ClockOk (synchronise img s) := by
  unfold synchronise
  split
  next hc =>
    obtain ⟨hpos, heven⟩ := h.coordinated hc
    split
    · split
      · exact ClockOk.withCk (ClockBounds.passMark (h.jumpIn hpos _))
      · exact ClockOk.withCk (ClockBounds.passMark h.missJumpIn)
    · obtain ⟨h1, h2, h3, h4, h5⟩ := h
      refine ClockOk.withCk ?_
      have hb := discipline_b (img := img) (es := contributors s) (r := reference s) (Nat.pos_of_ne_zero hpos) heven h5
      rw [discipline_rest]
      exact ⟨h1, h2, h3, h4, hb⟩
  · exact ClockOk.withCk (ClockBounds.passMark h)

theorem followPlan_keeps (img : Image) {s : State} (h : ClockOk s) : ClockOk (followPlan img s) := by
  unfold followPlan
  repeat' split
  · exact h
  · exact h
  · exact ClockOk.withCk (ClockBounds.of_same h rfl rfl rfl (le_refl _))
  · exact h

theorem markStage_keeps (img : Image) {s : State} (h : ClockOk s) : ClockOk (markStage img s) := by
  unfold markStage
  split
  · exact followPlan_keeps img (synchronise_keeps img h)
  · exact h

/-- The beacon count and the plan-hold timer alone change at the second mark. -/
theorem countBeacon_ck (img : Image) (s : State) :
    (countBeacon img s).ck = { s.ck with
      beaconCount := if s.ck.beaconCount < img.beaconPeriod then s.ck.beaconCount + 1 else s.ck.beaconCount } := by
  unfold countBeacon
  split
  · dsimp only
    split
    · exact (offer_only _ _).ck (by simp)
    · rfl
  · rfl

theorem secondStage_ck (img : Image) (s : State) :
    (secondStage img s).ck = if secondMark s = true then { s.ck with
      planHold := s.ck.planHold - 1,
      beaconCount := if s.ck.beaconCount < img.beaconPeriod then s.ck.beaconCount + 1 else s.ck.beaconCount } else s.ck := by
  unfold secondStage
  split
  · show ({ (countBeacon img s).ck with planHold := (countBeacon img s).ck.planHold - 1 } : CkState) = _
    rw [countBeacon_ck]
  · rfl

theorem secondStage_only (img : Image) (s : State) : Only [.ck, .lu] s (secondStage img s) := by
  unfold secondStage
  split
  · exact (countBeacon_only img s).trans ((withCk_only _ _).mono (by simp))
  · exact Only.refl _ s

theorem countBeacon_keeps (img : Image) {s : State} (h : ClockOk s) : ClockOk (countBeacon img s) := by
  have hcf : (countBeacon img s).cf = s.cf := (countBeacon_only img s).cf (by simp)
  rw [ClockOk, hcf, countBeacon_ck]
  exact h.of_same rfl rfl rfl (le_refl _)

theorem secondStage_keeps (img : Image) {s : State} (h : ClockOk s) : ClockOk (secondStage img s) := by
  rw [ClockOk, (secondStage_only img s).cf (by simp), secondStage_ck]
  split
  · exact h.of_same rfl rfl rfl (le_refl _)
  · exact h

theorem adoptPending_keeps {img : Image} {s : State} (hi : s.cf.image = some img) (h : ClockOk s) :
    ClockOk (adoptPending img s) := by
  unfold adoptPending
  split
  · exact h
  · show ClockBounds s.cf.image _
    rw [hi]
    exact clockBounds_adopt img _ s.ck

theorem payoutNow_natAbs (img : Image) (s : State) : (s.ck.b - payoutNow img s).natAbs ≤ s.ck.b.natAbs := by
  unfold payoutNow
  split
  · exact payout_natAbs _ _
  · simp

theorem runCycle_keeps {img : Image} {s : State} (r : PlanRecord) (hi : s.cf.image = some img) (hpos : s.ck.c ≠ 0)
    (h : ClockOk s) : ClockOk (runCycle img r s) := by
  have hadv : ClockBounds s.cf.image (advance (payoutNow img s) s.ck) := ClockBounds.advance h hpos (payoutNow_natAbs img s)
  unfold runCycle
  dsimp only
  split
  · exact adoptPending_keeps hi (ClockOk.withCk hadv)
  · exact ClockOk.withCk (ClockBounds.of_same hadv rfl rfl rfl (le_refl _))

theorem markStage_only (img : Image) (s : State) : Only [.ck] s (markStage img s) := by
  unfold markStage
  split
  · exact (synchronise_only img s).trans (followPlan_only img _)
  · exact Only.refl _ s

/-- The mark's work leaves the plan: its cycle length stands. -/
theorem markStage_plan (img : Image) (s : State) :
    (markStage img s).ck.active = s.ck.active ∧ (markStage img s).ck.c = s.ck.c ∧ (markStage img s).ck.o = s.ck.o := by
  have follow (u : State) : (followPlan img u).ck.active = u.ck.active ∧ (followPlan img u).ck.c = u.ck.c ∧
      (followPlan img u).ck.o = u.ck.o := by
    unfold followPlan
    repeat' split
    all_goals exact ⟨rfl, rfl, rfl⟩
  have sync : (synchronise img s).ck.active = s.ck.active ∧ (synchronise img s).ck.c = s.ck.c ∧
      (synchronise img s).ck.o = s.ck.o := by
    unfold synchronise
    split
    · split
      · split
        · exact ⟨rfl, rfl, rfl⟩
        · simp only [missJumpIn]
          split <;> exact ⟨rfl, rfl, rfl⟩
      · show (discipline img _ _ s.ck).active = _ ∧ (discipline img _ _ s.ck).c = _ ∧ (discipline img _ _ s.ck).o = _
        rw [discipline_rest]
        exact ⟨rfl, rfl, rfl⟩
    · exact ⟨rfl, rfl, rfl⟩
  unfold markStage
  split
  · obtain ⟨f1, f2, f3⟩ := follow (synchronise img s)
    exact ⟨f1.trans sync.1, f2.trans sync.2.1, f3.trans sync.2.2⟩
  · exact ⟨rfl, rfl, rfl⟩

theorem ckWork_keeps {s : State} (h : ClockOk s) : ClockOk (ckWork s) := by
  unfold ckWork
  split
  next img r hi hr =>
    dsimp only
    have hs : ClockOk (secondStage img (markStage img s)) := secondStage_keeps img (markStage_keeps img h)
    have hi' : (secondStage img (markStage img s)).cf.image = some img := by
      rw [(secondStage_only img _).cf (by simp), (markStage_only img s).cf (by simp), hi]
    split
    next hc =>
      split
      · exact ClockOk.withCk (ClockBounds.of_same hs rfl rfl rfl (le_refl _))
      · refine runCycle_keeps r hi' ?_ hs
        have hcc : (secondStage img (markStage img s)).ck.c = s.ck.c := by
          rw [secondStage_ck]
          split <;> exact (markStage_plan img s).2.1
        rw [hcc]
        exact (h.coordinated (coordinatedActive_eq_true.mpr ⟨r, hr, (isCoordinated_iff r).mp hc⟩)).1
    · split
      · exact adoptPending_keeps hi' hs
      · exact ClockOk.withCk (ClockBounds.of_same hs rfl rfl rfl (le_refl _))
  · exact h

/-- R83: the plan a load makes active starts at its offset, which the checks put within the cycle. -/
theorem completeLoad_clockOk {m : Image} (hc : CyclePointsOk m) (n : Nat) (s : State) : ClockOk (completeLoad m n s) := by
  have hoff := hc 0
  obtain ⟨⟨ha, -, hcyc, hzero, hpos, -, hb, -⟩, -⟩ := completeLoad_clockAndLine m n s
  refine ⟨?_, fun h => ?_, fun h => ?_, fun h => ?_, ?_⟩
  · intro img p hi hp
    rw [completeLoad_eq] at hi
    injection hi with hi
    rw [ha] at hp
    injection hp with hp
    rw [← hi, ← hp]
    exact hcyc
  · rw [ha] at h
    nomatch h
  · exact (hzero (by omega)).2.1
  · obtain ⟨ho, hp, -⟩ := hpos (by omega)
    have hlt := (hoff (by omega)).1
    omega
  · rw [hb]
    exact Nat.zero_le _

/-- The end of an attempt touches the clock's beacon count alone. -/
theorem reportFinished_ck (f : TxFrame) (s : State) :
    (reportFinished f s).ck = if f = .beacon then { s.ck with beaconCount := 0 } else s.ck := by
  unfold reportFinished
  split <;> rfl

theorem reportFinished_keeps (f : TxFrame) {s : State} (h : ClockOk s) : ClockOk (reportFinished f s) := by
  rw [ClockOk, (reportFinished_only f s).cf (by simp), reportFinished_ck]
  split
  · exact h.of_same rfl rfl rfl (le_refl _)
  · exact h

theorem attemptFailed_keeps {s : State} (h : ClockOk s) : ClockOk (attemptFailed s) := by
  unfold attemptFailed
  split
  · exact h
  · dsimp only
    split
    · exact h.of_eq rfl rfl
    · exact reportFinished_keeps _ (h.of_eq rfl rfl)

theorem attemptSucceeded_keeps {s : State} (h : ClockOk s) : ClockOk (attemptSucceeded s) := by
  unfold attemptSucceeded
  split
  · exact h
  · exact reportFinished_keeps _ (h.of_eq rfl rfl)

theorem receiveByte_keeps (b : Byte) (framingError : Bool) {s : State} (h : ClockOk s) :
    ClockOk (receiveByte b framingError s) := by
  have assembled : ClockOk (assemble (endsAttempt s b framingError) b framingError (s.withLu { s.lu with busy := true })) := by
    have only := assemble_only (endsAttempt s b framingError) b framingError (s.withLu { s.lu with busy := true })
    exact h.of_eq (by rw [only.cf (by simp)]; rfl) (only.ck (by simp))
  unfold receiveByte readback
  dsimp only
  repeat' split
  · exact assembled
  · exact attemptFailed_keeps assembled
  · exact attemptSucceeded_keeps assembled
  · exact assembled.of_eq rfl rfl

theorem restartLine_keeps {s : State} (h : ClockOk s) : ClockOk (restartLine s) := by
  unfold restartLine
  split
  · exact h.of_eq rfl rfl
  · dsimp only
    split
    · exact (reportFinished_keeps .beacon h).of_eq rfl rfl
    · exact h.of_eq rfl rfl

theorem restartClock_keeps {s : State} (h : ClockOk s) : ClockOk (restartClock s) := by
  unfold restartClock
  dsimp only
  split <;> exact ClockOk.withCk (ClockBounds.of_same h rfl rfl rfl (Nat.zero_le _))

theorem selectPlan_keeps (img : Image) (p : Plan) {s : State} (h : ClockOk s) : ClockOk (selectPlan img p s) := by
  unfold selectPlan
  split
  · exact h
  · exact ClockOk.withCk (ClockBounds.of_same h rfl rfl rfl (le_refl _))

theorem blockRestart_keeps (arg : Nat) {s : State} (h : ClockOk s) : ClockOk (blockRestartEffect arg s) := by
  unfold blockRestartEffect
  split
  · exact restartLine_keeps h
  · split
    · exact restartClock_keeps (h.of_eq rfl rfl)
    · have only := blockRestartDetectors_only s
      exact h.of_eq (by rw [only.cf (by simp)]) (only.ck (by simp))

theorem LoadGoesOn.clockOk {s t : State} (hl : LoadGoesOn s t) (h : ClockOk s) : ClockOk t := by
  obtain ⟨-, cf, hi, -, rfl | rfl⟩ := hl
  · exact h.of_eq hi rfl
  · exact h.of_eq hi rfl

theorem structuralCause_none {m : Image} (h : structuralCause m = .none) :
    AddressOk m ∧ SymmetryOk m ∧ IntergreenOk m ∧ NoStageConflict m ∧ StageGroupsOk m ∧ SomeStageEnabled m ∧
      StageReferencesOk m ∧ CycleLengthsOk m ∧ CyclePointsOk m := (firstFailingCheckGivesTheCause m).1.mp h

theorem LoadTaken.clockOk {s t : State} (hl : LoadTaken s t) : ClockOk t := by
  obtain ⟨-, raw, position, hc, rfl⟩ := hl
  obtain ⟨-, -, -, -, -, -, -, -, hpoints⟩ := structuralCause_none hc
  exact completeLoad_clockOk hpoints _ _

/-- An event that is due changes the state as its row says, and one that is not changes nothing. -/
theorem whenDue_keeps {L : State → Prop} {c : Bool} {t s : State} (ht : c = true → L t) (hs : L s) : L (whenDue c t s) := by
  unfold whenDue
  split
  · exact ht ‹_›
  · exact hs

theorem clockOk_event {c : Instr} {s t : State} (ht : touches [.cf, .ck] (Instr.reaches c) = true)
    (hc : Instr.isEvent c = true) (h : ClockOk s) (hx : exec c s = .next t) : ClockOk t := by
  cases c with
  | powerOn => injection hx with hx; exact hx ▸ clockBounds_reset
  | resetPin => injection hx with hx; exact hx ▸ clockBounds_reset
  | headerRead header => exact (headerRead_cases hx).elim (fun e => e ▸ h) fun hl => hl.clockOk h
  | memoryNoAcknowledge bs => exact (memoryNoAcknowledge_cases hx).elim (fun e => e ▸ h) fun hl => hl.clockOk h
  | loadEnd body => exact (loadEnd_cases hx).elim (fun e => e ▸ h) fun hl => hl.elim (fun hg => hg.clockOk h) fun ht => ht.clockOk
  | unsyncGiveUp =>
    injection hx with hx
    exact hx ▸ whenDue_keeps (fun _ => ClockOk.withCk (ClockBounds.missJumpIn h)) h
  | holdEnd =>
    injection hx with hx
    exact hx ▸ whenDue_keeps (fun _ => ClockOk.withCk (ClockBounds.of_same h rfl rfl rfl (le_refl _))) h
  | planAdoption =>
    injection hx with hx
    rw [← hx]
    split
    · exact h
    · exact whenDue_keeps (fun _ => adoptPending_keeps ‹_› h) h
  | beaconDue =>
    injection hx with hx
    rw [← hx]
    split
    · exact h
    · exact whenDue_keeps (fun _ => countBeacon_keeps _ h) h
  | planHoldExpiry =>
    injection hx with hx
    exact hx ▸ whenDue_keeps (fun _ => ClockOk.withCk (ClockBounds.of_same h rfl rfl rfl (le_refl _))) h
  | byteReceived b e =>
    injection hx with hx
    exact hx ▸ whenDue_keeps (fun _ => receiveByte_keeps b e h) h
  | frameReceived b =>
    injection hx with hx
    exact hx ▸ whenDue_keeps (fun _ => receiveByte_keeps b false h) h
  | byteNotReceivedBack =>
    injection hx with hx
    exact hx ▸ whenDue_keeps (fun _ => attemptFailed_keeps h) h
  | _ => first | exact (Bool.false_ne_true ht).elim | exact (Bool.false_ne_true hc).elim

/-- Settles O32: every operation that reaches the clock keeps the position within the cycle and makes the balance no larger, but
for an evaluation, whose correction is at most half the cycle. -/
theorem positionAndBalanceStayInTheCycle : Obligations.PositionAndBalanceStayInTheCycle := by
  have reads : Reads [.cf, .ck] fun s => ClockLaw s ∧ BalanceLaw s := by
    intro s t same h
    rw [clockBounds_iff] at h ⊢
    have hcf : t.cf = s.cf := same .cf (by simp)
    have hck : t.ck = s.ck := same .ck (by simp)
    rwa [hcf, hck]
  refine reads.kept (by decide) (fun c s t ht hc h hx => ?_) (fun m s ht _ h => ?_) fun w began s ht hw h => ?_
  · rw [clockBounds_iff] at h ⊢
    exact clockOk_event ht hc h hx
  · rw [clockBounds_iff] at h ⊢
    cases m with
    | selectPlan a =>
      show ClockOk (selectPlanEffect a s)
      unfold selectPlanEffect
      split
      · exact selectPlan_keeps _ _ h
      · exact h
    | reload => exact clockBounds_reset
    | blockRestart a => exact blockRestart_keeps a.toNat h
    | _ => exact (Bool.false_ne_true ht).elim
  · rw [clockBounds_iff] at h ⊢
    cases w with
    | clock => exact ckWork_keeps h
    | mp => exact absurd rfl hw
    | _ => exact (Bool.false_ne_true ht).elim

end Sys2Proof.Machine

/-! Chapter 6: the corridor line. The sequence generator (R109), the law of the transmit queue (R103) under an offer, and the law
of the access states (R104, R106 to R110) under every operation of the Line Unit. -/

namespace Sys2Proof.Machine

/-! ## The sequence generator (R109) -/

theorem sequenceStep_getLsbD_zero (r : BitVec 16) :
    (sequenceStep r).getLsbD 0 = (r.getLsbD 15 ^^ r.getLsbD 13 ^^ r.getLsbD 12 ^^ r.getLsbD 10) := by
  unfold sequenceStep
  generalize (r.getLsbD 15 ^^ r.getLsbD 13 ^^ r.getLsbD 12 ^^ r.getLsbD 10) = feedback
  cases feedback <;> simp

theorem sequenceStep_getLsbD_succ (r : BitVec 16) {i : Nat} (hi : i < 15) :
    (sequenceStep r).getLsbD (i + 1) = r.getLsbD i := by
  unfold sequenceStep
  generalize (r.getLsbD 15 ^^ r.getLsbD 13 ^^ r.getLsbD 12 ^^ r.getLsbD 10) = feedback
  have hlow : (if feedback = true then 1#16 else 0#16).getLsbD (i + 1) = false := by cases feedback <;> simp [BitVec.getLsbD_one]
  rw [BitVec.getLsbD_or, hlow, Bool.or_false, BitVec.getLsbD_shiftLeft]
  simp [-BitVec.getLsbD_eq_getElem, (by omega : i + 1 < 16)]

/-- A register of zeros comes from zeros alone: the low fifteen bits move up, and then the feedback is the high bit. -/
theorem sequenceStep_ne_zero {r : BitVec 16} (h : r ≠ 0) : sequenceStep r ≠ 0 := by
  intro hz
  have low {i : Nat} (hi : i < 15) : r.getLsbD i = false := by
    rw [← sequenceStep_getLsbD_succ r hi, hz]
    exact BitVec.getLsbD_zero
  have high : r.getLsbD 15 = false := by
    have h0 := sequenceStep_getLsbD_zero r
    rw [hz, low (by decide : 13 < 15), low (by decide : 12 < 15), low (by decide : 10 < 15)] at h0
    simpa using h0.symm
  refine h (BitVec.eq_of_getLsbD_eq fun i hi => ?_)
  rcases Nat.lt_or_ge i 15 with hi' | hi'
  · rw [low hi']
    exact BitVec.getLsbD_zero.symm
  · rw [(by omega : i = 15), high]
    exact BitVec.getLsbD_zero.symm

/-! ## The transmit queue (R103 to R105) -/

theorem sameSlot_iff (f : TxFrame) (q : Queued) :
    sameSlot f q = true ↔ kindRank q.frame = kindRank f ∧ (kindRank f = 2 → frameTarget q.frame = frameTarget f) := by
  simp only [sameSlot, Bool.and_eq_true, beq_iff_eq, Bool.or_eq_true, bne_iff_ne, ← imp_iff_not_or]

theorem sameSlot_comm (a b : Queued) : sameSlot a.frame b = sameSlot b.frame a := by
  rw [Bool.eq_iff_iff, sameSlot_iff, sameSlot_iff]
  constructor <;> rintro ⟨h1, h2⟩ <;> exact ⟨h1.symm, fun h => (h2 (h1 ▸ h)).symm⟩

/-- The queue's law but for its length, of the queue and the number of the next entry. -/
def QueueOk (queue : List Queued) (next : Nat) : Prop :=
  platoonFrames queue ≤ 3 ∧ queue.Pairwise (fun a b => sameSlot a.frame b = false) ∧ queue.Pairwise queuedBefore ∧
    ∀ q ∈ queue, q.entered < next

theorem QueueOk.sublist {q r : List Queued} {n m : Nat} (h : QueueOk q n) (hs : r.Sublist q) (hn : n ≤ m) : QueueOk r m := by
  obtain ⟨hp, hslot, horder, hent⟩ := h
  exact ⟨(hs.countP_le ..).trans hp, hslot.sublist hs, horder.sublist hs, fun x hx => (hent x (hs.subset hx)).trans_le hn⟩

/-- At most one frame of a kind other than PLATOON. -/
theorem countP_kind_le_one {queue : List Queued} (h : queue.Pairwise fun a b => sameSlot a.frame b = false) {k : Nat}
    (hk : k ≠ 2) : queue.countP (fun q => kindRank q.frame == k) ≤ 1 := by
  induction queue with
  | nil => exact Nat.zero_le _
  | cons x l ih =>
    obtain ⟨hx, hl⟩ := List.pairwise_cons.mp h
    rw [List.countP_cons]
    by_cases hxk : kindRank x.frame = k
    · have hnone : l.countP (fun q => kindRank q.frame == k) = 0 := by
        refine List.countP_eq_zero.mpr fun y hy hyk => ?_
        have hyk' : kindRank y.frame = k := by simpa using hyk
        have hslot := (sameSlot_iff x.frame y).mpr ⟨hyk'.trans hxk.symm, fun h2 => absurd (hxk ▸ h2) hk⟩
        simp [hx y hy] at hslot
      rw [hnone]
      split <;> omega
    · simpa [hxk] using ih hl

theorem kindRank_lt (f : TxFrame) : kindRank f < 4 := by cases f <;> simp [kindRank]

theorem length_eq_kinds (queue : List Queued) :
    queue.length = queue.countP (fun q => kindRank q.frame == 0) + queue.countP (fun q => kindRank q.frame == 1) +
      platoonFrames queue + queue.countP (fun q => kindRank q.frame == 3) := by
  induction queue with
  | nil => rfl
  | cons x l ih =>
    have hx := kindRank_lt x.frame
    simp only [platoonFrames, List.length_cons, List.countP_cons, beq_iff_eq] at ih ⊢
    rw [ih]
    interval_cases kindRank x.frame <;> simp <;> omega

theorem queueLaw_iff (s : State) : QueueLaw s ↔ QueueOk s.lu.queue s.lu.nextEntry := by
  refine ⟨fun ⟨_, h⟩ => h, fun h => ⟨?_, h⟩⟩
  obtain ⟨hp, hslot, -, -⟩ := h
  have h0 := countP_kind_le_one hslot (k := 0) (by decide)
  have h1 := countP_kind_le_one hslot (k := 1) (by decide)
  have h3 := countP_kind_le_one hslot (k := 3) (by decide)
  have hlen := length_eq_kinds s.lu.queue
  omega

theorem queuedBefore_rank {a b : Queued} (h : queuedBefore a b) : kindRank a.frame ≤ kindRank b.frame :=
  h.elim Nat.le_of_lt fun h => Nat.le_of_eq h.1

/-- R103: a new frame's place is behind every frame of its own and of higher kinds. -/
theorem pairwise_insertQueued {x : Queued} {queue : List Queued} (h : queue.Pairwise queuedBefore)
    (hx : ∀ q ∈ queue, q.entered < x.entered) : (insertQueued x queue).Pairwise queuedBefore := by
  induction queue with
  | nil => exact List.pairwise_singleton _ _
  | cons q l ih =>
    obtain ⟨hq, hl⟩ := List.pairwise_cons.mp h
    unfold insertQueued
    split
    next hlt =>
      refine List.pairwise_cons.mpr ⟨fun y hy => .inl ?_, h⟩
      rcases List.mem_cons.mp hy with rfl | hy
      · exact hlt
      · exact hlt.trans_le (queuedBefore_rank (hq y hy))
    next hge =>
      refine List.pairwise_cons.mpr ⟨fun y hy => ?_, ih hl fun y hy => hx y (List.mem_cons_of_mem q hy)⟩
      rcases mem_insertQueued.mp hy with rfl | hy
      · rcases Nat.lt_or_eq_of_le (Nat.le_of_not_lt hge) with h | h
        · exact .inl h
        · exact .inr ⟨h, hx q (by simp)⟩
      · exact hq y hy

theorem QueueOk.insert {queue : List Queued} {n : Nat} {f : TxFrame} (h : QueueOk queue n)
    (hnew : queue.any (sameSlot f) = false) (hp : kindRank f = 2 → platoonFrames queue < 3) :
    QueueOk (insertQueued { frame := f, entered := n } queue) (n + 1) := by
  obtain ⟨hcount, hslot, horder, hent⟩ := h
  have hperm := insertQueued_perm { frame := f, entered := n } queue
  refine ⟨?_, ?_, pairwise_insertQueued horder hent, fun q hq => ?_⟩
  · rw [platoonFrames, hperm.countP_eq, List.countP_cons]
    simp only [platoonFrames, beq_iff_eq] at hcount hp ⊢
    split
    · have := hp ‹_›
      omega
    · omega
  · refine (hperm.pairwise_iff (fun {a b} h => sameSlot_comm b a ▸ h)).mpr (List.pairwise_cons.mpr ⟨fun q hq => ?_, hslot⟩)
    exact Bool.eq_false_iff.mpr fun hs => Bool.eq_false_iff.mp hnew (List.any_eq_true.mpr ⟨q, hq, hs⟩)
  · rcases mem_insertQueued.mp hq with rfl | hq
    · exact Nat.lt_succ_self n
    · exact (hent q hq).trans (Nat.lt_succ_self n)

/-- R104: the frame of the same kind and target replaced in its place. -/
def replaceQueued (f : TxFrame) (q : Queued) : Queued := if sameSlot f q then { q with frame := f } else q

@[simp] theorem replaceQueued_entered (f : TxFrame) (q : Queued) : (replaceQueued f q).entered = q.entered := by
  unfold replaceQueued
  split <;> rfl

/-- A replacement keeps the kind, and of a PLATOON the target. -/
theorem replaceQueued_slot (f : TxFrame) (q : Queued) : kindRank (replaceQueued f q).frame = kindRank q.frame ∧
    (kindRank q.frame = 2 → frameTarget (replaceQueued f q).frame = frameTarget q.frame) := by
  unfold replaceQueued
  split
  next h =>
    obtain ⟨hr, ht⟩ := (sameSlot_iff f q).mp h
    exact ⟨hr.symm, fun h2 => (ht (hr ▸ h2)).symm⟩
  · exact ⟨rfl, fun _ => rfl⟩

theorem sameSlot_replaceQueued (f : TxFrame) (a b : Queued) :
    sameSlot (replaceQueued f a).frame (replaceQueued f b) = sameSlot a.frame b := by
  obtain ⟨ha, hta⟩ := replaceQueued_slot f a
  obtain ⟨hb, htb⟩ := replaceQueued_slot f b
  rw [Bool.eq_iff_iff, sameSlot_iff, sameSlot_iff, ha, hb]
  refine and_congr_right fun h => imp_congr_right fun h2 => ?_
  rw [hta h2, htb (h.trans h2)]

theorem QueueOk.replace {queue : List Queued} {n : Nat} (f : TxFrame) (h : QueueOk queue n) :
    QueueOk (queue.map (replaceQueued f)) n := by
  obtain ⟨hcount, hslot, horder, hent⟩ := h
  refine ⟨?_, ?_, ?_, fun q hq => ?_⟩
  · rw [platoonFrames, List.countP_map]
    refine (Nat.le_of_eq ?_).trans hcount
    exact List.countP_congr fun q _ => by simp [(replaceQueued_slot f q).1]
  · exact List.pairwise_map.mpr (hslot.imp fun {a b} h => (sameSlot_replaceQueued f a b).trans h)
  · refine List.pairwise_map.mpr (horder.imp fun {a b} h => ?_)
    simpa only [queuedBefore, (replaceQueued_slot f a).1, (replaceQueued_slot f b).1, replaceQueued_entered] using h
  · obtain ⟨x, hx, rfl⟩ := List.mem_map.mp hq
    rw [replaceQueued_entered]
    exact hent x hx

theorem purgeQueue_sublist (f : TxFrame) (queue : List Queued) : (purgeQueue f queue).Sublist queue := by
  unfold purgeQueue
  split
  · exact List.filter_sublist
  · exact List.Sublist.refl _

/-- R104, R105: the queue after an offer. -/
theorem QueueOk.offer {lu : LuState} (f : TxFrame) (h : QueueOk lu.queue lu.nextEntry) :
    QueueOk (queueAfterOffer lu f) (if offerAnswer lu f = .placed then lu.nextEntry + 1 else lu.nextEntry) := by
  unfold queueAfterOffer
  rcases offerAnswer_cases lu f with ⟨ha, -⟩ | ⟨ha, -, -⟩ | ⟨ha, -⟩ | ⟨ha, -, hnew, hp⟩ <;> simp only [ha, reduceCtorEq, if_false, if_true]
  · exact h
  · exact (h.replace f).sublist (purgeQueue_sublist f _) (le_refl _)
  · exact h
  · exact (h.insert hnew hp).sublist (purgeQueue_sublist f _) (le_refl _)

/-- From `s` to `t` the queue has lost frames at most. -/
def QueueThinned (s t : State) : Prop := t.lu.queue.Sublist s.lu.queue ∧ s.lu.nextEntry ≤ t.lu.nextEntry

theorem QueueThinned.refl (s : State) : QueueThinned s s := ⟨List.Sublist.refl _, le_refl _⟩
theorem QueueThinned.trans {s t u : State} (h : QueueThinned s t) (k : QueueThinned t u) : QueueThinned s u :=
  ⟨k.1.trans h.1, h.2.trans k.2⟩

theorem QueueThinned.of_lu {s t : State} (h : t.lu = s.lu) : QueueThinned s t := by
  rw [QueueThinned, h]
  exact ⟨List.Sublist.refl _, le_refl _⟩

theorem QueueThinned.law {s t : State} (h : QueueThinned s t) (hs : QueueLaw s) : QueueLaw t :=
  (queueLaw_iff t).mpr (((queueLaw_iff s).mp hs).sublist h.1 h.2)

theorem startAttempt_thins (s : State) : QueueThinned s (startAttempt s) := by
  refine ⟨?_, Nat.le_of_eq (startAttempt_nextEntry s).symm⟩
  rcases startAttempt_queue s with h | ⟨q, -, h⟩
  · rw [h]
  · rw [h]
    exact List.sublist_cons_self _ _

theorem drawBackoff_thins (s : State) : QueueThinned s (drawBackoff s) := by
  unfold drawBackoff
  dsimp only
  split
  · exact QueueThinned.trans (t := s.withLu _) ⟨List.Sublist.refl _, le_refl _⟩ (startAttempt_thins _)
  · exact ⟨List.Sublist.refl _, le_refl _⟩

theorem leaveIdle_thins (s : State) : QueueThinned s (leaveIdle s) := by
  unfold leaveIdle
  repeat' split
  · exact ⟨List.Sublist.refl _, le_refl _⟩
  · exact drawBackoff_thins s
  · exact QueueThinned.refl s

theorem offer_keeps_queue (f : TxFrame) {s : State} (h : QueueLaw s) : QueueLaw (offer f s) := by
  refine (leaveIdle_thins _).law ((queueLaw_iff _).mpr ?_)
  exact ((queueLaw_iff s).mp h).offer f

/-! ## The access states (R104, R106 to R110) -/

/-- The law of the access states, of the image and the Line Unit it reads. -/
def LineOk (image : Option Image) (u : LuState) : Prop :=
  (u.access = .disabled ↔ image = none) ∧ (∀ img, image = some img → 1 ≤ img.address ∧ img.address ≤ 62) ∧
    (u.driverEnable = true ↔ u.access = .sending) ∧ (u.sending.isSome = true ↔ u.access = .sending) ∧
    (u.access = .sending → u.inHand.isSome = true) ∧
    (u.access = .idle ∨ u.access = .disabled → u.queue = [] ∧ u.inHand = none) ∧
    (2 ≤ u.exponent ∧ u.exponent ≤ 5) ∧
    (∀ h, u.inHand = some h → 1 ≤ h.attempts ∧ h.attempts ≤ 6 ∧ (u.access ≠ .sending → h.attempts ≤ 5)) ∧
    (u.access ≠ .disabled → u.sequence ≠ 0)

theorem lineLaw_iff (s : State) : LineLaw s ↔ LineOk s.cf.image s.lu := Iff.rfl

/-- The law of a Line Unit between attempts, which may have work while it is still IDLE. -/
def LineReady (image : Option Image) (u : LuState) : Prop :=
  image ≠ none ∧ (∀ img, image = some img → 1 ≤ img.address ∧ img.address ≤ 62) ∧ u.access ≠ .disabled ∧
    u.access ≠ .sending ∧ u.driverEnable = false ∧ u.sending = none ∧ (2 ≤ u.exponent ∧ u.exponent ≤ 5) ∧
    (∀ h, u.inHand = some h → 1 ≤ h.attempts ∧ h.attempts ≤ 5) ∧ u.sequence ≠ 0

theorem LineOk.ready {image : Option Image} {u : LuState} (h : LineOk image u) (hd : u.access ≠ .disabled)
    (hs : u.access ≠ .sending) : LineReady image u := by
  obtain ⟨h1, h2, h3, h4, h5, h6, h7, h8, h9⟩ := h
  refine ⟨mt h1.mpr hd, h2, hd, hs, by simpa [hs] using h3, by simpa [hs] using h4, h7, fun x hx => ?_, h9 hd⟩
  exact ⟨(h8 x hx).1, (h8 x hx).2.2 hs⟩

/-- A Line Unit between attempts meets the law unless it idles over work. -/
theorem LineReady.ok {image : Option Image} {u : LuState} (h : LineReady image u)
    (hi : u.access = .idle → u.queue = [] ∧ u.inHand = none) : LineOk image u := by
  obtain ⟨h1, h2, h3, h4, h5, h6, h7, h8, h9⟩ := h
  refine ⟨by simp [h1, h3], h2, by simp [h4, h5], by simp [h4, h6], fun hs => absurd hs h4,
    fun ha => ha.elim hi fun hd => absurd hd h3, h7, fun x hx => ?_, fun _ => h9⟩
  obtain ⟨hlo, hhi⟩ := h8 x hx
  exact ⟨hlo, by omega, fun _ => hhi⟩

/-- Of the Line Unit the law reads no line state, assembler, counters, CLASH, slots or number of the next entry. -/
theorem LineOk.of_eq {image : Option Image} {u v : LuState} (h : LineOk image u) (ha : v.access = u.access)
    (hd : v.driverEnable = u.driverEnable) (hs : v.sending.isSome = u.sending.isSome) (hi : v.inHand = u.inHand)
    (hq : v.queue = u.queue) (he : v.exponent = u.exponent) (hr : v.sequence = u.sequence) : LineOk image v := by
  simpa only [LineOk, ha, hd, hs, hi, hq, he, hr] using h

theorem startAttempt_ok {s : State} (h : LineReady s.cf.image s.lu) : LineOk s.cf.image (startAttempt s).lu := by
  have sends {f : TxFrame} {n : Nat} {queue : List Queued} (h1 : 1 ≤ n) (h6 : n ≤ 6) :
      LineOk s.cf.image { s.lu with
        access := .sending, busy := true, driverEnable := true, inHand := some { frame := f, attempts := n }, queue := queue,
        slots := 0, sending := some { bytes := frameBytes s f, next := 0 } } := by
    obtain ⟨hi, haddr, -, -, -, -, hexp, -, hseq⟩ := h
    refine ⟨by simp [hi], haddr, by simp, by simp, by simp, by simp, hexp, fun x hx => ?_, fun _ => hseq⟩
    injection hx with hx
    subst hx
    exact ⟨h1, h6, fun hne => absurd rfl hne⟩
  unfold startAttempt
  dsimp only
  split
  next x hx =>
    obtain ⟨-, -, -, -, -, -, -, hatt, -⟩ := h
    obtain ⟨h1, h5⟩ := hatt x hx
    exact sends (by omega) (by omega)
  · exact sends (le_refl 1) (by decide)
  next hx hq =>
    obtain ⟨hi, haddr, -, -, hdrv, hsend, hexp, hatt, hseq⟩ := h
    refine LineReady.ok ⟨hi, haddr, ?_, ?_, hdrv, hsend, hexp, hatt, hseq⟩ fun _ => ⟨hq, hx⟩ <;> exact Access.noConfusion

theorem drawBackoff_ok {s : State} (h : LineReady s.cf.image s.lu) : LineOk s.cf.image (drawBackoff s).lu := by
  obtain ⟨hi, haddr, hdis, hnsend, hdrv, hsend, hexp, hatt, hseq⟩ := h
  have drawn (k : Nat) : LineReady s.cf.image
      { s.lu with sequence := sequenceStep s.lu.sequence, slots := k, access := .backoff } :=
    ⟨hi, haddr, Access.noConfusion, Access.noConfusion, hdrv, hsend, hexp, hatt, sequenceStep_ne_zero hseq⟩
  unfold drawBackoff
  dsimp only
  split
  · exact startAttempt_ok (s := s.withLu _) (drawn _)
  · exact (drawn _).ok Access.noConfusion

theorem leaveIdle_ok {s : State} (hidle : s.lu.access = .idle → LineReady s.cf.image s.lu ∧ s.lu.inHand = none)
    (hother : s.lu.access ≠ .idle → LineOk s.cf.image s.lu) : LineOk s.cf.image (leaveIdle s).lu := by
  unfold leaveIdle
  by_cases ha : s.lu.access = .idle
  · obtain ⟨hready, hhand⟩ := hidle ha
    by_cases hq : s.lu.queue = []
    · rw [if_neg fun h => h.2 hq]
      exact hready.ok fun _ => ⟨hq, hhand⟩
    · rw [if_pos ⟨ha, hq⟩]
      split
      · obtain ⟨h1, h2, -, -, h5, h6, h7, h8, h9⟩ := hready
        exact LineReady.ok ⟨h1, h2, Access.noConfusion, Access.noConfusion, h5, h6, h7, h8, h9⟩ Access.noConfusion
      · exact drawBackoff_ok hready
  · rw [if_neg fun h => ha h.1]
    exact hother ha

/-- R104, R107: an offer leaves IDLE with work, and no other state. -/
theorem offer_ok (f : TxFrame) {s : State} (h : LineOk s.cf.image s.lu) : LineOk s.cf.image (offer f s).lu := by
  refine leaveIdle_ok (s := s.withLu _) (fun ha => ?_) (fun ha => ?_)
  · have hidle : s.lu.access = .idle := ha
    obtain ⟨h1, h2, h3, h4, h5, h6, h7, h8, h9⟩ := h.ready (by simp [hidle]) (by simp [hidle])
    exact ⟨⟨h1, h2, h3, h4, h5, h6, h7, h8, h9⟩, (h.2.2.2.2.2.1 (.inl hidle)).2⟩
  · obtain ⟨h1, h2, h3, h4, h5, h6, h7, h8, h9⟩ := h
    refine ⟨h1, h2, h3, h4, h5, fun hd => ?_, h7, h8, h9⟩
    have hdis : s.lu.access = .disabled := Or.resolve_left hd ha
    obtain ⟨hq, hhand⟩ := h6 (.inr hdis)
    exact ⟨by simp [queueAfterOffer, offerAnswer, hdis, hq], hhand⟩

/-! ### The end of an attempt -/

theorem accessAfter_cases (queue : List Queued) :
    (accessAfter queue = .idle ∧ queue = []) ∨ (accessAfter queue = .defer ∧ queue ≠ []) := by
  unfold accessAfter
  split
  · exact .inl ⟨rfl, ‹_›⟩
  · exact .inr ⟨rfl, ‹_›⟩

/-- R106, R107: the frame in hand finished. -/
theorem LineOk.finished {image : Option Image} {u v : LuState} (h : LineOk image u) (hs : u.access = .sending)
    (ha : v.access = accessAfter u.queue) (hq : v.queue = u.queue) (hd : v.driverEnable = false) (hse : v.sending = none)
    (hi : v.inHand = none) (he : v.exponent = 2) (hr : v.sequence = u.sequence) : LineOk image v := by
  obtain ⟨h1, h2, -, -, -, -, -, -, h9⟩ := h
  have hdis : u.access ≠ .disabled := by simp [hs]
  have hacc := accessAfter_cases u.queue
  refine LineReady.ok ⟨mt h1.mpr hdis, h2, ?_, ?_, hd, hse, by omega, by simp [hi], hr ▸ h9 hdis⟩ fun hidle => ⟨?_, hi⟩
  · rcases hacc with ⟨h, -⟩ | ⟨h, -⟩ <;> simp [ha, h]
  · rcases hacc with ⟨h, -⟩ | ⟨h, -⟩ <;> simp [ha, h]
  · rcases hacc with ⟨-, h⟩ | ⟨h, -⟩
    · rw [hq, h]
    · simp [ha, h] at hidle

theorem reportFinished_lu (f : TxFrame) (s : State) : (reportFinished f s).lu = s.lu :=
  (reportFinished_only f s).lu (by simp)

theorem attemptSucceeded_ok {s : State} (h : LineOk s.cf.image s.lu) (hs : s.lu.access = .sending) :
    LineOk s.cf.image (attemptSucceeded s).lu := by
  unfold attemptSucceeded
  split
  · exact h
  · rw [reportFinished_lu]
    exact h.finished hs rfl rfl rfl rfl rfl rfl rfl

theorem attemptFailed_ok {s : State} (h : LineOk s.cf.image s.lu) (hs : s.lu.access = .sending) :
    LineOk s.cf.image (attemptFailed s).lu := by
  unfold attemptFailed
  split
  · exact h
  next x hx =>
    dsimp only
    split
    next hlt =>
      obtain ⟨h1, h2, -, -, -, -, h7, h8, h9⟩ := h
      have hdis : s.lu.access ≠ .disabled := by simp [hs]
      refine LineReady.ok ⟨mt h1.mpr hdis, h2, Access.noConfusion, Access.noConfusion, rfl, rfl, ?_, fun y hy => ?_, h9 hdis⟩
        Access.noConfusion
      · show 2 ≤ min (s.lu.exponent + 1) 5 ∧ min (s.lu.exponent + 1) 5 ≤ 5
        omega
      · obtain rfl : x = y := Option.some.inj (hx.symm.trans hy)
        exact ⟨(h8 x hx).1, by omega⟩
    · rw [reportFinished_lu]
      exact h.finished hs rfl rfl rfl rfl rfl rfl rfl

/-! ### What the other blocks do to the Line Unit

Every block but the Line Unit reaches it by offers alone (R103). -/

/-- From `s` to `t` the Line Unit has taken offers and nothing else, and the image in use is the same. -/
inductive Offers : State → State → Prop
  | same {s t : State} (hlu : t.lu = s.lu) (hcf : t.cf = s.cf) : Offers s t
  | offer (f : TxFrame) (s : State) : Offers s (offer f s)
  | trans {s t u : State} (h : Offers s t) (k : Offers t u) : Offers s u

theorem Offers.refl (s : State) : Offers s s := .same rfl rfl

theorem Offers.of_only {bs : List Block} {s t : State} (h : Only bs s t) (hl : Block.lu ∉ bs) (hc : Block.cf ∉ bs) :
    Offers s t := .same (h.lu hl) (h.cf hc)

/-- A law of the Line Unit that every offer keeps is kept by whatever reaches the Line Unit by offers. -/
theorem Offers.keeps {bs : List Block} {L : State → Prop} (hr : Reads bs L) (hb : ∀ b ∈ bs, b = .lu ∨ b = .cf)
    (ho : ∀ f s, L s → L (Machine.offer f s)) {s t : State} (h : Offers s t) : L s → L t := by
  induction h with
  | same hlu hcf => exact hr _ _ fun b hm => (hb b hm).elim (fun e => e ▸ hlu) fun e => e ▸ hcf
  | offer f s => exact ho f s
  | trans _ _ ih ih' => exact ih' ∘ ih

theorem Offers.after {s t u : State} (h : Offers t u) (hlu : t.lu = s.lu) (hcf : t.cf = s.cf) : Offers s u :=
  .trans (.same hlu hcf) h

theorem offers_foldl {α : Type} {f : State → α → State} (hf : ∀ s x, Offers s (f s x)) :
    ∀ (xs : List α) (s : State), Offers s (xs.foldl f s)
  | [], s => .refl s
  | x :: rest, s => (hf s x).trans (offers_foldl hf rest (f s x))

theorem offers_whenDue {c : Bool} {s t : State} (h : Offers s t) : Offers s (whenDue c t s) := by
  unfold whenDue
  split
  · exact h
  · exact .refl s

theorem sendAlert_offers (img : Image) (v : Service) (s : State) : Offers s (sendAlert img v s) := by
  unfold sendAlert
  split
  · split
    · exact .refl s
    · dsimp only
      split
      · exact (Offers.offer _ _).after rfl rfl
      · exact .same rfl rfl
  · exact .refl s

theorem enterDwell_offers (img : Image) (s : State) : Offers s (enterDwell img s) := by
  unfold enterDwell
  split
  · split
    · refine Offers.trans ?_ (sendAlert_offers img _ _)
      split
      · exact .same rfl rfl
      · exact .same rfl rfl
    · exact .refl s
  · exact .refl s

theorem takeOver_offers (img : Image) (s : State) : Offers s (takeOver img s) :=
  .of_only (takeOver_only img s) (by simp) (by simp)

theorem exitDwell_offers (img : Image) (s : State) : Offers s (exitDwell img s) :=
  .of_only (exitDwell_only img s) (by simp) (by simp)

theorem startIfIdle_offers (img : Image) (s : State) : Offers s (startIfIdle img s) := by
  unfold startIfIdle
  split
  · exact .of_only (startService_only img _ s) (by simp) (by simp)
  · exact .refl s

theorem serviceDecisions_offers (img : Image) (s : State) : Offers s (serviceDecisions img s) := by
  unfold serviceDecisions
  refine Offers.trans (Offers.trans ?_ (enterDwell_offers img _)) (.of_only (nextFree_only _) (by simp) (by simp))
  have taken : Offers s (if Config.higherClassFirst s.free then exitDwell img (enterDwell img (takeOver img (startIfIdle img s)))
      else takeOver img (exitDwell img (enterDwell img (startIfIdle img s)))) := by
    refine (startIfIdle_offers img s).trans ?_
    split
    · exact ((takeOver_offers img _).trans (enterDwell_offers img _)).trans (exitDwell_offers img _)
    · exact ((enterDwell_offers img _).trans (exitDwell_offers img _)).trans (takeOver_offers img _)
  split
  · exact taken.trans (.of_only (finishExit_only img _) (by simp) (by simp))
  · exact taken

theorem peWork_offers (s : State) : Offers s (peWork s) := by
  have counted : Offers s (countInhibit s) := by
    unfold countInhibit
    split
    · exact .same rfl rfl
    · exact .refl s
  unfold peWork
  split
  · exact .refl s
  · split
    · refine counted.trans (Offers.trans (.of_only (bs := [.pe]) ?_ (by simp) (by simp)) (serviceDecisions_offers _ _))
      refine Only.trans ?_ (withPe_only _ _)
      split
      · exact (withPe_only _ _).trans (withPe_only _ _)
      · exact withPe_only _ _
    · exact counted

theorem enterFlash_offers (mode : Mode) (cause : AlertCause) (s : State) : Offers s (enterFlash mode cause s) := by
  rw [enterFlash_eq_offer]
  refine Offers.trans ?_ (.offer _ _)
  exact ((Offers.of_only (leaveRun_only s) (by simp) (by simp)).trans (.of_only (flashSourced_only mode s) (by simp) (by simp))).trans
    (.trans (.of_only (mapGroups_only _ _) (by simp) (by simp)) (.of_only (flashEntered_only mode s) (by simp) (by simp)))

theorem reportHalt_offers (s : State) : Offers s (reportHalt s) :=
  (enterFlash_offers _ _ _).after rfl rfl

theorem latchFault_offers (cause : FaultCause) (further : Nat) (s : State) : Offers s (latchFault cause further s) :=
  (enterFlash_offers _ _ _).after rfl rfl

/-- The steps of one evaluation of the Stage Sequencer, (1) to (5). -/
theorem sqSteps_only (s : State) :
    Only [.ge, .sq] s (runSelection (testTermination (takeOrders (followChange (countSqTimers s))))) :=
  ((((countSqTimers_only s).mono (by simp)).trans (followChange_only _)).trans
    ((takeOrders_only _).trans (testTermination_only _))).trans (runSelection_only _)

theorem sqEvaluation_offers (s : State) : Offers s (sqEvaluation s) := by
  have steps := sqSteps_only s
  unfold sqEvaluation
  generalize runSelection (testTermination (takeOrders (followChange (countSqTimers s)))) = u at steps ⊢
  have read : Offers s (readGreens (u.withSq { u.sq with yieldWasOpen := u.ck.report.yieldOpen })) :=
    .same (steps.lu (by simp)) (steps.cf (by simp))
  dsimp only
  split
  · exact read.trans (reportHalt_offers _)
  · exact read

theorem sqWork_offers (s : State) : Offers s (sqWork s) := by
  unfold sqWork
  split
  · exact sqEvaluation_offers s
  · exact .refl s

theorem monitorWork_offers (s : State) : Offers s (monitorWork s) := by
  unfold monitorWork
  split
  · exact .refl s
  · split
    · dsimp only
      split
      · exact .same rfl rfl
      · exact (latchFault_offers _ _ _).after rfl rfl
    · exact .refl s

theorem supervisorWork_offers (began : Mode) (s : State) : Offers s (supervisorWork began s) := by
  have timed (u : State) : Offers u (modeTimerWork began u) := .of_only (modeTimerWork_only began u) (by simp) (by simp)
  unfold supervisorWork
  split
  · exact (monitorWork_offers s).trans (timed _)
  · exact (timed s).trans (monitorWork_offers _)

theorem formNotice_offers (p : Place) (s : State) : Offers s (formNotice p s) := by
  unfold formNotice
  split
  · dsimp only
    split
    · split
      · exact .same rfl rfl
      · exact (Offers.offer _ _).after rfl rfl
    · exact .same rfl rfl
  · exact .refl s

theorem onEdge_offers (r : DetectorRecord) (d : Detector) (s : State) : Offers s (onEdge r d s) := by
  have called : Offers s (sendCall r (setDet d (onEdgeOf s.du[d]) s)) :=
    (Offers.of_only (sendCall_only r _) (by simp) (by simp)).after rfl rfl
  unfold onEdge
  dsimp only
  split
  · refine called.trans (Offers.trans ?_ (offers_foldl (fun t p => formNotice_offers p t) _ _))
    exact .same rfl rfl
  · exact called

theorem duWork_offers (s : State) : Offers s (duWork s) := by
  unfold duWork
  split
  · exact .refl s
  · refine offers_foldl (fun t d => ?_) _ _
    unfold detectorTick
    dsimp only
    split
    · exact .same rfl rfl
    · split
      · split
        · exact .same rfl rfl
        · exact onEdge_offers _ d t
      · exact .same rfl rfl

theorem countBeacon_offers (img : Image) (s : State) : Offers s (countBeacon img s) := by
  unfold countBeacon
  split
  · dsimp only
    split
    · exact (Offers.offer _ _).after rfl rfl
    · exact .same rfl rfl
  · exact .refl s

theorem ckWork_offers (s : State) : Offers s (ckWork s) := by
  unfold ckWork
  split
  next img r _ _ =>
    have staged : Offers s (secondStage img (markStage img s)) := by
      refine Offers.trans (.of_only (markStage_only img s) (by simp) (by simp)) ?_
      unfold secondStage
      split
      · exact (countBeacon_offers img _).trans (.same rfl rfl)
      · exact .refl _
    dsimp only
    split
    · split
      · exact staged.trans (.same rfl rfl)
      · exact staged.trans (.of_only (runCycle_only img r _) (by simp) (by simp))
    · split
      · exact staged.trans (.of_only (adoptPending_only img _) (by simp) (by simp))
      · exact staged.trans (.same rfl rfl)
  · exact .refl s

/-! ### The commands that reach the Line Unit -/

/-- The commands that reach the Line Unit itself: its own events, the resets and the end of a load. -/
def Instr.isLineOwn : Instr → Bool
  | .powerOn | .resetPin | .headerRead _ | .memoryNoAcknowledge _ | .loadEnd _ | .lineFree | .lineBusy | .backoffSlotEnd
  | .byteNotReceivedBack | .intraFrameGap | .byteReceived _ _ | .frameReceived _ => true
  | _ => false

/-- An event of PE's evaluation does nothing, or it takes place in RUN. -/
theorem peEvent_cases {due : Image → Bool} {act : Image → State → State} {s t : State}
    (hx : peEvent due act s = .next t) :
    t = s ∨ ∃ img, s.cf.image = some img ∧ s.os.mode = .run ∧ due img = true ∧ t = act img s := by
  injection hx with hx
  subst hx
  split
  · exact .inl rfl
  next img hi =>
    refine (whenDue_cases _ _ s).symm.imp_right fun ⟨hc, h⟩ => ?_
    simp only [Bool.and_eq_true, beq_iff_eq] at hc
    exact ⟨img, hi, hc.1, hc.2, h⟩

theorem exec_offers {c : Instr} {s t : State} (hc : Instr.isEvent c = true) (hl : Instr.isLineOwn c = false)
    (hx : exec c s = .next t) : Offers s t := by
  by_cases hr : Block.lu ∉ Instr.reaches c ∧ Block.cf ∉ Instr.reaches c
  · exact .of_only (exec_only hx) hr.1 hr.2
  cases c with
  | halt =>
    injection hx with hx
    rw [← hx]
    refine offers_whenDue ?_
    have taken : Offers s (readGreens (takeHalt s)) :=
      (Offers.of_only (takeHalt_only s) (by simp) (by simp)).trans (.same rfl rfl)
    dsimp only
    split
    · exact taken.trans (reportHalt_offers _)
    · exact taken
  | haltDone => injection hx with hx; exact hx ▸ offers_whenDue (reportHalt_offers s)
  | onEdge d =>
    injection hx with hx
    rw [← hx]
    split
    · exact .refl s
    · exact offers_whenDue (onEdge_offers _ d s)
  | beaconDue =>
    injection hx with hx
    rw [← hx]
    split
    · exact .refl s
    · exact offers_whenDue (countBeacon_offers _ s)
  | noticeFormed p =>
    injection hx with hx
    rw [← hx]
    split
    · exact offers_whenDue ((formNotice_offers p _).after rfl rfl)
    · exact .refl s
  | requestInputOn c =>
    unfold exec execRequestInputOn at hx
    obtain rfl | ⟨img, -, -, -, rfl⟩ := peEvent_cases hx
    · exact .refl _
    · exact (serviceDecisions_offers img _).after rfl rfl
  | dwellEntry =>
    unfold exec execDwellEntry at hx
    obtain rfl | ⟨img, -, -, -, rfl⟩ := peEvent_cases hx
    · exact .refl _
    · exact ((enterDwell_offers img s).trans (exitDwell_offers img _)).trans (enterDwell_offers img _)
  | minDwellExpiry =>
    unfold exec execMinDwellExpiry at hx
    obtain rfl | ⟨img, -, -, -, rfl⟩ := peEvent_cases hx
    · exact .refl _
    · split
      · exact .trans (.of_only (enterExit_only img _ s) (by simp) (by simp)) (enterDwell_offers img _)
      · exact .refl s
  | maxDwellExpiry =>
    unfold exec execMaxDwellExpiry at hx
    obtain rfl | ⟨img, -, -, -, rfl⟩ := peEvent_cases hx
    · exact .refl _
    · split
      · exact .trans (.of_only (maxDwellExit_only img _ s) (by simp) (by simp)) (enterDwell_offers img _)
      · exact .refl s
  | serviceEnd =>
    unfold exec execServiceEnd at hx
    obtain rfl | ⟨img, -, -, -, rfl⟩ := peEvent_cases hx
    · exact .refl _
    · exact .trans (.of_only (endService_only img s) (by simp) (by simp)) (enterDwell_offers img _)
  | lineAlertCountdownExpiry =>
    unfold exec execLineAlertCountdownExpiry at hx
    obtain rfl | ⟨img, -, -, -, rfl⟩ := peEvent_cases hx
    · exact .refl _
    · exact (serviceDecisions_offers img _).after rfl rfl
  | lineDwellExpiry =>
    unfold exec execLineDwellExpiry at hx
    obtain rfl | ⟨img, -, -, -, rfl⟩ := peEvent_cases hx
    · exact .refl _
    · exact (serviceDecisions_offers img _).after rfl rfl
  | inhibitExpiry =>
    unfold exec execInhibitExpiry at hx
    obtain rfl | ⟨img, -, -, -, rfl⟩ := peEvent_cases hx
    · exact .refl _
    · exact (serviceDecisions_offers img _).after rfl rfl
  | conflict a b =>
    injection hx with hx
    rw [← hx]
    split
    · exact .refl s
    · exact offers_whenDue (latchFault_offers _ _ s)
  | mismatch ch l => injection hx with hx; exact hx ▸ offers_whenDue (latchFault_offers _ _ s)
  | _ => first | exact (Bool.false_ne_true hl.symm).elim | exact (Bool.false_ne_true hc).elim | exact (hr (by simp [Instr.reaches])).elim

/-! ### A received byte -/

/-- From `u` to `v` the receiving side alone has moved: the assembler, CLASH and the counters of received frames. -/
def Heard (u v : LuState) : Prop :=
  v = { u with assembler := v.assembler, clash := v.clash, counters := v.counters } ∧
    v.counters.sent = u.counters.sent ∧ v.counters.collisions = u.counters.collisions ∧
    v.counters.dropped = u.counters.dropped

theorem Heard.refl (u : LuState) : Heard u u := ⟨rfl, rfl, rfl, rfl⟩

theorem judge_heard (echo : Bool) (bs : List Byte) (s : State) : Heard s.lu (judge echo bs s).lu := by
  unfold judge
  split
  · exact .refl _
  · dsimp only
    split
    · exact ⟨rfl, rfl, rfl, rfl⟩
    · split
      · exact ⟨rfl, rfl, rfl, rfl⟩
      · split
        · split
          · exact .refl _
          · exact ⟨rfl, rfl, rfl, rfl⟩
        · rw [(dispatch_only _ bs _).lu (by simp)]
          exact ⟨rfl, rfl, rfl, rfl⟩

theorem Heard.trans {u v w : LuState} (h : Heard u v) (k : Heard v w) : Heard u w := by
  obtain ⟨h1, h2, h3, h4⟩ := h
  obtain ⟨k1, k2, k3, k4⟩ := k
  refine ⟨?_, k2.trans h2, k3.trans h3, k4.trans h4⟩
  rw [k1, h1]

theorem assemble_heard (echo : Bool) (b : Byte) (framingError : Bool) (s : State) :
    Heard s.lu (assemble echo b framingError s).lu := by
  have moved (a : Assembler) : Heard s.lu (setAssembler a s).lu := ⟨rfl, rfl, rfl, rfl⟩
  unfold assemble
  split
  · exact .refl _
  · split
    · exact moved _
    · exact ⟨rfl, rfl, rfl, rfl⟩
  · split
    · exact ⟨rfl, rfl, rfl, rfl⟩
    · unfold keepByte
      split
      · exact moved _
      · split
        · exact ⟨rfl, rfl, rfl, rfl⟩
        · split
          · exact moved _
          · exact (moved _).trans (judge_heard _ _ _)

/-- The state in which the byte's readback is examined: the line is BUSY and the assembler has taken the byte. -/
def byteTaken (b : Byte) (framingError : Bool) (s : State) : State :=
  assemble (endsAttempt s b framingError) b framingError (s.withLu { s.lu with busy := true })

theorem receiveByte_eq (b : Byte) (framingError : Bool) (s : State) :
    receiveByte b framingError s = readback b framingError (byteTaken b framingError s) := rfl

theorem byteTaken_heard (b : Byte) (framingError : Bool) (s : State) :
    Heard { s.lu with busy := true } (byteTaken b framingError s).lu := assemble_heard _ b framingError (s.withLu _)

theorem byteTaken_only (b : Byte) (framingError : Bool) (s : State) :
    Only [.lu, .nt, .pl, .pe, .sq] s (byteTaken b framingError s) :=
  ((withLu_only s _).mono (by simp)).trans (assemble_only _ b framingError _)

/-- What a received byte leaves of the sending side, but for BUSY, until its readback is examined. -/
theorem byteTaken_lu (b : Byte) (framingError : Bool) (s : State) :
    let u := (byteTaken b framingError s).lu
    u.access = s.lu.access ∧ u.busy = true ∧ u.driverEnable = s.lu.driverEnable ∧ u.inHand = s.lu.inHand ∧
      u.queue = s.lu.queue ∧ u.exponent = s.lu.exponent ∧ u.slots = s.lu.slots ∧ u.sequence = s.lu.sequence ∧
      u.sending = s.lu.sending ∧ u.nextEntry = s.lu.nextEntry := by
  dsimp only
  obtain ⟨heq, -⟩ := byteTaken_heard b framingError s
  rw [heq]
  simp

/-! ### The queue is kept -/

theorem attemptSucceeded_thins (s : State) : QueueThinned s (attemptSucceeded s) := by
  unfold attemptSucceeded
  split
  · exact .refl s
  · refine ⟨?_, ?_⟩ <;> rw [reportFinished_lu] <;> simp

theorem attemptFailed_thins (s : State) : QueueThinned s (attemptFailed s) := by
  unfold attemptFailed
  split
  · exact .refl s
  · dsimp only
    split
    · exact ⟨List.Sublist.refl _, le_refl _⟩
    · refine ⟨?_, ?_⟩ <;> rw [reportFinished_lu] <;> simp

theorem receiveByte_thins (b : Byte) (framingError : Bool) (s : State) : QueueThinned s (receiveByte b framingError s) := by
  have taken : QueueThinned s (byteTaken b framingError s) := by
    obtain ⟨-, -, -, -, hq, -, -, -, -, hn⟩ := byteTaken_lu b framingError s
    exact ⟨hq ▸ List.Sublist.refl _, hn ▸ le_refl _⟩
  rw [receiveByte_eq]
  unfold readback
  split
  · exact taken
  · split
    · exact taken.trans (attemptFailed_thins _)
    · split
      · exact taken.trans (attemptSucceeded_thins _)
      · exact taken.trans ⟨List.Sublist.refl _, le_refl _⟩

theorem restartLine_thins (s : State) : QueueThinned s (restartLine s) := by
  unfold restartLine
  split
  · exact ⟨List.Sublist.refl _, le_refl _⟩
  · exact ⟨List.nil_sublist _, le_refl _⟩

theorem thins_whenDue {c : Bool} {s t : State} (h : QueueThinned s t) : QueueThinned s (whenDue c t s) := by
  unfold whenDue
  split
  · exact h
  · exact .refl s

theorem LoadGoesOn.only {s t : State} (h : LoadGoesOn s t) : Only [.cf, .os] s t := by
  obtain ⟨-, cf, -, -, rfl | rfl⟩ := h
  · exact (withCf_only s cf).mono (by simp)
  · exact ((withCf_only s cf).mono (by simp)).trans ((withOs_only _ _).mono (by simp))

theorem lineOwn_thins {c : Instr} {s t : State} (hl : Instr.isLineOwn c = true) (hx : exec c s = .next t)
    (hr : c ≠ .powerOn ∧ c ≠ .resetPin) : QueueThinned s t := by
  cases c with
  | powerOn => exact absurd rfl hr.1
  | resetPin => exact absurd rfl hr.2
  | headerRead h => exact .of_lu ((exec_only hx).lu (by simp [Instr.reaches]))
  | memoryNoAcknowledge bs => exact .of_lu ((exec_only hx).lu (by simp [Instr.reaches]))
  | loadEnd body =>
    rcases loadEnd_cases hx with rfl | hg | ⟨-, raw, position, -, rfl⟩
    · exact .refl _
    · exact .of_lu (hg.only.lu (by simp))
    · exact ⟨List.nil_sublist _, le_refl _⟩
  | lineFree =>
    injection hx with hx
    rw [← hx]
    have freed : QueueThinned s (s.withLu (lineBecomesFree s.lu)) := by
      unfold lineBecomesFree
      dsimp only
      split
      · exact ⟨List.Sublist.refl _, le_refl _⟩
      · exact ⟨List.Sublist.refl _, le_refl _⟩
    refine thins_whenDue ?_
    dsimp only
    split
    · exact freed.trans (drawBackoff_thins _)
    · exact freed
  | lineBusy => injection hx with hx; exact hx ▸ thins_whenDue ⟨List.Sublist.refl _, le_refl _⟩
  | backoffSlotEnd =>
    injection hx with hx
    rw [← hx]
    refine thins_whenDue ?_
    dsimp only
    split
    · exact QueueThinned.trans ⟨List.Sublist.refl _, le_refl _⟩ (startAttempt_thins _)
    · exact ⟨List.Sublist.refl _, le_refl _⟩
  | byteNotReceivedBack => injection hx with hx; exact hx ▸ thins_whenDue (attemptFailed_thins s)
  | intraFrameGap =>
    injection hx with hx
    rw [← hx]
    split
    · exact thins_whenDue ⟨List.Sublist.refl _, le_refl _⟩
    · exact .refl s
  | byteReceived b e => injection hx with hx; exact hx ▸ thins_whenDue (receiveByte_thins b e s)
  | frameReceived b => injection hx with hx; exact hx ▸ thins_whenDue (receiveByte_thins b false s)
  | _ => exact (Bool.false_ne_true hl).elim

theorem work_offers {began : Mode} {s : State} {w : Work} (hw : w ≠ .mp) : Offers s (doWork began s w) := by
  cases w with
  | mp => exact absurd rfl hw
  | groups => exact .of_only (geWork_only s) (by simp) (by simp)
  | sequencer => exact sqWork_offers s
  | detectors => exact duWork_offers s
  | clock => exact ckWork_offers s
  | neighbors => exact .of_only (ntWork_only s) (by simp) (by simp)
  | platoonCountdown => exact .of_only (plQueueWork_only s) (by simp) (by simp)
  | greenTimers => exact .of_only (plTimerWork_only s) (by simp) (by simp)
  | preemption => exact peWork_offers s
  | supervisor => exact supervisorWork_offers began s

theorem reloadStation_lu (s : State) : (reloadStation s).lu =
    { LuState.reset with counters := s.lu.counters, clash := s.lu.clash, nextEntry := s.lu.nextEntry } := rfl

theorem queueLaw_reads : Reads [.lu] QueueLaw := by
  intro s t same h
  have hlu : t.lu = s.lu := same .lu (by simp)
  rw [queueLaw_iff] at h ⊢
  rwa [hlu]

theorem Offers.queueLaw {s t : State} (h : Offers s t) (hs : QueueLaw s) : QueueLaw t :=
  h.keeps queueLaw_reads (by simp) (fun f _ => offer_keeps_queue f) hs

theorem queueLaw_kept : Kept QueueLaw := by
  refine queueLaw_reads.kept (by decide) (fun c s t _ hc h hx => ?_) (fun m s ht _ h => ?_) fun w began s _ hw h =>
    (work_offers hw).queueLaw h
  · cases hl : Instr.isLineOwn c with
    | false => exact (exec_offers hc hl hx).queueLaw h
    | true =>
      by_cases hr : c = .powerOn ∨ c = .resetPin
      · have cleared : QueueThinned (State.reset) t := by
          rcases hr with rfl | rfl <;>
          · injection hx with hx
            exact .of_lu (hx ▸ rfl)
        obtain ⟨-, -, -, -, -, hq, -⟩ := resetMeetsEveryLaw
        exact cleared.law hq
      · exact (lineOwn_thins hl hx (not_or.mp hr)).law h
  · cases m with
    | reload =>
      have emptied : QueueThinned s (reloadStation s) := by
        rw [QueueThinned, reloadStation_lu]
        exact ⟨List.nil_sublist _, le_refl _⟩
      exact emptied.law h
    | blockRestart a =>
      refine QueueThinned.law ?_ h
      show QueueThinned s (blockRestartEffect a.toNat s)
      unfold blockRestartEffect
      split
      · exact restartLine_thins s
      · split
        · exact .of_lu (((restartTable_only s).mono (by simp)).trans ((restartClock_only _).mono (by simp))
            |>.lu (bs := [.nt, .ck]) (by simp))
        · exact .of_lu ((blockRestartDetectors_only s).lu (by simp))
    | _ => exact (Bool.false_ne_true ht).elim

/-! ### The access states are kept -/

theorem lineLaw_reads : Reads [.cf, .lu] LineLaw := by
  intro s t same h
  have hcf : t.cf = s.cf := same .cf (by simp)
  have hlu : t.lu = s.lu := same .lu (by simp)
  rw [lineLaw_iff] at h ⊢
  rwa [hcf, hlu]

theorem Offers.lineLaw {s t : State} (h : Offers s t) (hs : LineLaw s) : LineLaw t := by
  refine h.keeps lineLaw_reads (by simp) (fun f s hs => ?_) hs
  rw [lineLaw_iff] at hs ⊢
  rw [(offer_only f s).cf (by simp)]
  exact offer_ok f hs

theorem lineLaw_whenDue {c : Bool} {s t : State} (hi : t.cf = s.cf) (hs : LineLaw s)
    (ht : c = true → LineOk s.cf.image t.lu) : LineLaw (whenDue c t s) := by
  refine whenDue_keeps (fun hc => ?_) hs
  rw [lineLaw_iff, hi]
  exact ht hc

theorem LoadGoesOn.lineLaw {s t : State} (h : LoadGoesOn s t) (hs : LineLaw s) : LineLaw t := by
  obtain ⟨-, cf, hi, -, rfl | rfl⟩ := h
  · rw [lineLaw_iff] at hs ⊢
    exact hi ▸ hs
  · rw [lineLaw_iff] at hs ⊢
    exact hi ▸ hs

theorem LineOk.heard {image : Option Image} {u v : LuState} (h : LineOk image u) (hh : Heard u v) : LineOk image v := by
  rw [hh.1]
  exact h.of_eq rfl rfl rfl rfl rfl rfl rfl

theorem readback_ok {s : State} (b : Byte) (framingError : Bool) (h : LineOk s.cf.image s.lu) :
    LineOk s.cf.image (readback b framingError s).lu := by
  unfold readback
  split
  · exact h
  next tx htx =>
    have hs : s.lu.access = .sending := h.2.2.2.1.mp (by simp [htx])
    split
    · exact attemptFailed_ok h hs
    · split
      · exact attemptSucceeded_ok h hs
      · exact h.of_eq rfl rfl (by simp [htx]) rfl rfl rfl rfl

theorem receiveByte_ok {s : State} (b : Byte) (framingError : Bool) (h : LineOk s.cf.image s.lu) :
    LineOk s.cf.image (receiveByte b framingError s).lu := by
  have hi : (byteTaken b framingError s).cf = s.cf := (byteTaken_only b framingError s).cf (by simp)
  have busy : LineOk s.cf.image { s.lu with busy := true } := h.of_eq rfl rfl rfl rfl rfl rfl rfl
  rw [receiveByte_eq, ← hi]
  refine readback_ok b framingError ?_
  rw [hi]
  exact busy.heard (byteTaken_heard b framingError s)

theorem lineBecomesFree_ok {image : Option Image} {u : LuState} (h : LineOk image u) : LineOk image (lineBecomesFree u) := by
  unfold lineBecomesFree
  dsimp only
  split
  · exact h.of_eq rfl rfl rfl rfl rfl rfl rfl
  · exact h.of_eq rfl rfl rfl rfl rfl rfl rfl

theorem lineBecomesFree_access (u : LuState) : (lineBecomesFree u).access = u.access := by
  unfold lineBecomesFree
  dsimp only
  split <;> rfl

/-- R117, R118: the values of a Line Unit that has just been enabled. -/
theorem lineOk_enabled {img : Image} (ha : AddressOk img) {u : LuState} (h : u.access = .idle)
    (hs : u.sequence = BitVec.ofNat 16 img.address) (hq : u.queue = []) (hi : u.inHand = none) (hd : u.driverEnable = false)
    (hse : u.sending = none) (he : u.exponent = 2) : LineOk (some img) u := by
  obtain ⟨h1, h62⟩ : 1 ≤ img.address ∧ img.address ≤ 62 := ha
  have hseq : BitVec.ofNat 16 img.address ≠ 0 := by
    intro h0
    have := congrArg BitVec.toNat h0
    simp only [BitVec.toNat_ofNat, BitVec.ofNat_eq_ofNat] at this
    omega
  refine LineReady.ok ⟨by simp, fun i hi => Option.some.inj hi ▸ ⟨h1, h62⟩, by simp [h], by simp [h], hd, hse, by omega,
    by simp [hi], hs ▸ hseq⟩ fun _ => ⟨hq, hi⟩

theorem lineOk_disabled {u : LuState} (h : u.access = .disabled) (hq : u.queue = []) (hi : u.inHand = none)
    (hd : u.driverEnable = false) (hse : u.sending = none) (he : u.exponent = 2) : LineOk none u := by
  refine ⟨by simp [h], by simp, by simp [hd, h], by simp [hse, h], by simp [h], fun _ => ⟨hq, hi⟩, by omega, by simp [hi],
    fun hn => absurd h hn⟩

theorem restartLine_ok {s : State} (h : LineOk s.cf.image s.lu) : LineOk s.cf.image (restartLine s).lu := by
  unfold restartLine
  split
  · exact h.of_eq rfl rfl rfl rfl rfl rfl rfl
  next hd =>
    obtain ⟨img, hi⟩ := Option.ne_none_iff_exists'.mp (mt h.1.mpr hd)
    have ha : AddressOk img := h.2.1 img hi
    have hst : ∀ u : State, u.cf = s.cf → stationAddress u = img.address := by
      intro u hu
      simp [stationAddress, hu, hi]
    rw [hi]
    refine lineOk_enabled ha rfl ?_ rfl rfl rfl rfl rfl
    show BitVec.ofNat 16 (stationAddress s) = _
    rw [hst s rfl]

theorem lineOwn_keeps {c : Instr} {s t : State} (hl : Instr.isLineOwn c = true) (hx : exec c s = .next t)
    (h : LineLaw s) : LineLaw t := by
  cases c with
  | powerOn => injection hx with hx; exact hx ▸ lineOk_disabled rfl rfl rfl rfl rfl rfl
  | resetPin => injection hx with hx; exact hx ▸ lineOk_disabled rfl rfl rfl rfl rfl rfl
  | headerRead bs =>
    rcases headerRead_cases hx with rfl | hg
    · exact h
    · exact hg.lineLaw h
  | memoryNoAcknowledge bs =>
    rcases memoryNoAcknowledge_cases hx with rfl | hg
    · exact h
    · exact hg.lineLaw h
  | loadEnd body =>
    rcases loadEnd_cases hx with rfl | hg | ⟨-, raw, position, hc, rfl⟩
    · exact h
    · exact hg.lineLaw h
    · exact lineOk_enabled (structuralCause_none hc).1 rfl rfl rfl rfl rfl rfl rfl
  | lineFree =>
    injection hx with hx
    rw [← hx]
    refine lineLaw_whenDue ?_ h fun hd => ?_
    · dsimp only
      split
      · exact (drawBackoff_only _).cf (by simp)
      · rfl
    · have freed : LineOk s.cf.image (lineBecomesFree s.lu) := lineBecomesFree_ok h
      dsimp only
      split
      next ha =>
        have hacc := lineBecomesFree_access s.lu
        exact drawBackoff_ok (s := s.withLu (lineBecomesFree s.lu))
          (freed.ready (by simp [hacc, ha]) (by simp [hacc, ha]))
      · exact freed
  | lineBusy =>
    injection hx with hx
    exact hx ▸ lineLaw_whenDue rfl h fun _ => LineOk.of_eq h rfl rfl rfl rfl rfl rfl rfl
  | backoffSlotEnd =>
    injection hx with hx
    rw [← hx]
    refine lineLaw_whenDue ?_ h fun hd => ?_
    · dsimp only
      split
      · exact (startAttempt_only _).cf (by simp)
      · rfl
    · simp only [Bool.and_eq_true, beq_iff_eq] at hd
      have counted : LineOk s.cf.image { s.lu with slots := s.lu.slots - 1 } :=
        LineOk.of_eq h rfl rfl rfl rfl rfl rfl rfl
      dsimp only
      split
      · exact startAttempt_ok (s := s.withLu { s.lu with slots := s.lu.slots - 1 })
          (counted.ready (by simp [hd.1.1]) (by simp [hd.1.1]))
      · exact counted
  | byteNotReceivedBack =>
    injection hx with hx
    rw [← hx]
    refine lineLaw_whenDue ((attemptFailed_only s).cf (by simp)) h fun hd => attemptFailed_ok h ?_
    exact beq_iff_eq.mp hd
  | intraFrameGap =>
    injection hx with hx
    rw [← hx]
    split
    · exact lineLaw_whenDue rfl h fun _ => LineOk.of_eq h rfl rfl rfl rfl rfl rfl rfl
    · exact h
  | byteReceived b e =>
    injection hx with hx
    exact hx ▸ lineLaw_whenDue ((receiveByte_only b e s).cf (by simp)) h fun _ => receiveByte_ok b e h
  | frameReceived b =>
    injection hx with hx
    exact hx ▸ lineLaw_whenDue ((receiveByte_only b false s).cf (by simp)) h fun _ => receiveByte_ok b false h
  | _ => exact (Bool.false_ne_true hl).elim

theorem lineLaw_kept : Kept LineLaw := by
  refine lineLaw_reads.kept (by decide) (fun c s t _ hc h hx => ?_) (fun m s ht _ h => ?_) fun w began s _ hw h =>
    (work_offers hw).lineLaw h
  · cases hl : Instr.isLineOwn c with
    | false => exact (exec_offers hc hl hx).lineLaw h
    | true => exact lineOwn_keeps hl hx h
  · cases m with
    | reload =>
      rw [lineLaw_iff]
      show LineOk none (reloadStation s).lu
      rw [reloadStation_lu]
      exact lineOk_disabled rfl rfl rfl rfl rfl rfl
    | blockRestart a =>
      show LineLaw (blockRestartEffect a.toNat s)
      unfold blockRestartEffect
      split
      · rw [lineLaw_iff, (restartLine_only s).cf (by simp)]
        exact restartLine_ok h
      · split
        · exact lineLaw_reads.of_only (((restartTable_only s).mono (by simp)).trans ((restartClock_only _).mono (by simp)))
            (cs := [.nt, .ck]) rfl h
        · exact lineLaw_reads.of_only (blockRestartDetectors_only s) rfl h
    | _ => exact (Bool.false_ne_true ht).elim

/-- Settles O43: the other blocks reach the Line Unit by offers alone, which keep both laws, and its own events move a frame
from the queue to the line and back as the access states allow. -/
theorem transmitQueueAndAccessStatesHold : Obligations.TransmitQueueAndAccessStatesHold :=
  ⟨queueLaw_kept, lineLaw_kept⟩

end Sys2Proof.Machine


/-! Chapter 6, the rows of the corridor line: the line state and the backoff, the readback of an attempt, the assembler and the
judging of frames, the offer of a frame, and the frames that the Line Unit sends. -/

namespace Sys2Proof.Machine

/-! ## Attempts and draws -/

theorem frameBytes_withLu (s : State) (u : LuState) (f : TxFrame) : frameBytes (s.withLu u) f = frameBytes s f := by
  cases f <;> rfl

/-- R110: what the start of an attempt leaves of the Line Unit. -/
theorem startAttempt_rest (s : State) : (startAttempt s).lu.sequence = s.lu.sequence ∧
    (startAttempt s).lu.assembler = s.lu.assembler ∧ (startAttempt s).lu.counters = s.lu.counters ∧
    (startAttempt s).lu.clash = s.lu.clash := by
  unfold startAttempt
  dsimp only
  split <;> exact ⟨rfl, rfl, rfl, rfl⟩

theorem startAttempt_begun {s : State} (h : s.lu.inHand ≠ none ∨ s.lu.queue ≠ []) : AttemptBegun s (startAttempt s) := by
  unfold startAttempt
  dsimp only
  split
  next x hx =>
    refine ⟨rfl, rfl, rfl, rfl, rfl, rfl, fun y hy => ?_, fun q rest hn => ?_⟩
    · obtain rfl : x = y := Option.some.inj (hx.symm.trans hy)
      exact ⟨rfl, rfl, rfl⟩
    · simp [hx] at hn
  next q rest hx hq =>
    refine ⟨rfl, rfl, rfl, rfl, rfl, rfl, fun y hy => ?_, fun q' rest' _ hq' => ?_⟩
    · simp [hx] at hy
    · obtain ⟨rfl, rfl⟩ : q = q' ∧ rest = rest' := by simpa using hq.symm.trans hq'
      exact ⟨rfl, rfl, rfl⟩
  next hx hq => simp [hx, hq] at h

/-- An attempt begins with what the Line Unit holds, whatever else of it has moved. -/
theorem AttemptBegun.of_withLu {s t : State} {u : LuState} (h : AttemptBegun (s.withLu u) t) (hi : u.inHand = s.lu.inHand)
    (hq : u.queue = s.lu.queue) (he : u.exponent = s.lu.exponent) (hn : u.nextEntry = s.lu.nextEntry) : AttemptBegun s t := by
  obtain ⟨h1, h2, h3, h4, h5, h6, h7, h8⟩ := h
  simp only [State.withLu_lu, frameBytes_withLu, hi, hq, he, hn] at h5 h6 h7 h8
  exact ⟨h1, h2, h3, h4, h5, h6, h7, h8⟩

theorem drawBackoff_rest (s : State) : (drawBackoff s).lu.assembler = s.lu.assembler ∧
    (drawBackoff s).lu.counters = s.lu.counters ∧ (drawBackoff s).lu.clash = s.lu.clash := by
  unfold drawBackoff
  dsimp only
  split
  · exact (startAttempt_rest _).2
  · exact ⟨rfl, rfl, rfl⟩

theorem drawBackoff_drawn {s : State} (hb : s.lu.busy = false) (h : s.lu.inHand ≠ none ∨ s.lu.queue ≠ []) :
    Drawn s (drawBackoff s) := by
  unfold drawBackoff Drawn
  dsimp only
  split
  next hk =>
    refine ⟨(startAttempt_rest _).1, fun _ => ?_, fun hpos => by omega⟩
    exact AttemptBegun.of_withLu (startAttempt_begun h) rfl rfl rfl rfl
  next hk => exact ⟨rfl, fun h0 => absurd h0 hk, fun _ => ⟨rfl, rfl, hb, rfl, rfl, rfl, rfl, rfl, rfl⟩⟩

theorem Drawn.of_withLu {s t : State} {u : LuState} (h : Drawn (s.withLu u) t) (hi : u.inHand = s.lu.inHand)
    (hq : u.queue = s.lu.queue) (he : u.exponent = s.lu.exponent) (hn : u.nextEntry = s.lu.nextEntry)
    (hr : u.sequence = s.lu.sequence) (hd : u.driverEnable = s.lu.driverEnable) (hs : u.sending = s.lu.sending) :
    Drawn s t := by
  obtain ⟨h1, h2, h3⟩ := h
  simp only [State.withLu_lu, hi, hq, he, hn, hr, hd, hs] at h1 h2 h3
  exact ⟨h1, fun hk => (h2 hk).of_withLu hi hq he hn, h3⟩

/-! ## The line state and the backoff -/

/-- R100, R112: the line goes FREE, and a frame still incomplete is a fragment. -/
theorem lineBecomesFree_eq (u : LuState) : lineBecomesFree u =
    { u with busy := false, assembler := .ready, counters := (lineBecomesFree u).counters } := by
  unfold lineBecomesFree countFragment
  dsimp only
  split <;> rfl

theorem lineBecomesFree_counters_of_assembling {u : LuState} (h : ∃ bs, u.assembler = .assembling bs) :
    (lineBecomesFree u).counters = { u.counters with fragments := min (u.counters.fragments + 1) 65535 } := by
  obtain ⟨bs, hbs⟩ := h
  simp [lineBecomesFree, hbs, countFragment, satInc]

theorem lineBecomesFree_counters_of_other {u : LuState} (h : ∀ bs, u.assembler ≠ .assembling bs) :
    (lineBecomesFree u).counters = u.counters := by
  unfold lineBecomesFree
  dsimp only
  split
  next bs hbs => exact absurd hbs (h bs)
  · rfl

theorem exec_lineFree {s : State} (hb : s.lu.busy = true) (hd : s.lu.access ≠ .disabled) (hs : s.lu.access ≠ .sending) :
    exec .lineFree s = .next (if s.lu.access = .defer then drawBackoff (s.withLu (lineBecomesFree s.lu))
      else s.withLu (lineBecomesFree s.lu)) := by
  unfold exec execLineFree
  rw [whenDue_true (by simp [hb, hd, hs])]

theorem lineFree_moves {s : State} (hb : s.lu.busy = true) (hd : s.lu.access ≠ .disabled) (hs : s.lu.access ≠ .sending) :
    ∃ t, exec .lineFree s = .next t ∧ Only [.lu] s t ∧ t.lu.assembler = .ready ∧ t.lu.clash = s.lu.clash ∧
      t.lu.counters = (lineBecomesFree s.lu).counters ∧
      (s.lu.access ≠ .defer → t.lu = { s.lu with busy := false, assembler := .ready, counters := t.lu.counters }) ∧
      (s.lu.access = .defer → s.lu.inHand ≠ none ∨ s.lu.queue ≠ [] → Drawn s t) := by
  have heq := lineBecomesFree_eq s.lu
  refine ⟨_, exec_lineFree hb hd hs, ?_⟩
  generalize hu : lineBecomesFree s.lu = u at heq
  by_cases ha : s.lu.access = .defer
  · rw [if_pos ha]
    obtain ⟨h1, h2, h3⟩ := drawBackoff_rest (s.withLu u)
    refine ⟨(withLu_only s u).trans (drawBackoff_only _), ?_, ?_, h2, fun hne => absurd ha hne, fun _ hw => ?_⟩
    · rw [h1, State.withLu_lu, heq]
    · rw [h3, State.withLu_lu, heq]
    · refine (drawBackoff_drawn (s := s.withLu u) ?_ ?_).of_withLu ?_ ?_ ?_ ?_ ?_ ?_ ?_
      · rw [State.withLu_lu, heq]
      · rw [State.withLu_lu, heq]
        exact hw
      all_goals rw [heq]
  · rw [if_neg ha]
    refine ⟨withLu_only s u, ?_, ?_, rfl, fun _ => heq, fun h => absurd h ha⟩
    · rw [State.withLu_lu, heq]
    · rw [State.withLu_lu, heq]

/-- Settles O38. -/
theorem lineEventsMoveTheAccessState : Obligations.LineEventsMoveTheAccessState := by
  refine ⟨fun s hb hd hs => ?_, fun s hd => ?_, fun s ha hb => ⟨fun hk => ?_, fun hk hw => ?_⟩, fun s bs hd ha => ?_⟩
  · obtain ⟨t, hx, honly, hasm, hclash, hcount, hstay, hdraw⟩ := lineFree_moves hb hd hs
    exact ⟨t, hx, honly, hasm, hclash, fun h => hcount.trans (lineBecomesFree_counters_of_other h),
      fun h => hcount.trans (lineBecomesFree_counters_of_assembling h), hstay, hdraw⟩
  · unfold exec execLineBusy
    rw [whenDue_true (by simp [hd])]
  · unfold exec execBackoffSlotEnd
    rw [whenDue_true (by simp [ha, hb]; omega), if_neg (by omega)]
  · have hx : exec .backoffSlotEnd s = .next (startAttempt (s.withLu { s.lu with slots := s.lu.slots - 1 })) := by
      unfold exec execBackoffSlotEnd
      rw [whenDue_true (by simp [ha, hb, hk]), if_pos hk]
    obtain ⟨h1, h2, h3, h4⟩ := startAttempt_rest (s.withLu { s.lu with slots := s.lu.slots - 1 })
    exact ⟨_, hx, (withLu_only s _).trans (startAttempt_only _),
      AttemptBegun.of_withLu (startAttempt_begun hw) rfl rfl rfl rfl, h1, h2, h3, h4⟩
  · unfold exec execIntraFrameGap
    rw [ha]
    dsimp only
    rw [whenDue_true (by simp [hd])]
    rfl

/-! ## The end of an attempt -/

/-- R81, R106: what the report of a finished frame does to the Cycle Clock. -/
theorem frameFinished_of {h : InHand} {s u t : State} (ht : t = reportFinished h.frame u) (hck : u.ck = s.ck)
    (hi : u.lu.inHand = none) (he : u.lu.exponent = 2) (ha : u.lu.access = accessAfter s.lu.queue) : FrameFinished h s t := by
  subst ht
  refine ⟨by rw [reportFinished_lu, hi], by rw [reportFinished_lu, he], by rw [reportFinished_lu, ha]; rfl, ?_⟩
  rw [reportFinished_ck, hck]

theorem attemptFailed_lost {h : InHand} {s : State} (hh : s.lu.inHand = some h) : AttemptLost h s (attemptFailed s) ∧
    (attemptFailed s).lu.assembler = s.lu.assembler ∧ (attemptFailed s).lu.clash = s.lu.clash ∧
    (attemptFailed s).lu.busy = s.lu.busy := by
  unfold attemptFailed AttemptLost
  rw [hh]
  dsimp only
  by_cases hlt : h.attempts < 6
  · rw [if_pos hlt]
    exact ⟨⟨rfl, rfl, rfl, rfl, rfl, rfl, fun _ => ⟨rfl, hh, rfl, rfl, rfl⟩, fun hge => by omega⟩, rfl, rfl, rfl⟩
  · rw [if_neg hlt]
    simp only [reportFinished_lu]
    exact ⟨⟨rfl, rfl, rfl, rfl, rfl, rfl, fun h' => absurd h' hlt, fun _ => ⟨frameFinished_of rfl rfl rfl rfl rfl, rfl⟩⟩,
      rfl, rfl, rfl⟩

theorem attemptSucceeded_won {h : InHand} {s : State} (hh : s.lu.inHand = some h) : AttemptWon h s (attemptSucceeded s) ∧
    (attemptSucceeded s).lu.counters = { s.lu.counters with sent := min (s.lu.counters.sent + 1) 65535 } ∧
    (attemptSucceeded s).lu.clash = s.lu.clash ∧ (attemptSucceeded s).lu.busy = s.lu.busy := by
  unfold attemptSucceeded AttemptWon
  rw [hh]
  simp only [reportFinished_lu]
  exact ⟨⟨rfl, rfl, rfl, rfl, frameFinished_of rfl rfl rfl rfl rfl, rfl, rfl, rfl⟩, rfl, rfl, rfl⟩

/-- R110: the readback follows what the assembler has done with the byte. -/
theorem AttemptLost.of_taken {h : InHand} {b : Byte} {e : Bool} {s t : State} (hl : AttemptLost h (byteTaken b e s) t) :
    AttemptLost h s t := by
  obtain ⟨-, -, -, -, hq, he, -, hr, -, -⟩ := byteTaken_lu b e s
  obtain ⟨-, hsent, hcol, hdrop⟩ := byteTaken_heard b e s
  have hck : (byteTaken b e s).ck = s.ck := (byteTaken_only b e s).ck (by simp)
  simpa only [AttemptLost, FrameFinished, hq, he, hr, hsent, hcol, hdrop, hck] using hl

theorem AttemptWon.of_taken {h : InHand} {b : Byte} {e : Bool} {s t : State} (hw : AttemptWon h (byteTaken b e s) t) :
    AttemptWon h s t := by
  obtain ⟨-, -, -, -, hq, he, -, hr, -, -⟩ := byteTaken_lu b e s
  obtain ⟨-, hsent, hcol, hdrop⟩ := byteTaken_heard b e s
  have hck : (byteTaken b e s).ck = s.ck := (byteTaken_only b e s).ck (by simp)
  simpa only [AttemptWon, FrameFinished, hq, he, hr, hsent, hcol, hdrop, hck] using hw

theorem exec_byteReceived (b : Byte) (framingError : Bool) {s : State} (hd : s.lu.access ≠ .disabled) :
    exec (.byteReceived b framingError) s = .next (receiveByte b framingError s) :=
  congrArg Host.Outcome.next (whenDue_true (by simp [hd]) _ _)

theorem readsBack_iff (tx : Sending) (b : Byte) (framingError : Bool) :
    readsBack tx b framingError = true ↔ framingError = false ∧ tx.bytes[tx.next]? = some b := by
  simp [readsBack]

theorem lastByte_iff (tx : Sending) : lastByte tx = true ↔ tx.next + 1 = tx.bytes.length := by simp [lastByte]

/-- Settles O39. -/
theorem readbackJudgesEachByte : Obligations.ReadbackJudgesEachByte := by
  refine ⟨fun s h ha hh => ?_, fun b e s tx h hd htx hh => ?_⟩
  · have hx : exec .byteNotReceivedBack s = .next (attemptFailed s) := by
      unfold exec execByteNotReceivedBack
      rw [whenDue_true (by simp [ha])]
    obtain ⟨hlost, hasm, hclash, -⟩ := attemptFailed_lost hh
    exact ⟨_, hx, attemptFailed_only s, hlost, hasm, hclash⟩
  · refine ⟨_, exec_byteReceived b e hd, receiveByte_only b e s, ?_⟩
    obtain ⟨hacc, hbusy, hdrv, hhand, hq, hexp, -, -, hsend, -⟩ := byteTaken_lu b e s
    have hck : (byteTaken b e s).ck = s.ck := (byteTaken_only b e s).ck (by simp)
    have hh' : (byteTaken b e s).lu.inHand = some h := hhand.trans hh
    rw [receiveByte_eq]
    unfold readback
    rw [hsend, htx]
    dsimp only
    by_cases hr : readsBack tx b e = true
    · rw [if_neg (by simp [hr])]
      obtain ⟨he, hb⟩ := (readsBack_iff tx b e).mp hr
      have notLost : ¬(e = true ∨ tx.bytes[tx.next]? ≠ some b) := by simp [he, hb]
      by_cases hl : lastByte tx = true
      · rw [if_pos hl]
        have hlen := (lastByte_iff tx).mp hl
        obtain ⟨hwon, -, -, hbusy'⟩ := attemptSucceeded_won hh'
        exact ⟨hbusy'.trans hbusy, fun _ _ hlt => by omega, fun _ _ _ => hwon.of_taken, fun hn => absurd hn notLost⟩
      · rw [if_neg hl]
        rw [lastByte_iff] at hl
        exact ⟨hbusy, fun _ _ _ => ⟨rfl, hacc, hhand, hdrv, hq, hexp, hck⟩, fun _ _ hlen => absurd hlen hl,
          fun hn => absurd hn notLost⟩
    · rw [if_pos (by simpa using hr)]
      rw [readsBack_iff] at hr
      obtain ⟨hlost, -, -, hbusy'⟩ := attemptFailed_lost hh'
      exact ⟨hbusy'.trans hbusy, fun he hb _ => absurd ⟨he, hb⟩ hr, fun he hb _ => absurd ⟨he, hb⟩ hr,
        fun _ => hlost.of_taken⟩

/-! ## The assembler and the judge -/

theorem kindLength_eq_some {code n : Nat} : kindLength code = some n ↔ (code, n) ∈ frameKinds := by
  unfold kindLength frameKinds
  split
  · simp [*, eq_comm]
  · split
    · simp [*, eq_comm]
    · split
      · simp [*, eq_comm]
      · split <;> simp [*, eq_comm]

theorem kindLength_eq_none {code : Nat} : kindLength code = none ↔ ∀ n, (code, n) ∉ frameKinds := by
  rw [Option.eq_none_iff_forall_not_mem]
  exact forall_congr' fun n => not_congr kindLength_eq_some

theorem crcAgrees_iff (f : List Byte) : crcAgrees f = true ↔ Intact f := beq_iff_eq

theorem num16_eq (f : List Byte) (i : Nat) : num16 f i = 256 * num f i + num f (i + 1) := by
  simp only [num16, u16, num]
  omega

theorem beaconModeOf_isSome (n : Nat) : (beaconModeOf n).isSome = true ↔ Between 1 4 n := by
  match n with
  | 0 | 1 | 2 | 3 | 4 => simp [beaconModeOf, Between]
  | n + 5 => simp [beaconModeOf, Between]

theorem beaconWellFormed_iff (f : List Byte) : beaconWellFormed f = true ↔
    Between 1 4 (num f 3) ∧ Between 1 4 (num f 4) ∧ Between 1 10 (num f 8) ∧
      ((num f 5 = 0 ∧ 256 * num f 6 + num f 7 = 0) ∨
        (Between 40 240 (num f 5) ∧ 256 * num f 6 + num f 7 < 100 * num f 5)) := by
  simp only [beaconWellFormed, Bool.and_eq_true, Bool.or_eq_true, beaconModeOf_isSome, decide_eq_true_eq, beq_iff_eq,
    num16_eq, Between, and_assoc]

/-- R113: for a frame of one of the four kinds the receiver's test is that of the eight conditions. -/
theorem fieldsWellFormed_iff {f : List Byte} {n : Nat} (hk : (num f 2, n) ∈ frameKinds) :
    fieldsWellFormed f = true ↔ FieldsGood f := by
  have kinds : num f 2 = 0x51 ∨ num f 2 = 0x52 ∨ num f 2 = 0x53 ∨ num f 2 = 0x54 := by
    simp only [frameKinds, List.mem_cons, Prod.mk.injEq, List.not_mem_nil, or_false] at hk
    omega
  simp only [fieldsWellFormed, FieldsGood, Bool.and_eq_true, decide_eq_true_eq, Between, and_assoc]
  rcases kinds with h | h | h | h
  · simp [h]
  · simp [h, and_assoc]
  · simp [h, num16_eq, and_assoc]
  · simp [h, beaconWellFormed_iff, Between, and_assoc]

/-- R113, R114: the four ways in which a completed frame is judged. -/
theorem judge_outcomes {s : State} {img : Image} {f : List Byte} {n : Nat} (hi : s.cf.image = some img)
    (hk : (num f 2, n) ∈ frameKinds) (echo : Bool) :
    let c := s.lu.counters
    (¬Intact f → judge echo f s = s.withLu { s.lu with counters := { c with crcErrors := min (c.crcErrors + 1) 65535 } }) ∧
      (Intact f → ¬FieldsGood f →
        judge echo f s = s.withLu { s.lu with counters := { c with malformed := min (c.malformed + 1) 65535 } }) ∧
      (Intact f → FieldsGood f → num f 1 = img.address → judge echo f s = if echo then s else
        s.withLu { s.lu with clash := true, counters := { c with clashes := min (c.clashes + 1) 65535 } }) ∧
      (Intact f → FieldsGood f → num f 1 ≠ img.address → judge echo f s = dispatch img f
        (s.withLu { s.lu with counters := { c with received := min (c.received + 1) 65535 } })) := by
  unfold judge
  rw [hi]
  dsimp only
  rw [← fieldsWellFormed_iff hk, ← crcAgrees_iff]
  refine ⟨fun h1 => ?_, fun h1 h2 => ?_, fun h1 h2 h3 => ?_, fun h1 h2 h3 => ?_⟩
  · rw [if_pos (by simpa using h1)]
    rfl
  · rw [if_neg (by simp [h1]), if_pos (by simpa using h2)]
    rfl
  · rw [if_neg (by simp [h1]), if_neg (by simp [h2]), if_pos h3]
    rfl
  · rw [if_neg (by simp [h1]), if_neg (by simp [h2]), if_neg h3]
    rfl

/-- R112: the state in which a completed frame is judged. -/
def frameTaken (s : State) : State := s.withLu { s.lu with busy := true, assembler := .waitFree }

theorem num_append {bs : List Byte} {i : Nat} (h : i < bs.length) (cs : List Byte) : num (bs ++ cs) i = num bs i := by
  simp [num, byteAt, List.getElem?_append_left h]

theorem keepByte_completes {echo : Bool} {bs : List Byte} {s : State} (h3 : 3 ≤ bs.length)
    (hk : (num bs 2, bs.length) ∈ frameKinds) : keepByte echo bs s = judge echo bs (setAssembler .waitFree s) := by
  unfold keepByte
  rw [if_neg (by omega), kindLength_eq_some.mpr hk]
  dsimp only
  rw [if_neg (by omega)]

theorem byteTaken_completes {s : State} {bs : List Byte} {last : Byte} (ha : s.lu.assembler = .assembling bs)
    (h3 : 3 ≤ bs.length) (hk : (num bs 2, bs.length + 1) ∈ frameKinds) :
    byteTaken last false s = judge (endsAttempt s last false) (bs ++ [last]) (frameTaken s) := by
  unfold byteTaken assemble
  rw [State.withLu_lu]
  dsimp only
  rw [ha]
  dsimp only
  rw [if_neg (by simp), keepByte_completes (by simp; omega) (by rw [num_append (by omega)]; simpa using hk)]
  rfl

theorem byteTaken_of_silent {s : State} (h : s.lu.sending = none) (b : Byte) (framingError : Bool) :
    byteTaken b framingError s = assemble false b framingError (s.withLu { s.lu with busy := true }) := by
  have hecho : endsAttempt s b framingError = false := by simp [endsAttempt, h]
  unfold byteTaken
  rw [hecho]

theorem receiveByte_of_silent {s : State} (h : s.lu.sending = none) (b : Byte) (framingError : Bool) :
    receiveByte b framingError s = byteTaken b framingError s := by
  have hsend : (byteTaken b framingError s).lu.sending = none := by
    obtain ⟨-, -, -, -, -, -, -, -, hs, -⟩ := byteTaken_lu b framingError s
    exact hs.trans h
  rw [receiveByte_eq]
  unfold readback
  rw [hsend]

theorem nextCompletes_of {u : LuState} {bs : List Byte} (ha : u.assembler = .assembling bs) (h3 : 3 ≤ bs.length)
    (hk : (num bs 2, bs.length + 1) ∈ frameKinds) : nextCompletes u = true := by
  simp [nextCompletes, ha, h3, kindLength_eq_some.mpr hk]

theorem exec_frameReceived {s : State} {bs : List Byte} (last : Byte) (hd : s.lu.access ≠ .disabled)
    (ha : s.lu.assembler = .assembling bs) (h3 : 3 ≤ bs.length) (hk : (num bs 2, bs.length + 1) ∈ frameKinds) :
    exec (.frameReceived last) s = .next (receiveByte last false s) :=
  congrArg Host.Outcome.next (whenDue_true (by simp [hd, nextCompletes_of ha h3 hk]) _ _)

theorem Completes.kind {s : State} {img : Image} {last : Byte} {f : List Byte} (h : Completes s img last f) :
    (num f 2, f.length) ∈ frameKinds := by
  obtain ⟨-, -, -, bs, -, h3, hk, rfl⟩ := h
  rw [num_append (by omega)]
  simpa using hk

/-- A frame that completes while no attempt of this station is on the line, by either of its rows. -/
theorem Completes.received {s : State} {img : Image} {last : Byte} {f : List Byte} (h : Completes s img last f) :
    exec (.frameReceived last) s = .next (judge false f (frameTaken s)) ∧
      exec (.byteReceived last false) s = .next (judge false f (frameTaken s)) := by
  obtain ⟨-, hd, hs, bs, ha, h3, hk, rfl⟩ := h
  have htaken : receiveByte last false s = judge false (bs ++ [last]) (frameTaken s) := by
    have hecho : endsAttempt s last false = false := by simp [endsAttempt, hs]
    rw [receiveByte_of_silent hs, byteTaken_completes ha h3 hk, hecho]
  exact ⟨htaken ▸ exec_frameReceived last hd ha h3 hk, htaken ▸ exec_byteReceived last false hd⟩

/-- The state in which a good frame from another station is dispatched (R115). -/
def frameCounted (s : State) : State := s.withLu { s.lu with
  busy := true, assembler := .waitFree,
  counters := { s.lu.counters with received := min (s.lu.counters.received + 1) 65535 } }

theorem frameCounted_only (s : State) : Only [.lu] s (frameCounted s) := withLu_only s _

theorem GoodFromOther.received {s : State} {img : Image} {last : Byte} {f : List Byte} (h : GoodFromOther s img last f) :
    exec (.frameReceived last) s = .next (dispatch img f (frameCounted s)) := by
  obtain ⟨hc, hcrc, hgood, hother⟩ := h
  obtain ⟨-, -, -, hdispatch⟩ := judge_outcomes (s := frameTaken s) hc.1 hc.kind false
  rw [hc.received.1, hdispatch hcrc hgood hother]
  rfl

/-- Table 6.4: the rows in which no frame completes. -/
theorem byteReceived_assembles {s : State} (b : Byte) (framingError : Bool) (hd : s.lu.access ≠ .disabled)
    (hs : s.lu.sending = none) :
    exec (.byteReceived b framingError) s =
      .next (assemble false b framingError (s.withLu { s.lu with busy := true })) := by
  rw [exec_byteReceived b framingError hd, receiveByte_of_silent hs, byteTaken_of_silent hs]

/-- Settles O40. -/
theorem assemblerAndJudgeFollowTheirTables : Obligations.AssemblerAndJudgeFollowTheirTables := by
  refine ⟨fun b e s hd hs => ⟨fun ha => ?_, fun ha => ?_, fun bs ha => ⟨fun he => ?_, fun he hkeep => ?_, fun he hlen hkind => ?_⟩⟩,
    fun s img last f hc => ?_, fun s img tx h bs last hi hd htx hh hb hl ha h3 hk hcrc hgood hown => ?_⟩
  · rw [byteReceived_assembles b e hd hs]
    unfold assemble
    simp only [State.withLu_lu, ha]
  · rw [byteReceived_assembles b e hd hs]
    unfold assemble
    simp only [State.withLu_lu, ha]
    split <;> rfl
  · rw [byteReceived_assembles b e hd hs]
    unfold assemble
    simp only [State.withLu_lu, ha, he, if_true]
    rfl
  · rw [byteReceived_assembles b e hd hs]
    unfold assemble keepByte
    simp only [State.withLu_lu, ha, he, Bool.false_eq_true, if_false, List.length_append, List.length_singleton]
    rcases hkeep with hlt | ⟨h2, n, hn, hlt⟩
    · rw [if_pos (by omega)]
      rfl
    · rw [if_neg (by omega), kindLength_eq_some.mpr hn]
      dsimp only
      rw [if_pos hlt]
      rfl
  · rw [byteReceived_assembles b e hd hs]
    have hnum : num (bs ++ [b]) 2 = b.toNat := by simp [num, byteAt, ← hlen]
    unfold assemble keepByte
    simp only [State.withLu_lu, ha, he, Bool.false_eq_true, if_false, List.length_append, List.length_singleton, hlen]
    rw [if_neg (by omega), hnum, kindLength_eq_none.mpr hkind]
    rfl
  · obtain ⟨hcrc, hmal, hclash, hother⟩ := judge_outcomes (s := frameTaken s) hc.1 hc.kind false
    refine ⟨_, hc.received.1, hc.received.2, hcrc, hmal, hclash, fun ⟨_, h1, h2, h3⟩ => ?_⟩
    rw [hother h1 h2 h3]
    refine ⟨((withLu_only s _).mono (by simp)).trans ((dispatch_only img f _).mono (by simp)), ?_⟩
    exact (dispatch_only img f _).lu (by simp)
  · have hecho : endsAttempt s last false = true := by simp [endsAttempt, htx, readsBack, hb, lastByte, hl]
    have htaken : byteTaken last false s = frameTaken s := by
      obtain ⟨-, -, hown', -⟩ := judge_outcomes (s := frameTaken s) (f := bs ++ [last]) (n := bs.length + 1) hi
        (by rwa [num_append (by omega)]) true
      rw [byteTaken_completes ha h3 hk, hecho, hown' hcrc hgood hown]
      rfl
    have hwon : receiveByte last false s = attemptSucceeded (frameTaken s) := by
      have hsend : (frameTaken s).lu.sending = some tx := htx
      rw [receiveByte_eq, htaken]
      unfold readback
      rw [hsend]
      simp [readsBack, hb, lastByte, hl]
    obtain ⟨hwin, hcount, hclash, -⟩ := attemptSucceeded_won (s := frameTaken s) hh
    refine ⟨_, hwon ▸ exec_frameReceived last hd ha h3 hk, ?_, ?_, hclash, hcount⟩
    · exact ((withLu_only s _).mono (by simp)).trans (attemptSucceeded_only _)
    · rw [← htaken] at hwin ⊢
      exact hwin.of_taken

/-! ## The offer of a frame -/

theorem leaveIdle_of_ne {s : State} (h : s.lu.access ≠ .idle) : leaveIdle s = s := if_neg fun h' => h h'.1

/-- R104: what an offer leaves where the Line Unit is not IDLE. -/
theorem offer_of_ne_idle {s : State} (f : TxFrame) (h : s.lu.access ≠ .idle) : offer f s = s.withLu { s.lu with
    queue := queueAfterOffer s.lu f,
    nextEntry := if offerAnswer s.lu f = .placed then s.lu.nextEntry + 1 else s.lu.nextEntry } := leaveIdle_of_ne h

theorem mem_purgeQueue {f : TxFrame} {queue : List Queued} {q : Queued} : q ∈ purgeQueue f queue ↔
    q ∈ queue ∧ (kindRank f = 0 → kindRank q.frame = 0 ∨ kindRank q.frame = 3) := by
  unfold purgeQueue
  split <;> simp [*]

/-- R104, R105: the queue after an offer that replaces the queued frame `old` of its kind and target. -/
theorem mem_replaced {f : TxFrame} {queue : List Queued} {old q : Queued}
    (hp : queue.Pairwise fun a b => sameSlot a.frame b = false) (hold : old ∈ queue) (ht : sameSlot f old = true) :
    q ∈ purgeQueue f (queue.map (replaceQueued f)) ↔ q = { frame := f, entered := old.entered } ∨
      ((q ∈ queue ∧ (kindRank f = 0 → kindRank q.frame = 3)) ∧ ¬sameSlot f q = true) := by
  have only_old : ∀ p ∈ queue, sameSlot f p = true → p = old := by
    intro p hpm hps
    by_contra hne
    have hsame : sameSlot p.frame old = true := by
      rw [sameSlot_iff] at hps ht ⊢
      obtain ⟨hk, htar⟩ := hps
      obtain ⟨hk', htar'⟩ := ht
      exact ⟨hk'.trans hk.symm, fun h2 => (htar' (hk ▸ h2)).trans (htar (hk ▸ h2)).symm⟩
    have symm : Std.Symm fun a b : Queued => sameSlot a.frame b = false := ⟨fun a b h => (sameSlot_comm b a).trans h⟩
    have hdiff := hp.forall hpm hold hne
    simp [hsame] at hdiff
  rw [mem_purgeQueue, List.mem_map]
  constructor
  · rintro ⟨⟨p, hpm, rfl⟩, hpurge⟩
    unfold replaceQueued at hpurge ⊢
    by_cases hps : sameSlot f p = true
    · exact .inl (by rw [if_pos hps, only_old p hpm hps])
    · rw [if_neg hps] at hpurge ⊢
      refine .inr ⟨⟨hpm, fun h0 => (hpurge h0).resolve_left fun hk => hps ?_⟩, hps⟩
      exact (sameSlot_iff f p).mpr ⟨hk.trans h0.symm, fun h2 => by omega⟩
  · rintro (rfl | ⟨⟨hqm, hstay⟩, hns⟩)
    · exact ⟨⟨old, hold, by simp [replaceQueued, ht]⟩, fun h0 => .inl h0⟩
    · exact ⟨⟨q, hqm, by simp [replaceQueued, hns]⟩, fun h0 => .inr (hstay h0)⟩

theorem mem_placed {f : TxFrame} {queue : List Queued} {n : Nat} {q : Queued} (hn : ∀ p ∈ queue, ¬sameSlot f p = true) :
    q ∈ purgeQueue f (insertQueued { frame := f, entered := n } queue) ↔ q = { frame := f, entered := n } ∨
      (q ∈ queue ∧ (kindRank f = 0 → kindRank q.frame = 3)) := by
  rw [mem_purgeQueue, mem_insertQueued]
  constructor
  · rintro ⟨rfl | hq, hpurge⟩
    · exact .inl rfl
    · refine .inr ⟨hq, fun h0 => (hpurge h0).resolve_left fun hk => hn q hq ?_⟩
      exact (sameSlot_iff f q).mpr ⟨hk.trans h0.symm, fun h2 => by omega⟩
  · rintro (rfl | ⟨hq, hstay⟩)
    · exact ⟨.inl rfl, fun h0 => .inl h0⟩
    · exact ⟨.inr hq, fun h0 => .inr (hstay h0)⟩

theorem queueAfterOffer_replaced {lu : LuState} {f : TxFrame} (h : offerAnswer lu f = .replaced) :
    queueAfterOffer lu f = purgeQueue f (lu.queue.map (replaceQueued f)) := by
  unfold queueAfterOffer
  rw [h]
  rfl

theorem queueAfterOffer_placed {lu : LuState} {f : TxFrame} (h : offerAnswer lu f = .placed) :
    queueAfterOffer lu f = purgeQueue f (insertQueued { frame := f, entered := lu.nextEntry } lu.queue) := by
  unfold queueAfterOffer
  rw [h]

/-- R104: the answer to an offer while the Line Unit has work in hand. -/
theorem offerAnswer_working {lu : LuState} (f : TxFrame) (hd : lu.access ≠ .disabled) :
    (∀ old ∈ lu.queue, sameSlot f old = true → offerAnswer lu f = .replaced) ∧
      ((∀ q ∈ lu.queue, ¬sameSlot f q = true) →
        (kindRank f = 2 → 3 ≤ platoonFrames lu.queue → offerAnswer lu f = .refused) ∧
        (kindRank f ≠ 2 ∨ platoonFrames lu.queue < 3 → offerAnswer lu f = .placed)) := by
  unfold offerAnswer
  rw [if_neg hd]
  refine ⟨fun old hm ht => if_pos (List.any_eq_true.mpr ⟨old, hm, ht⟩), fun hn => ?_⟩
  have hany : ¬(lu.queue.any (sameSlot f) = true) := by simpa using hn
  rw [if_neg hany]
  exact ⟨fun h2 h3 => if_pos ⟨h2, h3⟩, fun h => if_neg fun h' => by omega⟩

/-- Settles O41. -/
theorem offerIsAnsweredByTheTable : Obligations.OfferIsAnsweredByTheTable := by
  intro f s
  refine ⟨fun hd => ?_, fun hwork hlaw => ?_, fun hidle hq hh => ?_⟩
  · have hans : offerAnswer s.lu f = .discarded := if_pos hd
    rw [offer_of_ne_idle f (by simp [hd])]
    simp only [queueAfterOffer, hans]
    rfl
  · have hd : s.lu.access ≠ .disabled := by rcases hwork with h | h | h <;> simp [h]
    have hni : s.lu.access ≠ .idle := by rcases hwork with h | h | h <;> simp [h]
    obtain ⟨hreplaced, hnew⟩ := offerAnswer_working f hd
    dsimp only
    rw [offer_of_ne_idle f hni]
    simp only [← sameSlot_iff]
    refine ⟨withLu_only s _, rfl, ?_, fun old hm ht => ?_, fun hn h2 h3 => ?_, fun hn hroom => ?_⟩
    · rw [← offer_of_ne_idle f hni]
      exact offer_keeps_queue f hlaw
    · have hans := hreplaced old hm ht
      simp only [State.withLu_lu, hans, queueAfterOffer_replaced hans]
      exact ⟨rfl, fun q => mem_replaced hlaw.2.2.1 hm ht⟩
    · have hans := (hnew hn).1 h2 (by omega)
      simp only [queueAfterOffer, hans]
      rfl
    · have hans := (hnew hn).2 hroom
      simp only [State.withLu_lu, hans, queueAfterOffer_placed hans]
      exact ⟨rfl, fun q => mem_placed hn⟩
  · have hans : offerAnswer s.lu f = .placed := by simp [offerAnswer, hidle, hq, platoonFrames]
    have hqueue : queueAfterOffer s.lu f = [{ frame := f, entered := s.lu.nextEntry }] := by
      rw [queueAfterOffer_placed hans, hq]
      unfold purgeQueue insertQueued
      split <;> simp [*]
    have hoffer : offer f s = leaveIdle (s.withLu { s.lu with
        queue := [{ frame := f, entered := s.lu.nextEntry }], nextEntry := s.lu.nextEntry + 1 }) := by
      unfold offer
      rw [hqueue, if_pos hans]
    dsimp only
    rw [hoffer]
    unfold leaveIdle
    rw [if_pos ⟨hidle, by simp⟩]
    refine ⟨fun hb => if_pos hb, fun hb => ?_⟩
    rw [if_neg (by simp [hb])]
    exact ⟨(withLu_only s _).trans (drawBackoff_only _), drawBackoff_drawn hb (.inr (by simp))⟩

/-! ## The frames that the Line Unit sends -/

theorem intact_frame (lead : Byte) (body : List Byte) : Intact (lead :: (body ++ crcBytes body)) := by
  simp [Intact]

theorem num_succ_cons (b : Byte) (bs : List Byte) (i : Nat) : num (b :: bs) (i + 1) = num bs i := rfl

/-- R101: the bytes of a frame from its second to the last of its fields. -/
def frameBody (s : State) (f : TxFrame) : List Byte :=
  [BitVec.ofNat 8 (stationAddress s), BitVec.ofNat 8 (kindCode f)] ++ frameFields s f

theorem frameBytes_eq (s : State) (f : TxFrame) :
    frameBytes s f = (0xC3 : Byte) :: (frameBody s f ++ crcBytes (frameBody s f)) := rfl

theorem toNat_byte {n : Nat} (h : n < 256) : (BitVec.ofNat 8 n).toNat = n := by
  rw [BitVec.toNat_ofNat, Nat.mod_eq_of_lt h]

theorem num_frameBytes {s : State} {f : TxFrame} {i : Nat} (h : i < (frameBody s f).length) :
    num (frameBytes s f) (i + 1) = num (frameBody s f) i := by
  rw [frameBytes_eq, num_succ_cons, num_append h]

/-- A byte of a frame's fields, by its index in the frame. -/
theorem num_frameFields {s : State} {f : TxFrame} {i : Nat} (h : i < (frameFields s f).length) :
    num (frameBytes s f) (i + 3) = num (frameFields s f) i := by
  rw [num_frameBytes (by simp [frameBody]; omega)]
  rfl

theorem byteAt_frameFields {s : State} {f : TxFrame} {i : Nat} (h : i < (frameFields s f).length) :
    byteAt (frameBytes s f) (i + 3) = byteAt (frameFields s f) i := by
  have hnum : num (frameBytes s f) (i + 3) = num (frameFields s f) i := num_frameFields h
  exact BitVec.eq_of_toNat_eq hnum

theorem frameFields_length (s : State) (f : TxFrame) : (frameFields s f).length = (match f with
    | .flashAlert _ => 1 | .preemptAlert .. => 5 | .platoon .. => 7 | .beacon => 7) := by
  rcases f with (_ | _) | _ | _ | _ <;> simp [frameFields, beaconFields]

theorem frameBytes_length (s : State) (f : TxFrame) : (frameBytes s f).length = (frameFields s f).length + 5 := by
  simp [frameBytes_eq, frameBody]

/-- R101: the lead byte, the sender and the kind of a frame that is sent. -/
theorem frameBytes_head {s : State} (f : TxFrame) (ha : Between 1 62 (stationAddress s)) :
    byteAt (frameBytes s f) 0 = 0xC3 ∧ num (frameBytes s f) 1 = stationAddress s ∧ num (frameBytes s f) 2 = kindCode f := by
  obtain ⟨-, h62⟩ := ha
  have hk : kindCode f < 256 := by cases f <;> simp [kindCode]
  refine ⟨rfl, ?_, ?_⟩
  · rw [num_frameBytes (by simp [frameBody])]
    exact toNat_byte (by omega)
  · rw [num_frameBytes (by simp [frameBody])]
    exact toNat_byte hk

theorem frameBytes_kind {s : State} (f : TxFrame) (ha : Between 1 62 (stationAddress s)) :
    (num (frameBytes s f) 2, (frameBytes s f).length) ∈ frameKinds := by
  rw [(frameBytes_head f ha).2.2, frameBytes_length, frameFields_length]
  cases f <;> simp [kindCode, frameKinds]

/-- Two bytes, high byte first, of a number below 65536. -/
theorem num_beBytes (v : Nat) : 256 * num (beBytes 2 v) 0 + num (beBytes 2 v) 1 = v % 65536 := by
  rw [beBytes_two]
  simp only [num, byteAt, List.getD_cons_zero, List.getD_cons_succ, BitVec.toNat_ofNat]
  omega

theorem preemptAlert_fields (s : State) (target serial eta : Nat) (ht : Between 1 63 target) :
    let bs := frameBytes s (.preemptAlert target serial eta)
    num bs 3 = target ∧ num bs 4 = serial % 256 ∧ num bs 5 = 2 ∧ 256 * num bs 6 + num bs 7 = eta % 65536 := by
  obtain ⟨-, h63⟩ := ht
  have at_ (i : Nat) (h : i < 5) : num (frameBytes s (.preemptAlert target serial eta)) (i + 3) =
      num (frameFields s (.preemptAlert target serial eta)) i := num_frameFields (by rw [frameFields_length]; exact h)
  dsimp only
  rw [at_ 0 (by decide), at_ 1 (by decide), at_ 2 (by decide), at_ 3 (by decide), at_ 4 (by decide)]
  exact ⟨toNat_byte (by omega), BitVec.toNat_ofNat _ _, rfl, num_beBytes eta⟩

theorem platoon_fields (s : State) (target serial elapsed duration : Nat) (ht : Between 1 63 target)
    (hd : Between 50 600 duration) :
    let bs := frameBytes s (.platoon target serial elapsed duration)
    num bs 3 = target ∧ num bs 4 = serial % 256 ∧ 256 * num bs 5 + num bs 6 = elapsed % 65536 ∧
      256 * num bs 7 + num bs 8 = duration ∧ num bs 9 = 0 := by
  obtain ⟨-, h63⟩ := ht
  obtain ⟨-, h600⟩ := hd
  have at_ (i : Nat) (h : i < 7) : num (frameBytes s (.platoon target serial elapsed duration)) (i + 3) =
      num (frameFields s (.platoon target serial elapsed duration)) i := num_frameFields (by rw [frameFields_length]; exact h)
  dsimp only
  rw [at_ 0 (by decide), at_ 1 (by decide), at_ 2 (by decide), at_ 3 (by decide), at_ 4 (by decide), at_ 5 (by decide),
    at_ 6 (by decide)]
  exact ⟨toNat_byte (by omega), BitVec.toNat_ofNat _ _, num_beBytes elapsed,
    (num_beBytes duration).trans (Nat.mod_eq_of_lt (by omega)), rfl⟩

/-- R82, Table 11.7: the flags byte of a beacon. -/
theorem beaconFlags_bits (a u p f : Bool) (cls : Option PreClass) :
    let b : Byte := BitVec.ofNat 8 (beaconFlags a u p f cls)
    b.getLsbD 0 = a ∧ b.getLsbD 1 = u ∧ b.getLsbD 2 = p ∧ b.getLsbD 3 = f ∧ b.toNat / 16 = classCode cls := by
  revert a u p f
  rcases cls with _ | _ | _ | _ <;> decide

theorem acceptingFlag_iff (s : State) :
    acceptingFlag s = true ↔ s.pl.accepting = true ∧ (s.os.mode = .startRed ∨ s.os.mode = .run) := by
  simp [acceptingFlag]

theorem beaconModeCode_eq (s : State) : beaconModeCode (beaconMode s) =
    if s.os.mode ≠ .run then 4 else if s.pe.service.isSome = true then 3
      else if coordinatedActive s = true then 1 else 2 := by
  unfold beaconMode
  split
  · rfl
  · split
    · rfl
    · split <;> rfl

theorem beacon_fields {s : State} (hr : FrameInRange s .beacon) :
    let bs := frameBytes s .beacon
    num bs 3 = (if s.os.mode ≠ .run then 4 else if s.pe.service.isSome = true then 3
        else if coordinatedActive s = true then 1 else 2) ∧
      s.ck.active.map (fun p => p.val + 1) = some (num bs 4) ∧ 100 * num bs 5 = s.ck.c ∧
      256 * num bs 6 + num bs 7 = reference s ∧ s.cf.image.map (fun img => img.beaconPeriod) = some (num bs 8) ∧
      byteAt bs 9 =
        BitVec.ofNat 8 (beaconFlags (acceptingFlag s) s.ck.unsync (0 < s.ck.planHold) (s.os.mode == .faultFlash) (activeClass s)) := by
  obtain ⟨⟨img, hi, -, h10⟩, hactive, cycle, hc, hcycle⟩ := hr
  obtain ⟨p, hp⟩ := Option.ne_none_iff_exists'.mp hactive
  have hcyc : cycle ≤ 240 := hcycle.elim (fun h => by omega) fun h => h.2
  have hfit : reference s < 65536 := by
    by_cases h0 : s.ck.c = 0
    · rw [reference_of_c_zero h0]
      decide
    · have := reference_lt h0
      omega
  have at_ (i : Nat) (h : i < 7) : num (frameBytes s .beacon) (i + 3) = num (frameFields s .beacon) i :=
    num_frameFields (by rw [frameFields_length]; exact h)
  have hpl : p.val < 4 := p.isLt
  dsimp only
  rw [at_ 0 (by decide), at_ 1 (by decide), at_ 2 (by decide), at_ 3 (by decide), at_ 4 (by decide), at_ 5 (by decide),
    byteAt_frameFields (i := 6) (by rw [frameFields_length]; decide)]
  have hmode : beaconModeCode (beaconMode s) < 256 := by cases beaconMode s <;> simp [beaconModeCode]
  have hplan : (BitVec.ofNat 8 (optNum s.ck.active)).toNat = p.val + 1 := by
    rw [hp]
    exact toNat_byte (n := p.val + 1) (by omega)
  have hlen : (BitVec.ofNat 8 (s.ck.c / 100)).toNat = cycle := by
    rw [hc, Nat.mul_div_cancel_left _ (by decide)]
    exact toNat_byte (by omega)
  have hperiod : (match s.cf.image with | some img => img.beaconPeriod | none => 0) = img.beaconPeriod := by rw [hi]
  refine ⟨(toNat_byte hmode).trans (beaconModeCode_eq s), ?_, ?_, ?_, ?_, rfl⟩
  · rw [hp]
    exact congrArg some hplan.symm
  · rw [hc]
    exact congrArg (100 * ·) hlen
  · exact (num_beBytes (reference s)).trans (Nat.mod_eq_of_lt hfit)
  · rw [hi]
    refine congrArg some ?_
    show img.beaconPeriod = (BitVec.ofNat 8 (match s.cf.image with | some img => img.beaconPeriod | none => 0)).toNat
    rw [hperiod, toNat_byte (by omega)]

/-- R113: a frame that is sent has no malformed field. -/
theorem frameBytes_good {s : State} {f : TxFrame} (ha : Between 1 62 (stationAddress s)) (hr : FrameInRange s f) :
    FieldsGood (frameBytes s f) := by
  obtain ⟨-, haddr, hkind⟩ := frameBytes_head f ha
  unfold FieldsGood
  rw [haddr, hkind]
  refine ⟨ha, ?_⟩
  cases f with
  | flashAlert cause =>
    refine ⟨fun _ => ?_, by simp [kindCode], by simp [kindCode], by simp [kindCode]⟩
    rw [num_frameFields (i := 0) (by rw [frameFields_length]; exact Nat.one_pos)]
    cases cause
    · exact .inl rfl
    · exact .inr rfl
  | preemptAlert target serial eta =>
    obtain ⟨h3, -, h5, -⟩ := preemptAlert_fields s target serial eta hr
    exact ⟨by simp [kindCode], fun _ => ⟨by rw [h3]; exact hr, h5⟩, by simp [kindCode], by simp [kindCode]⟩
  | platoon target serial elapsed duration =>
    obtain ⟨h3, -, -, h7, -⟩ := platoon_fields s target serial elapsed duration hr.1 hr.2
    exact ⟨by simp [kindCode], by simp [kindCode], fun _ => ⟨by rw [h3]; exact hr.1, by rw [h7]; exact hr.2⟩, by simp [kindCode]⟩
  | beacon =>
    obtain ⟨h3, h4, h5, h6, h8, -⟩ := beacon_fields hr
    obtain ⟨⟨img, hi, hper⟩, hactive, cycle, hc, hcycle⟩ := hr
    obtain ⟨p, hp⟩ := Option.ne_none_iff_exists'.mp hactive
    rw [hp] at h4
    rw [hi] at h8
    have h4' : p.val + 1 = num (frameBytes s .beacon) 4 := Option.some.inj h4
    have h8' : img.beaconPeriod = num (frameBytes s .beacon) 8 := Option.some.inj h8
    refine ⟨by simp [kindCode], by simp [kindCode], by simp [kindCode], fun _ => ⟨?_, ?_, h8' ▸ hper, ?_⟩⟩
    · rw [h3]
      unfold Between
      split
      · decide
      · split
        · decide
        · split <;> decide
    · rw [← h4']
      exact ⟨by omega, by have := p.isLt; omega⟩
    · rw [h6]
      rcases hcycle with rfl | hcyc
      · have h0 : s.ck.c = 0 := by omega
        exact .inl ⟨by omega, reference_of_c_zero h0⟩
      · have hpos : s.ck.c ≠ 0 := by
          have := hcyc.1
          omega
        have hnum : num (frameBytes s .beacon) 5 = cycle := by omega
        rw [hnum]
        exact .inr ⟨hcyc, hc ▸ reference_lt hpos⟩

/-- Settles O42. -/
theorem ownFramesAreGoodFrames : Obligations.OwnFramesAreGoodFrames := by
  refine ⟨fun s f ha hr => ?_, fun r => ⟨sequenceStep_getLsbD_zero r, fun i hi => sequenceStep_getLsbD_succ r hi,
    sequenceStep_ne_zero⟩⟩
  obtain ⟨hlead, haddr, hkind⟩ := frameBytes_head f ha
  refine ⟨hlead, haddr, frameBytes_kind f ha, intact_frame _ _, frameBytes_good ha hr, ?_⟩
  cases f with
  | flashAlert cause =>
    refine ⟨hkind, ?_⟩
    rw [num_frameFields (i := 0) (by rw [frameFields_length]; exact Nat.one_pos)]
    cases cause <;> rfl
  | preemptAlert target serial eta => exact ⟨hkind, preemptAlert_fields s target serial eta hr⟩
  | platoon target serial elapsed duration => exact ⟨hkind, platoon_fields s target serial elapsed duration hr.1 hr.2⟩
  | beacon =>
    obtain ⟨h3, h4, h5, h6, h8, h9⟩ := beacon_fields hr
    obtain ⟨b0, b1, b2, b3, bc⟩ := beaconFlags_bits (acceptingFlag s) s.ck.unsync (0 < s.ck.planHold)
      (s.os.mode == .faultFlash) (activeClass s)
    refine ⟨hkind, h3, h4, h5, h6, h8, ?_, ?_, ?_, ?_, ?_⟩
    · rw [h9, b0, acceptingFlag_iff]
    · rw [h9, b1]
    · rw [h9, b2, decide_eq_true_eq]
    · rw [h9, b3, beq_iff_eq]
    · rw [num, h9, bc]
      rfl

end Sys2Proof.Machine


/-! Chapter 7: the ageing of the neighbor table, the BEACON and the alerts that reach it, and its laws. -/

namespace Sys2Proof.Machine

/-! ## One entry -/

theorem ageEntry_of_absent {e : Entry} (h : e.state = .absent) : ageEntry e = some e := by
  unfold ageEntry
  rw [h]

theorem ageEntry_of_none {e : Entry} (h : e.last = none) : ageEntry e = some e := by
  unfold ageEntry
  split
  · rfl
  · rfl
  next heq _ => exact absurd (h.symm.trans heq) nofun

/-- R124: an entry that holds a beacon, at a tick. -/
theorem ageEntry_of_some {e : Entry} {b : LastBeacon} (hs : e.state ≠ .absent) (h : e.last = some b) : ageEntry e =
    if 1000 * b.period ≤ min (e.age + 1) 65535 then loseEntry e
    else some { e with
      age := min (e.age + 1) 65535, state := if 300 * b.period ≤ min (e.age + 1) 65535 then .stale else e.state } := by
  unfold ageEntry
  split
  · exact absurd (by assumption) hs
  next heq _ => exact absurd (h.symm.trans heq) nofun
  next heq _ =>
    obtain rfl := Option.some.inj (h.symm.trans heq)
    rfl

/-- R124: what the ageing can make of an entry: the same, the entry grown older, or a lost one. -/
theorem ageEntry_cases (e : Entry) : ageEntry e = some e ∨ ∃ b, e.state ≠ .absent ∧ e.last = some b ∧
    (ageEntry e = loseEntry e ∨ (min (e.age + 1) 65535 < 1000 * b.period ∧ ageEntry e = some { e with
      age := min (e.age + 1) 65535, state := if 300 * b.period ≤ min (e.age + 1) 65535 then .stale else e.state })) := by
  by_cases hs : e.state = .absent
  · exact .inl (ageEntry_of_absent hs)
  · rcases Option.eq_none_or_eq_some e.last with hb | ⟨b, hb⟩
    · exact .inl (ageEntry_of_none hb)
    · refine .inr ⟨b, hs, hb, ?_⟩
      rw [ageEntry_of_some hs hb]
      split
      · exact .inl rfl
      · exact .inr ⟨by omega, rfl⟩

/-- R119: an entry is ABSENT exactly while it holds no beacon. -/
def EntrySound (e : Entry) : Prop := e.state = .absent ↔ e.last = none

/-- R88, R124: the age of an entry below its limits, and its last beacon's fields in range. -/
def AgeOk (e : Entry) : Prop :=
  ∀ b, e.last = some b → 1 ≤ b.period ∧ b.period ≤ 10 ∧ (b.reference < b.cycle ∨ (b.cycle = 0 ∧ b.reference = 0)) ∧
    (e.state = .heard → e.age < 300 * b.period) ∧ e.age < 1000 * b.period

/-- From `e` to `f` an entry has moved: its address stands, and it stays sound and young. -/
def EntryMoved (e f : Entry) : Prop := f.address = e.address ∧ (EntrySound e → EntrySound f) ∧ (AgeOk e → AgeOk f)

theorem EntryMoved.refl (e : Entry) : EntryMoved e e := ⟨rfl, id, id⟩

theorem loseEntry_moved {e f : Entry} (h : loseEntry e = some f) : EntryMoved e f := by
  unfold loseEntry at h
  split at h
  · obtain rfl := Option.some.inj h
    exact ⟨rfl, fun _ => by simp [EntrySound], fun _ b hb => nomatch hb⟩
  · exact nomatch h

theorem ageEntry_moved {e f : Entry} (h : ageEntry e = some f) : EntryMoved e f := by
  rcases ageEntry_cases e with heq | ⟨b, hs, hb, heq | ⟨hlt, heq⟩⟩
  · obtain rfl := Option.some.inj (heq.symm.trans h)
    exact .refl e
  · exact loseEntry_moved (heq.symm.trans h)
  · obtain rfl := Option.some.inj (heq.symm.trans h)
    refine ⟨rfl, fun _ => ?_, fun ha c hc => ?_⟩
    · have hstate : (if 300 * b.period ≤ min (e.age + 1) 65535 then EntryState.stale else e.state) ≠ .absent := by
        split
        · exact nofun
        · exact hs
      simp only [EntrySound, hb]
      exact ⟨fun h => absurd h hstate, nofun⟩
    · obtain rfl : b = c := Option.some.inj (hb.symm.trans hc)
      obtain ⟨h1, h10, href, -, -⟩ := ha b hb
      refine ⟨h1, h10, href, fun hheard => ?_, hlt⟩
      dsimp only at hheard ⊢
      split at hheard
      · exact nomatch hheard
      · omega

/-! ## The table moves -/

/-- From `s` to `t` each entry of the table has moved or gone. -/
def TableMoved (s t : State) : Prop :=
  ∀ (p : Place) (f : Entry), t.nt.places[p] = some f → ∃ e, s.nt.places[p] = some e ∧ EntryMoved e f

theorem TableMoved.tableLaw {s t : State} (h : TableMoved s t) (hi : ∀ img, t.cf.image = some img → s.cf.image = some img)
    (hs : TableLaw s) : TableLaw t := by
  obtain ⟨hu, ho, hsound⟩ := hs
  refine ⟨fun p q e f he hf hef => ?_, fun img himg p e he => ?_, fun p e he => ?_⟩
  · obtain ⟨e', he', ha, -⟩ := h p e he
    obtain ⟨f', hf', hb, -⟩ := h q f hf
    exact hu p q e' f' he' hf' (ha.symm.trans (hef.trans hb))
  · obtain ⟨e', he', ha, -⟩ := h p e he
    exact ha ▸ ho img (hi img himg) p e' he'
  · obtain ⟨e', he', -, hk, -⟩ := h p e he
    exact hk (hsound p e' he')

theorem TableMoved.ageLaw {s t : State} (h : TableMoved s t) (hs : AgeLaw s) : AgeLaw t := by
  intro p f b hf hb
  obtain ⟨e, he, -, -, hk⟩ := h p f hf
  exact hk (fun b hb => hs p e b he hb) b hb

theorem TableMoved.of_nt {s t : State} (h : t.nt = s.nt) : TableMoved s t := fun _ f hf => ⟨f, h ▸ hf, .refl f⟩

theorem TableMoved.trans {s t u : State} (h : TableMoved s t) (k : TableMoved t u) : TableMoved s u := by
  intro p f hf
  obtain ⟨e, he, h1, h2, h3⟩ := k p f hf
  obtain ⟨d, hd, k1, k2, k3⟩ := h p e he
  exact ⟨d, hd, h1.trans k1, h2 ∘ k2, h3 ∘ k3⟩

theorem setPlace_moved {s : State} {p : Place} {x : Option Entry}
    (h : ∀ f, x = some f → ∃ e, s.nt.places[p] = some e ∧ EntryMoved e f) : TableMoved s (setPlace p x s) := by
  intro q f hf
  rw [setPlace_places] at hf
  split at hf
  next hpq => exact hpq ▸ h f hf
  · exact ⟨f, hf, .refl f⟩

theorem bind_moved {g : Entry → Option Entry} (hg : ∀ e f, g e = some f → EntryMoved e f) {x : Option Entry} {f : Entry}
    (h : x.bind g = some f) : ∃ e, x = some e ∧ EntryMoved e f := by
  obtain ⟨e, he, hf⟩ := Option.bind_eq_some_iff.mp h
  exact ⟨e, he, hg e f hf⟩

theorem setPlace_age_moved (s : State) (p : Place) : TableMoved s (setPlace p ((s.nt.places[p]).bind ageEntry) s) :=
  setPlace_moved fun _ hf => bind_moved (fun _ _ => ageEntry_moved) hf

theorem ntWork_moved (s : State) : TableMoved s (ntWork s) := by
  intro p f hf
  rw [ntWork_places] at hf
  split at hf
  · exact ⟨f, hf, .refl f⟩
  · exact bind_moved (fun _ _ => ageEntry_moved) hf

theorem restartTable_place (s : State) (p : Place) :
    (restartTable s).nt.places[p] = (s.nt.places[p]).bind loseEntry :=
  tab_get (fun p : Place => (s.nt.places[p]).bind loseEntry) p

theorem restartTable_moved (s : State) : TableMoved s (restartTable s) := by
  intro p f hf
  rw [restartTable_place] at hf
  exact bind_moved (fun _ _ => loseEntry_moved) hf

theorem takeFlashMode_moved (sender : Nat) (s : State) : TableMoved s (takeFlashMode sender s) := by
  unfold takeFlashMode
  split
  · refine setPlace_moved fun f hf => ?_
    obtain ⟨e, he, rfl⟩ := Option.map_eq_some_iff.mp hf
    refine ⟨e, he, rfl, fun hs => ?_, fun ha b hb => ?_⟩
    · simp only [EntrySound, Option.map_eq_none_iff] at hs ⊢
      exact hs
    · obtain ⟨b', hb', rfl⟩ := Option.map_eq_some_iff.mp hb
      exact ha b' hb'
  · exact .of_nt rfl

/-! ## A place found by its address -/

theorem find?_finRange_eq_some {n : Nat} {p : Fin n → Bool} {i : Fin n} (hi : p i = true) (hlt : ∀ j < i, p j = false) :
    (List.finRange n).find? p = some i := by
  rw [List.find?_eq_findSome?_guard]
  exact findSome?_finRange_eq_some (i := i) (by simp [hi]) fun j hj => by simp [hlt j hj]

theorem holdsAddress_iff (s : State) (a : Nat) (p : Place) :
    holdsAddress s a p = true ↔ ∃ e, s.nt.places[p] = some e ∧ e.address = a := by
  unfold holdsAddress
  split <;> simp [*]

theorem find?_holdsAddress {s : State} (hlaw : TableLaw s) {p : Place} {e : Entry} (hp : s.nt.places[p] = some e) :
    places.find? (holdsAddress s e.address) = some p := by
  refine find?_finRange_eq_some ((holdsAddress_iff s _ p).mpr ⟨e, hp, rfl⟩) fun q hq => ?_
  by_contra hne
  obtain ⟨f, hf, ha⟩ := (holdsAddress_iff s _ q).mp (Bool.not_eq_false _ ▸ hne)
  exact absurd (hlaw.1 q p f e hf hp ha) (ne_of_lt hq)

theorem find?_holdsAddress_none {s : State} {a : Nat} :
    places.find? (holdsAddress s a) = none ↔ ∀ (p : Place) (e : Entry), s.nt.places[p] = some e → e.address ≠ a := by
  simp only [places, List.find?_eq_none, List.mem_finRange, true_implies, holdsAddress_iff, not_exists, not_and, ne_eq]

theorem find?_free {s : State} {p : Place} (hp : s.nt.places[p] = none) (hfirst : ∀ q : Place, q < p → s.nt.places[q] ≠ none) :
    places.find? (fun p => s.nt.places[p].isNone) = some p :=
  find?_finRange_eq_some (by rw [hp]; rfl) fun q hq => Option.isNone_eq_false_iff.mpr (Option.isSome_iff_ne_none.mpr (hfirst q hq))

theorem replaceable_iff (s : State) (p : Place) :
    replaceable s p = true ↔ ∃ e, s.nt.places[p] = some e ∧ e.pinned = false ∧ e.state = .stale := by
  unfold replaceable
  split <;> simp [*]

theorem oldestPlace_mem {s : State} : ∀ {ps : List Place} {p : Place}, oldestPlace s ps = some p → p ∈ ps
  | [], _, h => nomatch h
  | x :: rest, p, h => by
    unfold oldestPlace at h
    split at h
    · exact Option.some.inj h ▸ List.mem_cons_self
    next q hq =>
      split at h
      · exact Option.some.inj h ▸ List.mem_cons_of_mem _ (oldestPlace_mem hq)
      · exact Option.some.inj h ▸ List.mem_cons_self

/-- R123: the place of greatest age, the first among equals. -/
theorem oldestPlace_eq {s : State} {p : Place} : ∀ {ps : List Place}, ps.Pairwise (· < ·) → p ∈ ps →
    (∀ q ∈ ps, q ≠ p → ageAt s q < ageAt s p ∨ (ageAt s q = ageAt s p ∧ p < q)) → oldestPlace s ps = some p
  | [], _, hp, _ => nomatch hp
  | x :: rest, hs, hp, h => by
    obtain ⟨hx, hrest⟩ := List.pairwise_cons.mp hs
    unfold oldestPlace
    rcases List.mem_cons.mp hp with rfl | hmem
    · split
      · rfl
      next q hq =>
        have hq' := oldestPlace_mem hq
        have hlt := hx q hq'
        rcases h q (List.mem_cons_of_mem _ hq') (ne_of_gt hlt) with h' | ⟨h', -⟩
        · rw [if_neg (by omega)]
        · rw [if_neg (by omega)]
    · rw [oldestPlace_eq hrest hmem fun q hq => h q (List.mem_cons_of_mem _ hq)]
      dsimp only
      rw [if_pos]
      have hlt := hx p hmem
      rcases h x List.mem_cons_self (ne_of_lt hlt) with h' | ⟨-, h'⟩
      · exact h'
      · exact absurd hlt (lt_asymm h')

/-! ## A frame dispatched -/

/-- What a received byte does besides the Line Unit: nothing, or the dispatch of a good frame from another station. -/
theorem byteTaken_cases (b : Byte) (framingError : Bool) (s : State) : Only [.lu] s (byteTaken b framingError s) ∨
    ∃ img f u, s.cf.image = some img ∧ fieldsWellFormed f = true ∧ num f 1 ≠ img.address ∧ Only [.lu] s u ∧
      byteTaken b framingError s = dispatch img f u := by
  have busy : Only [.lu] s (s.withLu { s.lu with busy := true }) := withLu_only s _
  have judged (echo : Bool) (f : List Byte) (u : State) (hu : Only [.lu] s u) : Only [.lu] s (judge echo f u) ∨
      ∃ img g v, s.cf.image = some img ∧ fieldsWellFormed g = true ∧ num g 1 ≠ img.address ∧ Only [.lu] s v ∧
        judge echo f u = dispatch img g v := by
    unfold judge
    split
    · exact .inl hu
    next img hi =>
      dsimp only
      split
      · exact .inl (hu.trans (withLu_only _ _))
      · split
        · exact .inl (hu.trans (withLu_only _ _))
        next hgood =>
          split
          · split
            · exact .inl hu
            · exact .inl (hu.trans (withLu_only _ _))
          next hown =>
            exact .inr ⟨img, f, _, (hu.cf (by simp)) ▸ hi, by simpa using hgood, hown, hu.trans (withLu_only _ _), rfl⟩
  unfold byteTaken assemble
  generalize s.withLu { s.lu with busy := true } = u at busy ⊢
  split
  · exact .inl busy
  · split
    · exact .inl (busy.trans (withLu_only _ _))
    · exact .inl (busy.trans ((withLu_only _ _).trans (withLu_only _ _)))
  · split
    · exact .inl (busy.trans ((withLu_only _ _).trans (withLu_only _ _)))
    · unfold keepByte
      split
      · exact .inl (busy.trans (withLu_only _ _))
      · split
        · exact .inl (busy.trans ((withLu_only _ _).trans (withLu_only _ _)))
        · split
          · exact .inl (busy.trans (withLu_only _ _))
          · exact judged _ _ _ (busy.trans (withLu_only _ _))

theorem receiveByte_after (b : Byte) (framingError : Bool) (s : State) :
    Only [.lu, .ck] (byteTaken b framingError s) (receiveByte b framingError s) := readback_only b framingError _

/-- R115: the block a good frame from another station reaches. -/
theorem dispatch_cases (img : Image) (f : List Byte) (s : State) :
    (num f 2 = 0x54 ∧ dispatch img f s = takeBeacon img (num f 1) (beaconOf f) s) ∨
      (num f 2 = 0x51 ∧ dispatch img f s = takeFlashAlert (num f 1) s) ∨ dispatch img f s = s ∨
      (num f 2 = 0x52 ∧ dispatch img f s = takePreemptAlert (num f 1) (num f 4) (num16 f 6) s) ∨
      dispatch img f s = takePlatoon (num f 1) (num f 4) (num16 f 5) (num16 f 7) s := by
  unfold dispatch
  dsimp only
  split
  · exact .inl ⟨‹_›, rfl⟩
  · split
    · exact .inr (.inl ⟨‹_›, rfl⟩)
    · split
      · exact .inr (.inr (.inl rfl))
      · split
        · exact .inr (.inr (.inr (.inl ⟨‹_›, rfl⟩)))
        · exact .inr (.inr (.inr (.inr rfl)))

theorem takeFlashAlert_nt (sender : Nat) (s : State) : (takeFlashAlert sender s).nt = (takeFlashMode sender s).nt :=
  ((cancelAlert_only sender _).nt (by simp)).trans ((purgeSender_only sender _).nt (by simp))

/-! ## The laws of the table -/

theorem writeBeacon_entry {b : LastBeacon} (h1 : 1 ≤ b.period) (h10 : b.period ≤ 10)
    (href : b.reference < b.cycle ∨ (b.cycle = 0 ∧ b.reference = 0)) {e : Entry} (hs : e.state = .heard) (hl : e.last = some b)
    (ha : e.age = 0) : EntrySound e ∧ AgeOk e := by
  refine ⟨by simp [EntrySound, hs, hl], fun c hc => ?_⟩
  obtain rfl : b = c := Option.some.inj (hl.symm.trans hc)
  exact ⟨h1, h10, href, fun _ => by omega, by omega⟩

/-- R113: the fields of a BEACON as they are handed over lie in their ranges. -/
theorem beaconOf_range {f : List Byte} (h : fieldsWellFormed f = true) (hk : num f 2 = 0x54) :
    1 ≤ (beaconOf f).period ∧ (beaconOf f).period ≤ 10 ∧ ((beaconOf f).reference < (beaconOf f).cycle ∨
      ((beaconOf f).cycle = 0 ∧ (beaconOf f).reference = 0)) := by
  have hgood := (fieldsWellFormed_iff (n := 12) (by simp [frameKinds, hk])).mp h
  obtain ⟨-, -, -, -, hbeacon⟩ := hgood
  obtain ⟨-, -, ⟨h1, h10⟩, hcycle⟩ := hbeacon hk
  refine ⟨h1, h10, ?_⟩
  show num16 f 6 < 100 * num f 5 ∨ (100 * num f 5 = 0 ∧ num16 f 6 = 0)
  rw [show num16 f 6 = 256 * num f 6 + num f 7 from num16_eq f 6]
  omega

/-- R122, R123: the table after a place has been given the entry of a station that no place held. -/
theorem tableLaw_fillPlace {s : State} {sender : Nat} {p : Place} {e : Entry} (hs : TableLaw s) (he : EntrySound e)
    (hnew : ∀ (q : Place) (f : Entry), s.nt.places[q] = some f → f.address ≠ e.address)
    (hown : ∀ img, s.cf.image = some img → e.address ≠ img.address) : TableLaw (fillPlace sender p (some e) s) := by
  obtain ⟨hu, ho, hsound⟩ := hs
  refine ⟨fun q r f g hf hg hfg => ?_, fun img hi q f hf => ?_, fun q f hf => ?_⟩
  · rw [fillPlace_places] at hf hg
    split at hf
    next hpq =>
      split at hg
      next hpr => exact hpq.symm.trans hpr
      · obtain rfl := Option.some.inj hf
        exact absurd hfg.symm (hnew r g hg)
    · split at hg
      · obtain rfl := Option.some.inj hg
        exact absurd hfg (hnew q f hf)
      · exact hu q r f g hf hg hfg
  · rw [fillPlace_places] at hf
    split at hf
    · exact Option.some.inj hf ▸ hown img hi
    · exact ho img hi q f hf
  · rw [fillPlace_places] at hf
    split at hf
    · exact Option.some.inj hf ▸ he
    · exact hsound q f hf

theorem ageLaw_fillPlace {s : State} {sender : Nat} {p : Place} {x : Option Entry} (hs : AgeLaw s)
    (hx : ∀ e, x = some e → AgeOk e) : AgeLaw (fillPlace sender p x s) := by
  intro q f b hf hb
  rw [fillPlace_places] at hf
  split at hf
  · exact hx f hf b hb
  · exact hs q f b hf hb

theorem takeBeacon_keeps {img : Image} {sender : Nat} {b : LastBeacon} {s : State} (h1 : 1 ≤ b.period) (h10 : b.period ≤ 10)
    (href : b.reference < b.cycle ∨ (b.cycle = 0 ∧ b.reference = 0)) (hi : s.cf.image = some img)
    (hown : sender ≠ img.address) :
    (TableLaw s → TableLaw (takeBeacon img sender b s)) ∧ (AgeLaw s → AgeLaw (takeBeacon img sender b s)) := by
  obtain ⟨hsound, hage⟩ := writeBeacon_entry h1 h10 href (e := unpinnedEntry img sender b) rfl rfl rfl
  have filled (p : Place) (hnone : places.find? (holdsAddress s sender) = none) :
      (TableLaw s → TableLaw (fillPlace sender p (some (unpinnedEntry img sender b)) s)) ∧
        (AgeLaw s → AgeLaw (fillPlace sender p (some (unpinnedEntry img sender b)) s)) := by
    refine ⟨fun h => tableLaw_fillPlace h hsound (find?_holdsAddress_none.mp hnone) fun j hj => ?_,
      fun h => ageLaw_fillPlace h fun e he => Option.some.inj he ▸ hage⟩
    exact Option.some.inj (hi.symm.trans hj) ▸ hown
  rcases takeBeacon_cases img sender b s with ⟨p, -, heq⟩ | ⟨hnone, ⟨p, -, heq⟩ | ⟨-, ⟨p, -, heq⟩ | ⟨-, heq⟩⟩⟩
  · rw [heq]
    have moved : TableMoved s (fillPlace sender p ((s.nt.places[p]).map (writeBeacon b)) s) := by
      intro q f hf
      rw [fillPlace_places] at hf
      split at hf
      next hpq =>
        obtain ⟨e, he, rfl⟩ := Option.map_eq_some_iff.mp hf
        obtain ⟨hsound, hage⟩ := writeBeacon_entry h1 h10 href (e := writeBeacon b e) rfl rfl rfl
        exact ⟨e, hpq ▸ he, rfl, fun _ => hsound, fun _ => hage⟩
      · exact ⟨f, hf, .refl f⟩
    exact ⟨moved.tableLaw fun _ => id, moved.ageLaw⟩
  · exact heq ▸ filled p hnone
  · exact heq ▸ filled p hnone
  · exact heq ▸ ⟨id, id⟩

theorem tableLaw_reads : Reads [.cf, .nt] TableLaw := by
  intro s t same h
  have hcf : t.cf = s.cf := same .cf (by simp)
  have hnt : t.nt = s.nt := same .nt (by simp)
  exact TableMoved.tableLaw (.of_nt hnt) (fun img hi => hcf ▸ hi) h

theorem ageLaw_reads : Reads [.nt] AgeLaw := fun _ _ same h => TableMoved.ageLaw (.of_nt (same .nt (by simp))) h

theorem receiveByte_table (b : Byte) (framingError : Bool) (s : State) :
    (TableLaw s → TableLaw (receiveByte b framingError s)) ∧ (AgeLaw s → AgeLaw (receiveByte b framingError s)) := by
  have taken : (TableLaw s → TableLaw (byteTaken b framingError s)) ∧ (AgeLaw s → AgeLaw (byteTaken b framingError s)) := by
    rcases byteTaken_cases b framingError s with honly | ⟨img, f, u, hi, hgood, hown, hu, heq⟩
    · exact ⟨tableLaw_reads.of_only honly rfl, ageLaw_reads.of_only honly rfl⟩
    · have hi' : u.cf.image = some img := by rw [hu.cf (by simp), hi]
      have before : (TableLaw s → TableLaw u) ∧ (AgeLaw s → AgeLaw u) :=
        ⟨tableLaw_reads.of_only hu rfl, ageLaw_reads.of_only hu rfl⟩
      have after : (TableLaw u → TableLaw (dispatch img f u)) ∧ (AgeLaw u → AgeLaw (dispatch img f u)) := by
        have other {t : State} (ht : t.nt = u.nt) (hc : t.cf = u.cf) :
            (TableLaw u → TableLaw t) ∧ (AgeLaw u → AgeLaw t) :=
          ⟨TableMoved.tableLaw (.of_nt ht) fun j hj => hc ▸ hj, TableMoved.ageLaw (.of_nt ht)⟩
        rcases dispatch_cases img f u with ⟨hk, heq⟩ | ⟨-, heq⟩ | heq | ⟨-, heq⟩ | heq
        · obtain ⟨h1, h10, href⟩ := beaconOf_range hgood hk
          exact heq ▸ takeBeacon_keeps h1 h10 href hi' hown
        · have hcf : (dispatch img f u).cf = u.cf := (dispatch_only img f u).cf (by simp)
          have moved : TableMoved u (dispatch img f u) := by
            rw [heq]
            exact (takeFlashMode_moved (num f 1) u).trans (.of_nt (takeFlashAlert_nt _ _))
          exact ⟨moved.tableLaw fun j hj => hcf ▸ hj, moved.ageLaw⟩
        · exact other (by rw [heq]) (by rw [heq])
        · exact heq ▸ other ((takePreemptAlert_only _ _ _ u).nt (by simp)) ((takePreemptAlert_only _ _ _ u).cf (by simp))
        · exact heq ▸ other ((takePlatoon_only _ _ _ _ u).nt (by simp)) ((takePlatoon_only _ _ _ _ u).cf (by simp))
      exact heq ▸ ⟨after.1 ∘ before.1, after.2 ∘ before.2⟩
  have honly := receiveByte_after b framingError s
  exact ⟨tableLaw_reads.of_only honly rfl ∘ taken.1, ageLaw_reads.of_only honly rfl ∘ taken.2⟩

/-! ## The table at the end of a load (R120) -/

theorem usableRecords_mem (own : Nat) : ∀ (rs : List NeighborRecord) (seen : List Nat),
    ∀ r ∈ usableRecords own seen rs, r.address ≠ own ∧ r.address ∉ seen
  | [], _, r, h => nomatch h
  | x :: rest, seen, r, h => by
    unfold usableRecords at h
    split at h
    next hx =>
      rcases List.mem_cons.mp h with rfl | hr
      · exact hx.2.2
      · obtain ⟨h1, h2⟩ := usableRecords_mem own rest (x.address :: seen) r hr
        exact ⟨h1, fun hs => h2 (List.mem_cons_of_mem _ hs)⟩
    · exact usableRecords_mem own rest seen r h

theorem usableRecords_distinct (own : Nat) : ∀ (rs : List NeighborRecord) (seen : List Nat),
    ((usableRecords own seen rs).map fun r => r.address).Nodup
  | [], _ => List.nodup_nil
  | x :: rest, seen => by
    unfold usableRecords
    split
    · rw [List.map_cons, List.nodup_cons]
      refine ⟨fun hmem => ?_, usableRecords_distinct own rest _⟩
      obtain ⟨r, hr, ha⟩ := List.mem_map.mp hmem
      exact (usableRecords_mem own rest _ r hr).2 (ha ▸ List.mem_cons_self)
    · exact usableRecords_distinct own rest seen

theorem pinnedTable_place (img : Image) (p : Place) : (pinnedTable img)[p] =
    ((usableRecords img.address [] img.neighbors)[p.val]?).map (pinnedEntry img) :=
  tab_get (fun p : Place => ((usableRecords img.address [] img.neighbors)[p.val]?).map (pinnedEntry img)) p

theorem pinnedTable_entry {img : Image} {p : Place} {e : Entry} (h : (pinnedTable img)[p] = some e) :
    ∃ r, (usableRecords img.address [] img.neighbors)[p.val]? = some r ∧ e = pinnedEntry img r := by
  rw [pinnedTable_place] at h
  obtain ⟨r, hr, rfl⟩ := Option.map_eq_some_iff.mp h
  exact ⟨r, hr, rfl⟩

theorem tableLaw_of_pinned {t : State} {img : Image} (hi : t.cf.image = some img) (hp : t.nt.places = pinnedTable img) :
    TableLaw t ∧ AgeLaw t := by
  refine ⟨⟨fun p q e f he hf hef => ?_, fun j hj p e he => ?_, fun p e he => ?_⟩, fun p e b he hb => ?_⟩
  · obtain ⟨r, hr, rfl⟩ := pinnedTable_entry (hp ▸ he)
    obtain ⟨r', hr', rfl⟩ := pinnedTable_entry (hp ▸ hf)
    have hmap (k : Nat) (x : NeighborRecord) (h : (usableRecords img.address [] img.neighbors)[k]? = some x) :
        ((usableRecords img.address [] img.neighbors).map fun r => r.address)[k]? = some x.address := by
      rw [List.getElem?_map, h]
      rfl
    obtain ⟨hlt, -⟩ := List.getElem?_eq_some_iff.mp (hmap p.val r hr)
    refine Fin.ext ((List.getElem?_inj hlt (usableRecords_distinct img.address img.neighbors [])).mp ?_)
    rw [hmap p.val r hr, hmap q.val r' hr']
    exact congrArg some hef
  · obtain rfl := Option.some.inj (hi.symm.trans hj)
    obtain ⟨r, hr, rfl⟩ := pinnedTable_entry (hp ▸ he)
    exact (usableRecords_mem img.address img.neighbors [] r (List.mem_of_getElem? hr)).1
  · obtain ⟨r, hr, rfl⟩ := pinnedTable_entry (hp ▸ he)
    exact ⟨fun _ => rfl, fun _ => rfl⟩
  · obtain ⟨r, hr, rfl⟩ := pinnedTable_entry (hp ▸ he)
    exact nomatch hb

theorem LoadTaken.table {s t : State} (h : LoadTaken s t) : TableLaw t ∧ AgeLaw t := by
  obtain ⟨-, raw, position, -, rfl⟩ := h
  exact tableLaw_of_pinned rfl rfl

theorem table_empty {t : State} (h : t.nt.places = NtState.reset.places) : TableLaw t ∧ AgeLaw t := by
  have hnone (p : Place) : t.nt.places[p] = none := by
    rw [h]
    exact tab_get _ p
  refine ⟨⟨fun p q e f he => ?_, fun img _ p e he => ?_, fun p e he => ?_⟩, fun p e b he => ?_⟩ <;>
    exact absurd ((hnone p).symm.trans he) nofun

/-! ## The laws are kept -/

/-- From `s` to `t` each law of the table is kept. -/
def TableKept (s t : State) : Prop := (TableLaw s → TableLaw t) ∧ (AgeLaw s → AgeLaw t)

theorem TableMoved.kept {s t : State} (h : TableMoved s t) (hc : t.cf = s.cf) : TableKept s t :=
  ⟨h.tableLaw fun _ hi => hc ▸ hi, h.ageLaw⟩

theorem TableKept.whenDue {c : Bool} {s t : State} (h : TableKept s t) : TableKept s (whenDue c t s) := by
  unfold Machine.whenDue
  split
  · exact h
  · exact ⟨id, id⟩

theorem table_event {c : Instr} {s t : State} (ht : touches [.cf, .nt] (Instr.reaches c) = true)
    (hc : Instr.isEvent c = true) (hx : exec c s = .next t) : TableKept s t := by
  have taken {u : State} (h : TableLaw u ∧ AgeLaw u) : TableKept s u := ⟨fun _ => h.1, fun _ => h.2⟩
  have loads (h : LoadGoesOn s t) : TableKept s t := by
    have hnt : t.nt = s.nt := h.only.nt (by simp)
    obtain ⟨-, cf, hi, -, rfl | rfl⟩ := h
    · exact ⟨TableMoved.tableLaw (.of_nt hnt) fun _ hj => hi ▸ hj, TableMoved.ageLaw (.of_nt hnt)⟩
    · exact ⟨TableMoved.tableLaw (.of_nt hnt) fun _ hj => hi ▸ hj, TableMoved.ageLaw (.of_nt hnt)⟩
  cases c with
  | powerOn => injection hx with hx; exact hx ▸ taken (table_empty rfl)
  | resetPin => injection hx with hx; exact hx ▸ taken (table_empty rfl)
  | headerRead bs => exact (headerRead_cases hx).elim (fun e => e ▸ ⟨id, id⟩) loads
  | memoryNoAcknowledge bs => exact (memoryNoAcknowledge_cases hx).elim (fun e => e ▸ ⟨id, id⟩) loads
  | loadEnd body =>
    exact (loadEnd_cases hx).elim (fun e => e ▸ ⟨id, id⟩) fun h => h.elim loads fun h => taken h.table
  | byteReceived b e => injection hx with hx; exact hx ▸ TableKept.whenDue (receiveByte_table b e s)
  | frameReceived b => injection hx with hx; exact hx ▸ TableKept.whenDue (receiveByte_table b false s)
  | entryStale p =>
    injection hx with hx
    rw [← hx]
    split
    · exact ((setPlace_age_moved s p).kept rfl).whenDue
    · exact ⟨id, id⟩
  | entryLost p =>
    injection hx with hx
    rw [← hx]
    split
    · exact ((setPlace_age_moved s p).kept rfl).whenDue
    · exact ⟨id, id⟩
  | _ => first | exact (Bool.false_ne_true ht).elim | exact (Bool.false_ne_true hc).elim

theorem table_command {m : MpCommand} (s : State) (ht : touches [.cf, .nt] m.blocks = true) : TableKept s (carryOut s m) := by
  cases m with
  | reload =>
    have h : TableLaw (reloadStation s) ∧ AgeLaw (reloadStation s) := table_empty rfl
    exact ⟨fun _ => h.1, fun _ => h.2⟩
  | blockRestart a =>
    show TableKept s (blockRestartEffect a.toNat s)
    have frame {cs : List Block} {u : State} (h : Only cs s u) (hc : touches [.cf, .nt] cs = false) : TableKept s u :=
      ⟨tableLaw_reads.of_only h hc, ageLaw_reads.of_only h (by
        simp only [touches, List.any_eq_false] at hc ⊢
        intro b hb
        have := hc b hb
        simp only [List.contains_cons, List.contains_nil, Bool.or_false, Bool.not_eq_true, Bool.or_eq_false_iff] at this ⊢
        exact this.2)⟩
    unfold blockRestartEffect
    split
    · exact frame (restartLine_only s) rfl
    · split
      · have moved : TableMoved s (restartClock (restartTable s)) :=
          (restartTable_moved s).trans (.of_nt ((restartClock_only _).nt (by simp)))
        exact moved.kept ((restartClock_only _).cf (by simp))
      · exact frame (blockRestartDetectors_only s) rfl
  | _ => exact (Bool.false_ne_true ht).elim

theorem table_work {w : Work} {began : Mode} {s : State} (ht : touches [.cf, .nt] w.blocks = true) (hw : w ≠ .mp) :
    TableKept s (doWork began s w) := by
  cases w with
  | mp => exact absurd rfl hw
  | neighbors => exact (ntWork_moved s).kept rfl
  | _ => exact (Bool.false_ne_true ht).elim

/-- What reaches the table's own block reaches one of the two that its laws read. -/
theorem touches_table {cs : List Block} (h : touches [.nt] cs = true) : touches [.cf, .nt] cs = true := by
  simp only [touches, List.any_eq_true] at h ⊢
  obtain ⟨b, hb, hn⟩ := h
  exact ⟨b, hb, by simpa using Or.inr (by simpa using hn)⟩

/-- Settles O46: an entry keeps its address as it moves, a new one is written only for an address that no place holds, and its
age starts at 0. -/
theorem neighborTableLawHolds : Obligations.NeighborTableLawHolds :=
  ⟨tableLaw_reads.kept (by decide) (fun _ _ _ ht hc h hx => (table_event ht hc hx).1 h)
      (fun _ s ht _ h => (table_command s ht).1 h) fun _ _ _ ht hw h => (table_work ht hw).1 h,
    ageLaw_reads.kept (by decide) (fun _ _ _ ht hc h hx => (table_event (touches_table ht) hc hx).2 h)
      (fun _ s ht _ h => (table_command s (touches_table ht)).2 h) fun _ _ _ ht hw h => (table_work (touches_table ht) hw).2 h⟩

/-! ## Rows of the table -/

theorem nextAge_of {s : State} {p : Place} {e : Entry} {b : LastBeacon} (he : s.nt.places[p] = some e) (hb : e.last = some b) :
    nextAge s p = some (e.state, min (e.age + 1) 65535, b.period) := by
  unfold nextAge
  rw [he]
  dsimp only
  rw [hb]
  rfl

theorem setPlace_age {s : State} {p : Place} {e : Entry} (he : s.nt.places[p] = some e) :
    setPlace p ((s.nt.places[p]).bind ageEntry) s = s.withNt { s.nt with places := put s.nt.places p (ageEntry e) } := by
  rw [he]
  rfl

/-- R124: one entry at a tick, in the words of the rule. -/
theorem ntWork_place {s : State} (hlaw : TableLaw s) (p : Place) {e : Entry} (he : s.nt.places[p] = some e) :
    (e.state = .absent ∨ s.nt.passOver[p] = true → (ntWork s).nt.places[p] = some e) ∧
      ∀ b, e.last = some b → s.nt.passOver[p] = false →
        (min (e.age + 1) 65535 < 1000 * b.period → (ntWork s).nt.places[p] = some { e with
          age := min (e.age + 1) 65535, state := if min (e.age + 1) 65535 < 300 * b.period then e.state else .stale }) ∧
        (1000 * b.period ≤ min (e.age + 1) 65535 → (ntWork s).nt.places[p] =
          if e.pinned then some { e with state := .absent, last := none, age := 65535 } else none) := by
  rw [ntWork_places, he]
  refine ⟨fun h => ?_, fun b hb hpass => ?_⟩
  · split
    · rfl
    next hpass => exact ageEntry_of_absent (h.resolve_right hpass)
  · have hs : e.state ≠ .absent := fun h => absurd ((hlaw.2.2 p e he).mp h) (by simp [hb])
    rw [hpass, if_neg (by simp), Option.bind_some, ageEntry_of_some hs hb]
    refine ⟨fun hlt => ?_, fun hge => if_pos hge⟩
    rw [if_neg (by omega)]
    by_cases hstale : 300 * b.period ≤ min (e.age + 1) 65535
    · rw [if_pos hstale, if_neg (by omega)]
    · rw [if_neg hstale, if_pos (by omega)]

theorem onlyBy_neighbors_nt : OnlyBy .neighbors .nt := by
  intro v hmp hv
  cases v <;> simp_all [Work.blocks]

theorem onlyBy_neighbors_cf : OnlyBy .neighbors .cf := by
  intro v hmp hv
  cases v <;> simp_all [Work.blocks]

/-- Settles O13. -/
theorem entriesAgeAndAreLost : Obligations.EntriesAgeAndAreLost := by
  refine ⟨fun d r x s hlaw hp => ?_, fun p s e b he hb => ⟨fun hs h3 h10 => ?_, fun hs h10 => ?_⟩⟩
  · obtain ⟨u, t, hx, -, hblocks⟩ := tick_at .neighbors d r x hp
    obtain ⟨hbefore, hafter⟩ := hblocks .nt onlyBy_neighbors_nt
    have hu : u.nt = s.nt := hbefore
    have hcf : u.cf = s.cf := (hblocks .cf onlyBy_neighbors_cf).1
    have ht : t.nt = (ntWork u).nt := hafter (by simp)
    have hlaw' : TableLaw u := TableMoved.tableLaw (.of_nt hu) (fun _ hi => hcf ▸ hi) hlaw
    refine ⟨t, hx, ?_, fun p => ⟨?_, fun hnone => ?_, fun e he => ?_⟩⟩
    · rw [ht, ntWork_refused, hu]
    · rw [ht, ntWork_passOver]
    · rw [ht, ntWork_places, hu, hnone]
      split <;> rfl
    · rw [ht, ← hu]
      exact ntWork_place hlaw' p (hu ▸ he)
  · have hx : exec (.entryStale p) s = .next (setPlace p ((s.nt.places[p]).bind ageEntry) s) := by
      show execEntryStale p s = _
      unfold execEntryStale
      rw [nextAge_of he hb]
      exact congrArg Host.Outcome.next (whenDue_true (by simp [hs, h3, h10]) _ _)
    rw [hx, setPlace_age he, ageEntry_of_some (by simp [hs]) hb, if_neg (by omega), if_pos h3]
  · have hx : exec (.entryLost p) s = .next (setPlace p ((s.nt.places[p]).bind ageEntry) s) := by
      show execEntryLost p s = _
      unfold execEntryLost
      rw [nextAge_of he hb]
      exact congrArg Host.Outcome.next (whenDue_true (by simp [hs, h10]) _ _)
    rw [hx, setPlace_age he, ageEntry_of_some hs hb, if_pos h10]
    rfl

/-! ## FRAME_RECEIVED of a BEACON -/

theorem beaconModeCode_beaconModeOf {n : Nat} (h : Between 1 4 n) :
    beaconModeCode ((beaconModeOf n).getD .flash) = n := by
  obtain ⟨h1, h4⟩ := h
  match n with
  | 0 => omega
  | 1 | 2 | 3 | 4 => rfl
  | n + 5 => omega

theorem classCode_classOf (n : Nat) : classCode (classOf (n % 4)) = n % 4 := by
  have hlt : n % 4 < 4 := Nat.mod_lt _ (by decide)
  match h : n % 4 with
  | 0 | 1 | 2 | 3 => rfl
  | k + 4 => omega

/-- R115: a good BEACON is handed over with its fields. -/
theorem beaconRead_beaconOf {f : List Byte} (hgood : FieldsGood f) (hk : num f 2 = 0x54) : BeaconRead f (beaconOf f) := by
  obtain ⟨-, -, -, -, hbeacon⟩ := hgood
  obtain ⟨hmode, hplan, -, -⟩ := hbeacon hk
  refine ⟨beaconModeCode_beaconModeOf hmode, ?_, rfl, num16_eq f 6, rfl, rfl, rfl, rfl, rfl, classCode_classOf _⟩
  have hcode : codeItem 4 (num f 4) = some ⟨num f 4 - 1, by have := hplan.1; have := hplan.2; omega⟩ :=
    codeItem_eq_some.mpr (by have := hplan.1; simp; omega)
  show ((codeItem 4 (num f 4)).getD 0).val + 1 = num f 4
  rw [hcode]
  have := hplan.1
  simp
  omega

theorem ageAt_of {s : State} {p : Place} {e : Entry} (h : s.nt.places[p] = some e) : ageAt s p = e.age := by
  unfold ageAt
  rw [h]

theorem places_sorted : places.Pairwise (· < ·) := List.pairwise_lt_finRange 8

/-- R122, R123: the place in which a BEACON is written, and where there is none its refusal. -/
theorem takeBeacon_places {s : State} (hlaw : TableLaw s) (img : Image) (sender : Nat) (b : LastBeacon) :
    (∀ (p : Place) (e : Entry), s.nt.places[p] = some e → e.address = sender →
      takeBeacon img sender b s = fillPlace sender p (some (writeBeacon b e)) s) ∧
    ((∀ (p : Place) (e : Entry), s.nt.places[p] = some e → e.address ≠ sender) →
      (∀ p : Place, s.nt.places[p] = none → (∀ q : Place, q < p → s.nt.places[q] ≠ none) →
        takeBeacon img sender b s = fillPlace sender p (some (unpinnedEntry img sender b)) s) ∧
      ((∀ p : Place, s.nt.places[p] ≠ none) →
        (∀ p : Place, oldestPlace s (places.filter (replaceable s)) = some p →
          takeBeacon img sender b s = fillPlace sender p (some (unpinnedEntry img sender b)) s) ∧
        ((∀ p : Place, ¬replaceable s p = true) →
          takeBeacon img sender b s = s.withNt { s.nt with refused := satInc 255 s.nt.refused }))) := by
  refine ⟨fun p e he ha => ?_, fun hnew => ?_⟩
  · subst ha
    unfold takeBeacon
    rw [find?_holdsAddress hlaw he]
    dsimp only
    rw [he]
    rfl
  · have hnone := find?_holdsAddress_none.mpr hnew
    refine ⟨fun p hp hfirst => ?_, fun hfull => ?_⟩
    · unfold takeBeacon
      rw [hnone, find?_free hp hfirst]
    · have hnofree : places.find? (fun p => s.nt.places[p].isNone) = none := by
        rw [List.find?_eq_none]
        exact fun p _ => by simpa [-Fin.getElem_fin] using hfull p
      refine ⟨fun p hp => ?_, fun hold => ?_⟩
      · unfold takeBeacon
        rw [hnone, hnofree, hp]
      · have hempty : places.filter (replaceable s) = [] := List.filter_eq_nil_iff.mpr fun p _ => hold p
        unfold takeBeacon
        rw [hnone, hnofree, hempty]
        rfl

/-- Settles O44. -/
theorem beaconIsWrittenIntoTheTable : Obligations.BeaconIsWrittenIntoTheTable := by
  intro s img last f hf hk hlaw
  have hx : exec (.frameReceived last) s = .next (takeBeacon img (num f 1) (beaconOf f) (frameCounted s)) := by
    rw [hf.received]
    unfold dispatch
    rw [if_pos hk]
  have honly := frameCounted_only s
  generalize frameCounted s = u at hx honly
  have hnt : u.nt = s.nt := honly.nt (by simp)
  have hlaw' : TableLaw u := tableLaw_reads.of_only honly rfl hlaw
  obtain ⟨hheld, hnew⟩ := takeBeacon_places hlaw' img (num f 1) (beaconOf f)
  have filled (p : Place) (e : Entry) : (fillPlace (num f 1) p (some e) u).nt = { s.nt with
      places := put s.nt.places p (some e),
      passOver := put s.nt.passOver p (Config.beaconBeforeAgeing s.free (num f 1)) } := by
    rw [fillPlace, State.withNt_nt, hnt, honly.free (by simp)]
  refine ⟨_, beaconOf f, hx, (honly.mono (by simp)).trans ((takeBeacon_only _ _ _ u).mono (by simp)),
    beaconRead_beaconOf hf.2.2.1 hk, fun p e he ha => ?_, fun hother => ?_⟩
  · rw [hheld p e (hnt ▸ he) ha]
    exact filled p _
  · obtain ⟨hfree, hfull⟩ := hnew fun p e he => hother p e (hnt ▸ he)
    refine ⟨fun p hp hfirst => ?_, fun hnofree => ?_⟩
    · rw [hfree p (hnt ▸ hp) fun q hq => hnt ▸ hfirst q hq]
      exact filled p _
    · obtain ⟨hold, hrefuse⟩ := hfull fun p => hnt ▸ hnofree p
      refine ⟨fun p e ⟨he, hpin, hstale⟩ hbest => ?_, fun hnone => ?_⟩
      · rw [hold p]
        · exact filled p _
        · have hrep (q : Place) : replaceable u q = true ↔
              ∃ d, s.nt.places[q] = some d ∧ d.pinned = false ∧ d.state = .stale := hnt ▸ replaceable_iff u q
          refine oldestPlace_eq (places_sorted.filter _) ?_ fun q hq hne => ?_
          · exact List.mem_filter.mpr ⟨List.mem_finRange p, (hrep p).mpr ⟨e, he, hpin, hstale⟩⟩
          · obtain ⟨d, hd⟩ := (hrep q).mp (List.mem_filter.mp hq).2
            rw [ageAt_of (s := u) (hnt ▸ hd.1), ageAt_of (s := u) (hnt ▸ he)]
            exact hbest q d hd hne
      · rw [hrefuse fun p hp => ?_]
        · rw [State.withNt_nt, hnt]
          rfl
        · obtain ⟨d, hd⟩ := (replaceable_iff u p).mp hp
          exact hnone p d (hnt ▸ hd)

/-! ## FRAME_RECEIVED of an alert -/

/-- R126: the table after a FLASH-ALERT. -/
theorem takeFlashMode_place {s : State} (hlaw : TableLaw s) (sender : Nat) (p : Place) :
    (takeFlashMode sender s).nt.places[p] = (s.nt.places[p]).map fun e =>
      if e.address = sender then { e with last := e.last.map fun b => { b with mode := .flash } } else e := by
  unfold takeFlashMode
  split
  next q hq =>
    obtain ⟨e, he, rfl⟩ := (holdsAddress_iff s sender q).mp (List.find?_some hq)
    rw [setPlace_places]
    split
    next hqp => rw [← hqp, he]; simp
    next hqp =>
      rcases Option.eq_none_or_eq_some s.nt.places[p] with hp | ⟨f, hf⟩
      · rw [hp]
        rfl
      · have hne : f.address ≠ e.address := fun ha => hqp (hlaw.1 q p e f he hf ha.symm)
        rw [hf]
        simp [hne]
  next hnone =>
    have hother := find?_holdsAddress_none.mp hnone
    rcases Option.eq_none_or_eq_some s.nt.places[p] with hp | ⟨f, hf⟩
    · rw [hp]
      rfl
    · rw [hf]
      simp [hother p f hf]

theorem takeFlashMode_rest (sender : Nat) (s : State) : (takeFlashMode sender s).nt.refused = s.nt.refused ∧
    (takeFlashMode sender s).nt.passOver = s.nt.passOver := by
  unfold takeFlashMode
  split <;> exact ⟨rfl, rfl⟩

theorem acceptingAfter_cases (n : Nat) (b : Bool) : (12 ≤ n → acceptingAfter n b = false) ∧
    (n ≤ 8 → acceptingAfter n b = true) ∧ (8 < n → n < 12 → acceptingAfter n b = b) := by
  unfold acceptingAfter
  refine ⟨fun h => if_pos h, fun h => ?_, fun h8 h12 => ?_⟩
  · rw [if_neg (by omega), if_pos h]
  · rw [if_neg (by omega), if_neg (by omega)]

/-- R143: the accepting flag follows a queue that is replaced. -/
theorem setQueue_follows {s u : State} (q : List Notice) (h : u.pl.accepting = s.pl.accepting) :
    AcceptingFollows s (setQueue q u) := by
  rw [AcceptingFollows, setQueue_queue, setQueue_accepting, h]
  exact acceptingAfter_cases _ _

theorem cancelAlert_pe (sender : Nat) (s : State) : (cancelAlert sender s).pe =
    { s.pe with alert := if s.pe.alert.map (fun a => a.sender) = some sender then none else s.pe.alert } := by
  unfold cancelAlert
  split
  next a ha =>
    by_cases h : a.sender = sender
    · simp [ha, h]
    · rw [if_neg h, if_neg (by simpa [ha] using h)]
  next ha =>
    generalize s.pe = pe at ha ⊢
    cases pe
    cases ha
    rfl

theorem addressed_iff {s : State} {img : Image} (hi : s.cf.image = some img) (f : List Byte) :
    addressed s f = true ↔ num f 3 = img.address ∨ num f 3 = 63 := by
  simp [addressed, stationAddress, hi]

theorem takePreemptAlert_pe {s : State} {img : Image} (hi : s.cf.image = some img) (sender serial eta : Nat) :
    (s.os.mode = .run → (img.cls .emergency).acceptAlerts = true →
        ¬s.pe.alert.map (fun a => (a.sender, a.serial)) = some (sender, serial) →
        (takePreemptAlert sender serial eta s).pe = { s.pe with
          alert := some { sender, serial, countdown := eta - 10 * (img.cls .emergency).lineLead } }) ∧
      (s.os.mode ≠ .run ∨ (img.cls .emergency).acceptAlerts = false ∨
          s.pe.alert.map (fun a => (a.sender, a.serial)) = some (sender, serial) →
        (takePreemptAlert sender serial eta s).pe = { s.pe with ignored := min (s.pe.ignored + 1) 65535 }) := by
  have same : (match s.pe.alert with
      | some a => a.sender == sender && a.serial == serial
      | none => false) = true ↔ s.pe.alert.map (fun a => (a.sender, a.serial)) = some (sender, serial) := by
    cases s.pe.alert <;> simp
  unfold takePreemptAlert
  rw [hi]
  dsimp only
  refine ⟨fun hm ha hh => ?_, fun h => ?_⟩
  · rw [if_neg]
    · rfl
    · rintro (h | h | h)
      · exact h hm
      · simp [ha] at h
      · exact hh (same.mp h)
  · rw [if_pos]
    · rfl
    · exact h.imp_right (Or.imp_right same.mpr)

/-- Settles O45. -/
theorem alertsReachTheirBlocks : Obligations.AlertsReachTheirBlocks := by
  intro s img last f hf
  have hx : exec (.frameReceived last) s = .next (dispatch img f (frameCounted s)) := hf.received
  have hi : s.cf.image = some img := hf.1.1
  refine ⟨fun hk hlaw => ?_, fun hk hto => ?_, fun hk hown hall => ?_⟩
  · have hd : dispatch img f (frameCounted s) = takeFlashAlert (num f 1) (frameCounted s) := by
      unfold dispatch
      rw [if_neg (by omega), if_pos hk]
    rw [hd] at hx
    obtain ⟨href, hpass⟩ := takeFlashMode_rest (num f 1) (frameCounted s)
    have hpl : (takeFlashAlert (num f 1) (frameCounted s)).pl = (purgeSender (num f 1) (takeFlashMode (num f 1) (frameCounted s))).pl :=
      (cancelAlert_only _ _).pl (by simp)
    have hqueue : (takeFlashMode (num f 1) (frameCounted s)).pl = s.pl := (takeFlashMode_only _ _).pl (by simp)
    have hpe : (purgeSender (num f 1) (takeFlashMode (num f 1) (frameCounted s))).pe = s.pe :=
      (takeFlashMode_only _ _).pe (by simp)
    refine ⟨_, hx, ?_, ?_, ?_, fun p => ?_, ?_, ?_, ?_⟩
    · exact ((frameCounted_only s).mono (by simp)).trans (((takeFlashMode_only _ _).mono (by simp)).trans
        (((purgeSender_only _ _).mono (by simp)).trans ((cancelAlert_only _ _).mono (by simp))))
    · rw [takeFlashAlert_nt]
      exact href
    · rw [takeFlashAlert_nt]
      exact hpass
    · rw [takeFlashAlert_nt]
      exact takeFlashMode_place (s := frameCounted s) hlaw _ p
    · rw [hpl]
      unfold purgeSender setQueue
      rw [State.withPl_pl, hqueue]
      simp [bne, Bool.beq_eq_decide_eq]
    · rw [AcceptingFollows, hpl]
      exact setQueue_follows _ (by rw [hqueue])
    · show (cancelAlert (num f 1) _).pe = _
      rw [cancelAlert_pe, hpe]
  · have hd : dispatch img f (frameCounted s) = takePreemptAlert (num f 1) (num f 4) (num16 f 6) (frameCounted s) := by
      have hadd : addressed (frameCounted s) f = true := (addressed_iff (s := frameCounted s) hi f).mpr hto
      unfold dispatch
      rw [if_neg (by omega), if_neg (by omega), hadd, if_neg (by simp), if_pos hk]
    rw [hd] at hx
    obtain ⟨htake, hignore⟩ := takePreemptAlert_pe (s := frameCounted s) hi (num f 1) (num f 4) (num16 f 6)
    refine ⟨_, hx, ((frameCounted_only s).mono (by simp)).trans ((takePreemptAlert_only _ _ _ _).mono (by simp)),
      fun hm ha hh => ?_, fun h => hignore h⟩
    rw [htake hm ha hh, show num16 f 6 = 256 * num f 6 + num f 7 from num16_eq f 6]
    rfl
  · have hd : dispatch img f (frameCounted s) = frameCounted s := by
      have hadd : addressed (frameCounted s) f = false := by
        rw [Bool.eq_false_iff, ne_eq, addressed_iff (s := frameCounted s) hi f]
        exact fun h => h.elim hown hall
      unfold dispatch
      rw [if_neg (by omega), if_neg (by omega), hadd, if_pos (by simp)]
    rw [hd] at hx
    exact ⟨_, hx, frameCounted_only s⟩

end Sys2Proof.Machine


/-! Chapter 8: calls written for a stage, the platoon queue with its law, and the rows of notices. -/

namespace Sys2Proof.Machine

/-! ## Calls for a stage (R25, R142) -/

/-- R25: the call set after a write for one group. -/
theorem writeCall_calls (g h : Group) (s : State) : (writeCall g s).sq.calls[h] = true ↔
    s.sq.calls[h] = true ∨ (h = g ∧ s.ge[h].phase ≠ .green ∧ s.ge[h].phase ≠ .off) := by
  rcases writeCall_cases g s with ⟨hphase, heq⟩ | ⟨hphase, heq⟩
  · rw [heq]
    refine ⟨.inl, fun h' => h'.elim id fun ⟨hg, hgreen, hoff⟩ => ?_⟩
    subst hg
    exact absurd hphase (not_or.mpr ⟨hgreen, hoff⟩)
  · rw [heq, State.withSq_sq]
    dsimp only
    rw [put_get]
    split
    next hgh =>
      subst hgh
      exact ⟨fun _ => .inr ⟨rfl, hphase⟩, fun _ => rfl⟩
    next hgh => simp [Ne.symm hgh]

theorem writeCall_sq (g : Group) (s : State) : (writeCall g s).sq = { s.sq with calls := (writeCall g s).sq.calls } := by
  rcases writeCall_cases g s with ⟨-, heq⟩ | ⟨-, heq⟩
  · rw [heq]
  · rw [heq]
    rfl

theorem inStage_of_cf {s t : State} (h : t.cf = s.cf) (st : Stage) (g : Group) : inStage t st g = inStage s st g := by
  simp only [inStage, h]

/-- R142 (1): the writes to the groups of a stage among `gs`. -/
theorem writeStageCalls_foldl (st : Stage) : ∀ (gs : List Group) (s : State),
    let t := gs.foldl (fun s g => if inStage s st g then writeCall g s else s) s
    Only [.sq] s t ∧ t.sq = { s.sq with calls := t.sq.calls } ∧ ∀ g : Group, t.sq.calls[g] = true ↔
      s.sq.calls[g] = true ∨ (g ∈ gs ∧ inStage s st g = true ∧ s.ge[g].phase ≠ .green ∧ s.ge[g].phase ≠ .off)
  | [], s => ⟨.refl _ s, rfl, fun g => by simp⟩
  | x :: gs, s => by
    obtain ⟨u, hu⟩ : ∃ u, u = if inStage s st x then writeCall x s else s := ⟨_, rfl⟩
    have honly : Only [.sq] s u := by
      rw [hu]
      split
      · exact writeCall_only x s
      · exact .refl _ s
    have hsq : u.sq = { s.sq with calls := u.sq.calls } := by
      rw [hu]
      split
      · exact writeCall_sq x s
      · rfl
    have hcalls (g : Group) : u.sq.calls[g] = true ↔ s.sq.calls[g] = true ∨
        (g = x ∧ inStage s st g = true ∧ s.ge[g].phase ≠ .green ∧ s.ge[g].phase ≠ .off) := by
      rw [hu]
      split
      next hin =>
        rw [writeCall_calls]
        refine or_congr_right ⟨fun ⟨h1, h2⟩ => ⟨h1, h1 ▸ hin, h2⟩, fun ⟨h1, _, h2⟩ => ⟨h1, h2⟩⟩
      next hin =>
        refine ⟨.inl, fun h => h.elim id fun ⟨h1, h2, _⟩ => absurd (h1 ▸ h2) hin⟩
    obtain ⟨ih1, ih2, ih3⟩ := writeStageCalls_foldl st gs u
    dsimp only at ih1 ih2 ih3 ⊢
    rw [List.foldl_cons, ← hu]
    refine ⟨honly.trans ih1, ?_, fun g => ?_⟩
    · rw [ih2, hsq]
    · rw [ih3, hcalls, honly.ge (by simp), inStage_of_cf (honly.cf (by simp)), List.mem_cons]
      constructor
      · rintro ((h | ⟨h1, h2⟩) | ⟨h1, h2⟩)
        · exact .inl h
        · exact .inr ⟨.inl h1, h2⟩
        · exact .inr ⟨.inr h1, h2⟩
      · rintro (h | ⟨h1 | h1, h2⟩)
        · exact .inl (.inl h)
        · exact .inl (.inr ⟨h1, h2⟩)
        · exact .inr ⟨h1, h2⟩

theorem writeStageCalls_called (st : Stage) (s : State) : StageCalled st s (writeStageCalls st s) := by
  obtain ⟨-, hsq, hcalls⟩ := writeStageCalls_foldl st (List.finRange 16) s
  refine ⟨hsq, fun g => (hcalls g).trans ?_⟩
  simp

/-- R142 (1): the writes for the stages of several notices. -/
theorem writeNoticeCalls (ns : List Notice) (s : State) :
    let t := ns.foldl (fun t n => writeStageCalls n.stage t) s
    Only [.sq] s t ∧ t.sq = { s.sq with calls := t.sq.calls } ∧ ∀ g : Group, t.sq.calls[g] = true ↔
      s.sq.calls[g] = true ∨ ((∃ n ∈ ns, inStage s n.stage g = true) ∧ s.ge[g].phase ≠ .green ∧ s.ge[g].phase ≠ .off) := by
  induction ns generalizing s with
  | nil => exact ⟨.refl _ s, rfl, fun g => by simp⟩
  | cons n ns ih =>
    have honly := writeStageCalls_only n.stage s
    obtain ⟨hsq, hcalls⟩ := writeStageCalls_called n.stage s
    obtain ⟨ih1, ih2, ih3⟩ := ih (writeStageCalls n.stage s)
    dsimp only at ih1 ih2 ih3 ⊢
    rw [List.foldl_cons]
    refine ⟨honly.trans ih1, ?_, fun g => ?_⟩
    · rw [ih2, hsq]
    · rw [ih3, hcalls, honly.ge (by simp)]
      simp only [inStage_of_cf (honly.cf (by simp)), List.mem_cons, exists_eq_or_imp]
      tauto

/-! ## The order of the queue (R139) -/

theorem noticeOrder_of_before {n m : Notice} (h : noticeBefore n m = true) : noticeOrder n m := by
  simp only [noticeBefore, Bool.or_eq_true, Bool.and_eq_true, decide_eq_true_eq, beq_iff_eq] at h
  unfold noticeOrder
  omega

theorem noticeOrder_of_not_before {n m : Notice} (h : ¬noticeBefore n m = true) : noticeOrder m n := by
  simp only [noticeBefore, Bool.or_eq_true, Bool.and_eq_true, decide_eq_true_eq, beq_iff_eq] at h
  unfold noticeOrder
  omega

theorem noticeOrder_trans {a b c : Notice} (h : noticeOrder a b) (k : noticeOrder b c) : noticeOrder a c := by
  unfold noticeOrder at *
  omega

theorem pairwise_insertNotice (x : Notice) : ∀ {q : List Notice}, q.Pairwise noticeOrder →
    (insertNotice x q).Pairwise noticeOrder
  | [], _ => List.pairwise_singleton _ _
  | n :: rest, h => by
    obtain ⟨hn, hrest⟩ := List.pairwise_cons.mp h
    unfold insertNotice
    split
    next hx =>
      have hxn := noticeOrder_of_before hx
      refine List.pairwise_cons.mpr ⟨fun m hm => ?_, h⟩
      rcases List.mem_cons.mp hm with rfl | hm
      · exact hxn
      · exact noticeOrder_trans hxn (hn m hm)
    next hx =>
      refine List.pairwise_cons.mpr ⟨fun m hm => ?_, pairwise_insertNotice x hrest⟩
      rcases mem_insertNotice.mp hm with rfl | hm
      · exact noticeOrder_of_not_before hx
      · exact hn m hm

theorem pairwise_sortNotices : ∀ q : List Notice, (sortNotices q).Pairwise noticeOrder
  | [] => List.Pairwise.nil
  | x :: rest => pairwise_insertNotice x (pairwise_sortNotices rest)

/-- The two notices have not one sender and serial. -/
def noticesDiffer (a b : Notice) : Prop := ¬(a.sender = b.sender ∧ a.serial = b.serial)

theorem noticesDiffer_symm {a b : Notice} (h : noticesDiffer a b) : noticesDiffer b a :=
  fun ⟨h1, h2⟩ => h ⟨h1.symm, h2.symm⟩

/-! ## The law of the queue -/

/-- R139: what every queue of notices holds. -/
def NoticesOk (q : List Notice) : Prop :=
  q.length ≤ 16 ∧ q.Pairwise noticeOrder ∧ q.Pairwise noticesDiffer ∧ ∀ n ∈ q, n.active = true ↔ n.t = 0

/-- R139, R143: the law, of the queue and the flag alone. -/
def PlatoonsOk (pl : PlState) : Prop :=
  NoticesOk pl.queue ∧ (12 ≤ pl.queue.length → pl.accepting = false) ∧ (pl.queue.length ≤ 8 → pl.accepting = true)

theorem platoonLaw_iff (s : State) : PlatoonLaw s ↔ PlatoonsOk s.pl := by
  simp only [PlatoonLaw, PlatoonsOk, NoticesOk, and_assoc]
  rfl

theorem PlatoonsOk.of_eq {pl pl' : PlState} (h : PlatoonsOk pl) (hq : pl'.queue = pl.queue)
    (ha : pl'.accepting = pl.accepting) : PlatoonsOk pl' := by
  unfold PlatoonsOk
  rw [hq, ha]
  exact h

theorem NoticesOk.sublist {q r : List Notice} (h : NoticesOk q) (hs : r.Sublist q) : NoticesOk r := by
  obtain ⟨hlen, horder, hdiff, hactive⟩ := h
  exact ⟨hs.length_le.trans hlen, horder.sublist hs, hdiff.sublist hs, fun n hn => hactive n (hs.subset hn)⟩

/-- R143: the flag follows whatever queue is set. -/
theorem NoticesOk.set {q : List Notice} (h : NoticesOk q) (s : State) : PlatoonsOk (setQueue q s).pl := by
  obtain ⟨h12, h8, -⟩ := acceptingAfter_cases q.length s.pl.accepting
  exact ⟨h, h12, h8⟩

theorem noticesOk_nil : NoticesOk [] := ⟨by simp, List.Pairwise.nil, List.Pairwise.nil, by simp⟩

/-- A queue counted down, each notice keeping its sender and serial, and put back in order. -/
theorem noticesOk_sort {q : List Notice} {f : Notice → Notice} (h : NoticesOk q)
    (hkey : ∀ n, (f n).sender = n.sender ∧ (f n).serial = n.serial)
    (hactive : ∀ n ∈ q, (f n).active = true ↔ (f n).t = 0) : NoticesOk (sortNotices (q.map f)) := by
  obtain ⟨hlen, -, hdiff, -⟩ := h
  have hperm := sortNotices_perm (q.map f)
  refine ⟨?_, pairwise_sortNotices _, ?_, fun n hn => ?_⟩
  · rw [hperm.length_eq, List.length_map]
    exact hlen
  · rw [hperm.pairwise_iff noticesDiffer_symm, List.pairwise_map]
    refine hdiff.imp fun {a b} hab ⟨h1, h2⟩ => hab ?_
    rw [(hkey a).1, (hkey b).1] at h1
    rw [(hkey a).2, (hkey b).2] at h2
    exact ⟨h1, h2⟩
  · obtain ⟨m, hm, rfl⟩ := List.mem_map.mp (hperm.mem_iff.mp hn)
    exact hactive m hm

theorem countArrival_key (n : Notice) : (countArrival n).sender = n.sender ∧ (countArrival n).serial = n.serial := by
  unfold countArrival
  split
  · exact ⟨rfl, rfl⟩
  · split <;> exact ⟨rfl, rfl⟩

theorem countArrival_active {n : Notice} (h : n.active = true ↔ n.t = 0) :
    (countArrival n).active = true ↔ (countArrival n).t = 0 := by
  unfold countArrival
  split
  · exact h
  next hn =>
    split
    · simp
    · simp only [hn, Bool.false_eq_true, false_iff]
      omega

theorem countRemaining_some {n m : Notice} (h : countRemaining n = some m) :
    m.sender = n.sender ∧ m.serial = n.serial ∧ m.t = n.t ∧ m.active = n.active := by
  unfold countRemaining at h
  split at h
  · split at h
    · exact nomatch h
    · exact Option.some.inj h ▸ ⟨rfl, rfl, rfl, rfl⟩
  · exact Option.some.inj h ▸ ⟨rfl, rfl, rfl, rfl⟩

theorem NoticesOk.remaining {q : List Notice} (h : NoticesOk q) :
    (q.filterMap countRemaining).length ≤ 16 ∧ (q.filterMap countRemaining).Pairwise noticesDiffer ∧
      ∀ n ∈ q.filterMap countRemaining, n.active = true ↔ n.t = 0 := by
  obtain ⟨hlen, -, hdiff, hactive⟩ := h
  refine ⟨(List.length_filterMap_le _ _).trans hlen, ?_, fun n hn => ?_⟩
  · rw [List.pairwise_filterMap]
    refine hdiff.imp fun {a b} hab x hx y hy ⟨h1, h2⟩ => hab ?_
    obtain ⟨hx1, hx2, -⟩ := countRemaining_some hx
    obtain ⟨hy1, hy2, -⟩ := countRemaining_some hy
    exact ⟨hx1.symm.trans (h1.trans hy1), hx2.symm.trans (h2.trans hy2)⟩
  · obtain ⟨m, hm, hn⟩ := List.mem_filterMap.mp hn
    obtain ⟨-, -, ht, ha⟩ := countRemaining_some hn
    rw [ht, ha]
    exact hactive m hm

/-- R141: the queue after PL's countdown. -/
def countedQueue (q : List Notice) : List Notice := sortNotices ((q.filterMap countRemaining).map countArrival)

theorem NoticesOk.counted {q : List Notice} (h : NoticesOk q) : NoticesOk (countedQueue q) := by
  obtain ⟨hlen, hdiff, hactive⟩ := h.remaining
  have sorted : NoticesOk (sortNotices (q.filterMap countRemaining)) := by
    have hperm := sortNotices_perm (q.filterMap countRemaining)
    refine ⟨hperm.length_eq ▸ hlen, pairwise_sortNotices _, (hperm.pairwise_iff noticesDiffer_symm).mpr hdiff, fun n hn => ?_⟩
    exact hactive n (hperm.mem_iff.mp hn)
  have hsort := noticesOk_sort sorted countArrival_key fun n hn => countArrival_active (sorted.2.2.2 n hn)
  have hperm : (sortNotices ((sortNotices (q.filterMap countRemaining)).map countArrival)).Perm (countedQueue q) :=
    (sortNotices_perm _).trans (((sortNotices_perm _).map _).trans (sortNotices_perm _).symm)
  obtain ⟨h1, -, h3, h4⟩ := hsort
  exact ⟨hperm.length_eq ▸ h1, pairwise_sortNotices _, (hperm.pairwise_iff noticesDiffer_symm).mp h3,
    fun n hn => h4 n (hperm.mem_iff.mpr hn)⟩

theorem plQueueWork_of_tenth {s : State} (h : tenthMark s = true) : plQueueWork s =
    ((s.pl.queue.filterMap countRemaining).filter activates).foldl (fun t n => writeStageCalls n.stage t)
      (setQueue (countedQueue s.pl.queue) s) := if_pos h

theorem plQueueWork_pl (s : State) : (plQueueWork s).pl =
    if tenthMark s = true then (setQueue (countedQueue s.pl.queue) s).pl else s.pl := by
  split
  next h =>
    rw [plQueueWork_of_tenth h]
    exact (writeNoticeCalls _ _).1.pl (by simp)
  next h => exact congrArg State.pl (if_neg h)

theorem NoticesOk.insert {q : List Notice} {x : Notice} (h : NoticesOk q) (hx : x.active = true ↔ x.t = 0)
    (hnew : ∀ n ∈ q, ¬(n.sender = x.sender ∧ n.serial = x.serial)) :
    (insertNotice x q).length ≤ 17 ∧ (insertNotice x q).Pairwise noticeOrder ∧
      (insertNotice x q).Pairwise noticesDiffer ∧ ∀ n ∈ insertNotice x q, n.active = true ↔ n.t = 0 := by
  obtain ⟨hlen, horder, hdiff, hactive⟩ := h
  refine ⟨?_, pairwise_insertNotice x horder, ?_, fun n hn => ?_⟩
  · rw [insertNotice_length]
    omega
  · rw [(insertNotice_perm x q).pairwise_iff noticesDiffer_symm, List.pairwise_cons]
    exact ⟨fun n hn => noticesDiffer_symm (hnew n hn), hdiff⟩
  · rcases mem_insertNotice.mp hn with rfl | hn
    · exact hx
    · exact hactive n hn

/-- R139, R140: the state after an insertion, in its two parts: the calls, and the queue with its counts. -/
theorem insertIntoQueue_pl (x : Notice) (s : State) : (insertIntoQueue x s).pl =
    let q := insertNotice x s.pl.queue
    if 16 < q.length then { s.pl with
      queue := q.dropLast, accepting := acceptingAfter q.dropLast.length s.pl.accepting,
      nextArrival := s.pl.nextArrival + 1, overflow := satInc 65535 s.pl.overflow }
    else { s.pl with
      queue := q, accepting := acceptingAfter q.length s.pl.accepting, nextArrival := s.pl.nextArrival + 1 } := by
  have hpl : (if x.active then writeStageCalls x.stage s else s).pl = s.pl := by
    split
    · exact (writeStageCalls_only _ s).pl (by simp)
    · rfl
  unfold insertIntoQueue
  dsimp only
  rw [hpl]
  split
  · unfold setQueue
    simp only [State.withPl_pl]
  · unfold setQueue
    simp only [State.withPl_pl]

theorem insertIntoQueue_ok {x : Notice} {s : State} (h : PlatoonsOk s.pl) (hx : x.active = true ↔ x.t = 0)
    (hnew : ∀ n ∈ s.pl.queue, ¬(n.sender = x.sender ∧ n.serial = x.serial)) : PlatoonsOk (insertIntoQueue x s).pl := by
  obtain ⟨hlen, horder, hdiff, hactive⟩ := h.1.insert hx hnew
  rw [insertIntoQueue_pl]
  dsimp only
  split
  next hlong =>
    have hsub := List.dropLast_sublist (insertNotice x s.pl.queue)
    have hdrop : NoticesOk (insertNotice x s.pl.queue).dropLast := by
      refine ⟨?_, horder.sublist hsub, hdiff.sublist hsub, fun n hn => hactive n (hsub.subset hn)⟩
      rw [List.length_dropLast]
      omega
    obtain ⟨h12, h8, -⟩ := acceptingAfter_cases (insertNotice x s.pl.queue).dropLast.length s.pl.accepting
    exact ⟨hdrop, h12, h8⟩
  next hshort =>
    obtain ⟨h12, h8, -⟩ := acceptingAfter_cases (insertNotice x s.pl.queue).length s.pl.accepting
    exact ⟨⟨Nat.not_lt.mp hshort, horder, hdiff, hactive⟩, h12, h8⟩

theorem newNotice_active (sender serial duration arrival : Nat) (st : Stage) (t : Int) :
    (newNotice sender serial duration arrival st t).active = true ↔
      (newNotice sender serial duration arrival st t).t = 0 := by
  unfold newNotice
  split
  next h =>
    simp only [Bool.false_eq_true, false_iff]
    omega
  · simp

theorem newNotice_key (sender serial duration arrival : Nat) (st : Stage) (t : Int) :
    (newNotice sender serial duration arrival st t).sender = sender ∧
      (newNotice sender serial duration arrival st t).serial = serial := by
  unfold newNotice
  split <;> exact ⟨rfl, rfl⟩

theorem takePlatoon_ok {s : State} (sender serial elapsed duration : Nat) (h : PlatoonsOk s.pl) :
    PlatoonsOk (takePlatoon sender serial elapsed duration s).pl := by
  unfold takePlatoon
  split
  · exact h
  · split
    · exact h.of_eq rfl rfl
    · dsimp only
      split
      · exact h.of_eq rfl rfl
      · split
        · exact h
        next hnew =>
          refine insertIntoQueue_ok h (newNotice_active _ _ _ _ _ _) fun n hn => ?_
          rw [(newNotice_key _ _ _ _ _ _).1, (newNotice_key _ _ _ _ _ _).2]
          simp only [List.any_eq_true, Bool.and_eq_true, beq_iff_eq, not_exists, not_and] at hnew
          exact fun ⟨h1, h2⟩ => hnew n hn h1 h2

/-! ## What the other blocks do to the queue

They leave it and its flag as they stand, or empty it (R145). -/

/-- From `s` to `t` the queue of notices and its flag stand, or the queue has been emptied. -/
def QueueStands (s t : State) : Prop :=
  (t.pl.queue = s.pl.queue ∧ t.pl.accepting = s.pl.accepting) ∨ (t.pl.queue = [] ∧ t.pl.accepting = true)

theorem QueueStands.refl (s : State) : QueueStands s s := .inl ⟨rfl, rfl⟩

theorem QueueStands.trans {s t u : State} (h : QueueStands s t) (k : QueueStands t u) : QueueStands s u := by
  rcases k with ⟨k1, k2⟩ | k
  · rcases h with ⟨h1, h2⟩ | ⟨h1, h2⟩
    · exact .inl ⟨k1.trans h1, k2.trans h2⟩
    · exact .inr ⟨k1.trans h1, k2.trans h2⟩
  · exact .inr k

theorem QueueStands.of_only {bs : List Block} {s t : State} (h : Only bs s t) (hb : Block.pl ∉ bs) : QueueStands s t := by
  have hpl := h.pl hb
  exact .inl ⟨by rw [hpl], by rw [hpl]⟩

theorem QueueStands.ok {s t : State} (h : QueueStands s t) (hs : PlatoonsOk s.pl) : PlatoonsOk t.pl := by
  rcases h with ⟨hq, ha⟩ | ⟨hq, ha⟩
  · exact hs.of_eq hq ha
  · unfold PlatoonsOk
    rw [hq, ha]
    exact ⟨noticesOk_nil, by simp, by simp⟩

theorem queueStands_foldl {α : Type} {f : State → α → State} (hf : ∀ s x, QueueStands s (f s x)) :
    ∀ (xs : List α) (s : State), QueueStands s (xs.foldl f s)
  | [], s => .refl s
  | x :: rest, s => (hf s x).trans (queueStands_foldl hf rest (f s x))

theorem queueStands_whenDue {c : Bool} {s t : State} (h : QueueStands s t) : QueueStands s (whenDue c t s) := by
  unfold whenDue
  split
  · exact h
  · exact .refl s

/-- PL's reading after the Stage Sequencer has moved. -/
theorem queueStands_read {bs : List Block} {s t : State} (h : Only bs s t) (hb : Block.pl ∉ bs) :
    QueueStands s (readGreens t) := (QueueStands.of_only h hb).trans (.inl ⟨rfl, rfl⟩)

theorem formNotice_stands (p : Place) (s : State) : QueueStands s (formNotice p s) := by
  unfold formNotice
  split
  · dsimp only
    split
    · split
      · exact .inl ⟨rfl, rfl⟩
      · refine .inl ?_
        rw [offer_pl]
        exact ⟨rfl, rfl⟩
    · exact .inl ⟨rfl, rfl⟩
  · exact .refl s

theorem onEdge_stands (r : DetectorRecord) (d : Detector) (s : State) : QueueStands s (onEdge r d s) := by
  have called : QueueStands s (sendCall r (setDet d (onEdgeOf s.du[d]) s)) :=
    (QueueStands.of_only (setDet_only d _ s) (by simp)).trans (.of_only (sendCall_only r _) (by simp))
  unfold onEdge
  dsimp only
  split
  · unfold exitEdge
    refine called.trans (QueueStands.trans ?_ (queueStands_foldl (fun t p => formNotice_stands p t) _ _))
    exact .inl ⟨rfl, rfl⟩
  · exact called

theorem detectorTick_stands (img : Image) (s : State) (d : Detector) : QueueStands s (detectorTick img s d) := by
  unfold detectorTick
  dsimp only
  split
  · exact .of_only (setDet_only d _ s) (by simp)
  · split
    · split
      · exact .of_only (setDet_only d _ s) (by simp)
      · exact onEdge_stands _ d s
    · exact .of_only (setDet_only d _ s) (by simp)

theorem duWork_stands (s : State) : QueueStands s (duWork s) := by
  unfold duWork
  split
  · exact .refl s
  · exact queueStands_foldl (detectorTick_stands _) _ s

theorem reportHalt_stands (s : State) : QueueStands s (reportHalt s) := by
  refine .inr ?_
  unfold reportHalt enterManualFlash
  rw [enterFlash_eq_offer, offer_pl]
  exact ⟨rfl, rfl⟩

theorem latchFault_stands (cause : FaultCause) (further : Nat) (s : State) : QueueStands s (latchFault cause further s) := by
  refine .inr ?_
  unfold latchFault enterFaultFlash
  rw [enterFlash_eq_offer, offer_pl]
  exact ⟨rfl, rfl⟩

theorem enterStartRed_stands (s : State) : QueueStands s (enterStartRed s) := .inl ⟨rfl, rfl⟩

theorem sqWork_stands (s : State) : QueueStands s (sqWork s) := by
  have evaluated : QueueStands s (sqEvaluation s) := by
    have steps := sqSteps_only s
    unfold sqEvaluation
    generalize runSelection (testTermination (takeOrders (followChange (countSqTimers s)))) = u at steps ⊢
    have read : QueueStands s (readGreens (u.withSq { u.sq with yieldWasOpen := u.ck.report.yieldOpen })) :=
      queueStands_read (steps.trans ((withSq_only u _).mono (by simp))) (by simp)
    dsimp only
    split
    · exact read.trans (reportHalt_stands _)
    · exact read
  unfold sqWork
  split
  · exact evaluated
  · exact .refl s

theorem modeAfterTimer_stands (s : State) : QueueStands s (modeAfterTimer s) := by
  unfold modeAfterTimer
  split
  · exact enterStartRed_stands s
  · exact .of_only (enterRun_only s) (by simp)
  · exact .refl s

theorem supervisorWork_stands (began : Mode) (s : State) : QueueStands s (supervisorWork began s) := by
  have timed (u : State) : QueueStands u (modeTimerWork began u) := by
    unfold modeTimerWork
    split
    · dsimp only
      split
      · exact (QueueStands.of_only (withOs_only u _) (by simp)).trans (modeAfterTimer_stands _)
      · exact .of_only (withOs_only u _) (by simp)
    · exact .refl u
  have monitored (u : State) : QueueStands u (monitorWork u) := by
    unfold monitorWork
    split
    · exact .refl u
    · split
      · dsimp only
        split
        · exact .of_only (withOs_only u _) (by simp)
        · exact (QueueStands.of_only (withOs_only u _) (by simp)).trans (latchFault_stands _ _ _)
      · exact .refl u
  unfold supervisorWork
  split
  · exact (monitored s).trans (timed _)
  · exact (timed s).trans (monitored _)

theorem platoonLaw_reads : Reads [.pl] PlatoonLaw := by
  intro s t same h
  have hpl : t.pl = s.pl := same .pl (by simp)
  rw [platoonLaw_iff] at h ⊢
  rwa [hpl]

theorem QueueStands.law {s t : State} (h : QueueStands s t) (hs : PlatoonLaw s) : PlatoonLaw t := by
  rw [platoonLaw_iff] at hs ⊢
  exact h.ok hs

theorem purgeSender_ok {s : State} (sender : Nat) (h : PlatoonsOk s.pl) : PlatoonsOk (purgeSender sender s).pl :=
  (h.1.sublist List.filter_sublist).set s

theorem receiveByte_platoons (b : Byte) (framingError : Bool) {s : State} (h : PlatoonsOk s.pl) :
    PlatoonsOk (receiveByte b framingError s).pl := by
  rw [(receiveByte_after b framingError s).pl (by simp)]
  rcases byteTaken_cases b framingError s with honly | ⟨img, f, u, -, -, -, hu, heq⟩
  · rwa [honly.pl (by simp)]
  · have h' : PlatoonsOk u.pl := by rwa [hu.pl (by simp)]
    rw [heq]
    rcases dispatch_cases img f u with ⟨-, heq⟩ | ⟨-, heq⟩ | heq | ⟨-, heq⟩ | heq
    · rwa [heq, (takeBeacon_only _ _ _ u).pl (by simp)]
    · rw [heq]
      unfold takeFlashAlert
      rw [(cancelAlert_only _ _).pl (by simp)]
      refine purgeSender_ok _ ?_
      rwa [(takeFlashMode_only _ u).pl (by simp)]
    · rwa [heq]
    · rwa [heq, (takePreemptAlert_only _ _ _ u).pl (by simp)]
    · rw [heq]
      exact takePlatoon_ok _ _ _ _ h'

theorem noticeActivation_ok {s : State} (sender serial : Nat) (h : PlatoonsOk s.pl) :
    PlatoonsOk (setQueue (sortNotices (s.pl.queue.map fun m =>
      if m.sender == sender && m.serial == serial then countArrival m else m)) s).pl := by
  refine NoticesOk.set (noticesOk_sort h.1 (fun n => ?_) fun n hn => ?_) s
  · split
    · exact countArrival_key n
    · exact ⟨rfl, rfl⟩
  · split
    · exact countArrival_active (h.1.2.2.2 n hn)
    · exact h.1.2.2.2 n hn

theorem platoonLaw_event {c : Instr} {s t : State} (ht : touches [.pl] (Instr.reaches c) = true)
    (hc : Instr.isEvent c = true) (h : PlatoonLaw s) (hx : exec c s = .next t) : PlatoonLaw t := by
  have due {x : Bool} {u : State} (hu : QueueStands s u) : PlatoonLaw (whenDue x u s) := (queueStands_whenDue hu).law h
  have latched {u : State} (hu : Only [.sq] s u) : QueueStands s (readGreens (runSelection (testLatch u))) :=
    queueStands_read (latched_only s u hu) (by simp)
  cases c with
  | powerOn => injection hx with hx; exact QueueStands.law (.inr (hx ▸ ⟨rfl, rfl⟩)) h
  | resetPin => injection hx with hx; exact QueueStands.law (.inr (hx ▸ ⟨rfl, rfl⟩)) h
  | loadEnd body =>
    rcases loadEnd_cases hx with rfl | hg | ⟨-, raw, position, -, rfl⟩
    · exact h
    · exact QueueStands.law (.of_only hg.only (by simp)) h
    · exact QueueStands.law (.inr ⟨rfl, rfl⟩) h
  | passageTimerExpiry =>
    injection hx with hx
    rw [← hx]
    split
    · exact h
    · exact due (latched (withSq_only s _))
  | maxTimerExpiry =>
    injection hx with hx
    rw [← hx]
    split
    · exact h
    · exact due (latched (withSq_only s _))
  | holdExtensionExpiry =>
    injection hx with hx
    exact hx ▸ due (queueStands_read (((withSq_only s _).mono (by simp)).trans (testYield_only true _)) (by simp))
  | stageChangeComplete =>
    injection hx with hx
    rw [← hx]
    split
    · exact h
    · exact due (queueStands_read (completeChange_only _ s) (by simp))
  | peCommand st truncating =>
    injection hx with hx
    exact hx ▸ due (queueStands_read (takeCommand_only st truncating s) (by simp))
  | halt =>
    injection hx with hx
    rw [← hx]
    have taken : QueueStands s (readGreens (takeHalt s)) := queueStands_read (takeHalt_only s) (by simp)
    refine due ?_
    dsimp only
    split
    · exact taken.trans (reportHalt_stands _)
    · exact taken
  | haltDone => injection hx with hx; exact hx ▸ due (reportHalt_stands s)
  | onEdge d =>
    injection hx with hx
    rw [← hx]
    split
    · exact h
    · exact due (onEdge_stands _ d s)
  | byteReceived b e =>
    injection hx with hx
    rw [platoonLaw_iff] at h
    exact hx ▸ whenDue_keeps (L := PlatoonLaw) (fun _ => (platoonLaw_iff _).mpr (receiveByte_platoons b e h)) ((platoonLaw_iff s).mpr h)
  | frameReceived b =>
    injection hx with hx
    rw [platoonLaw_iff] at h
    exact hx ▸ whenDue_keeps (L := PlatoonLaw) (fun _ => (platoonLaw_iff _).mpr (receiveByte_platoons b false h)) ((platoonLaw_iff s).mpr h)
  | noticeFormed p =>
    injection hx with hx
    rw [← hx]
    split
    · exact due (QueueStands.trans (.inl ⟨rfl, rfl⟩) (formNotice_stands p _))
    · exact h
  | noticeActivation sender serial =>
    injection hx with hx
    rw [← hx]
    split
    · exact h
    · refine whenDue_keeps (fun _ => ?_) h
      rw [platoonLaw_iff, (writeStageCalls_only _ _).pl (by simp)]
      exact noticeActivation_ok sender serial ((platoonLaw_iff s).mp h)
  | noticeEnd sender serial =>
    injection hx with hx
    rw [← hx]
    split
    · exact h
    · refine whenDue_keeps (fun _ => ?_) h
      rw [platoonLaw_iff]
      exact (((platoonLaw_iff s).mp h).1.sublist List.filter_sublist).set s
  | modeTimerExpiry =>
    injection hx with hx
    exact hx ▸ due (QueueStands.trans (.of_only (withOs_only s _) (by simp)) (modeAfterTimer_stands _))
  | conflict a b =>
    injection hx with hx
    rw [← hx]
    split
    · exact h
    · exact due (latchFault_stands _ _ s)
  | mismatch ch l => injection hx with hx; exact hx ▸ due (latchFault_stands _ _ s)
  | _ => first | exact (Bool.false_ne_true ht).elim | exact (Bool.false_ne_true hc).elim

/-- Settles O49: an insertion and a countdown put the queue in order, and no other block adds to it. -/
theorem platoonQueueLawHolds : Obligations.PlatoonQueueLawHolds := by
  refine platoonLaw_reads.kept (by decide) (fun _ _ _ ht hc h hx => platoonLaw_event ht hc h hx) (fun m s ht _ h => ?_)
    fun w began s ht hw h => ?_
  · cases m with
    | manualFlashOff => exact (enterStartRed_stands s).law h
    | restart => exact QueueStands.law (.inr ⟨rfl, rfl⟩) h
    | reload => exact QueueStands.law (.inr ⟨rfl, rfl⟩) h
    | _ => exact (Bool.false_ne_true ht).elim
  · cases w with
    | mp => exact absurd rfl hw
    | sequencer => exact (sqWork_stands s).law h
    | detectors => exact (duWork_stands s).law h
    | platoonCountdown =>
      rw [platoonLaw_iff] at h ⊢
      show PlatoonsOk (plQueueWork s).pl
      rw [plQueueWork_pl]
      split
      · exact (h.1.counted).set s
      · exact h
    | greenTimers =>
      have stands : QueueStands s (plTimerWork s) := by
        unfold plTimerWork
        split
        · exact .inl ⟨rfl, rfl⟩
        · exact .refl s
      exact stands.law h
    | supervisor => exact (supervisorWork_stands began s).law h
    | _ => exact (Bool.false_ne_true ht).elim

/-! ## The rows of notices -/

theorem otherKey_iff (m n : Notice) : (!(m.sender == n.sender && m.serial == n.serial)) = true ↔ noticesDiffer m n := by
  rw [Bool.not_eq_true', Bool.eq_false_iff, ne_eq, Bool.and_eq_true, beq_iff_eq, beq_iff_eq]
  rfl

theorem find?_key {q : List Notice} {n : Notice} (hdiff : q.Pairwise noticesDiffer) (hn : n ∈ q) :
    q.find? (fun m => m.sender == n.sender && m.serial == n.serial) = some n := by
  induction q with
  | nil => exact nomatch hn
  | cons m rest ih =>
    obtain ⟨hm, hrest⟩ := List.pairwise_cons.mp hdiff
    rcases List.mem_cons.mp hn with rfl | hmem
    · exact List.find?_cons_of_pos (by simp)
    · rw [List.find?_cons_of_neg, ih hrest hmem]
      simpa only [Bool.not_eq_true', Bool.not_eq_true] using (otherKey_iff m n).mpr (hm n hmem)

/-- Of one sender and serial the queue holds one notice; the others are the queue without it. -/
theorem differ_of_mem_erase {q : List Notice} {n m : Notice} (hdiff : q.Pairwise noticesDiffer) (hn : n ∈ q)
    (hm : m ∈ q.erase n) : ¬(m.sender = n.sender ∧ m.serial = n.serial) := by
  have hpair := ((List.perm_cons_erase hn).pairwise_iff noticesDiffer_symm).mp hdiff
  exact fun ⟨h1, h2⟩ => (List.pairwise_cons.mp hpair).1 m hm ⟨h1.symm, h2.symm⟩

theorem map_key_perm {q : List Notice} {n : Notice} (f : Notice → Notice) (hdiff : q.Pairwise noticesDiffer) (hn : n ∈ q) :
    (q.map fun m => if m.sender == n.sender && m.serial == n.serial then f m else m).Perm (f n :: q.erase n) := by
  refine ((List.perm_cons_erase hn).map _).trans ?_
  rw [List.map_cons, if_pos (by simp)]
  refine List.Perm.cons _ (List.Perm.of_eq ?_)
  refine (List.map_congr_left fun m hm => ?_).trans (List.map_id _)
  exact if_neg (by simpa using differ_of_mem_erase hdiff hn hm)

theorem filter_key {q : List Notice} {n : Notice} (hdiff : q.Pairwise noticesDiffer) (hn : n ∈ q) :
    q.filter (fun m => !(m.sender == n.sender && m.serial == n.serial)) = q.erase n := by
  induction q with
  | nil => exact nomatch hn
  | cons m rest ih =>
    obtain ⟨hm, hrest⟩ := List.pairwise_cons.mp hdiff
    rcases List.mem_cons.mp hn with rfl | hmem
    · rw [List.erase_cons_head, List.filter_cons_of_neg (by simp)]
      exact List.filter_eq_self.mpr fun k hk => (otherKey_iff k n).mpr (noticesDiffer_symm (hm k hk))
    · have hne := hm n hmem
      have hmn : m ≠ n := fun h => hne ⟨by rw [h], by rw [h]⟩
      rw [List.erase_cons_tail (by simpa using hmn), List.filter_cons, if_pos ((otherKey_iff m n).mpr hne), ih hrest hmem]

theorem countArrival_of_due {n : Notice} (ha : n.active = false) (ht : n.t ≤ 1) :
    countArrival n = { n with t := 0, active := true } := by
  simp [countArrival, ha, ht]

/-- NOTICE_ACTIVATION (R141, R142). -/
theorem noticeActivation_row {s : State} {n : Notice} (h : PlatoonsOk s.pl) (hn : n ∈ s.pl.queue) (ha : n.active = false)
    (ht : n.t ≤ 1) :
    ∃ t, exec (.noticeActivation n.sender n.serial) s = .next t ∧ Only [.pl, .sq] s t ∧ StageCalled n.stage s t ∧
      t.pl = { s.pl with queue := t.pl.queue } ∧ t.pl.queue.Pairwise noticeOrder ∧
      t.pl.queue.Perm ({ n with t := 0, active := true } :: s.pl.queue.erase n) := by
  obtain ⟨⟨hlen, horder, hdiff, hactive⟩, h12, h8⟩ := h
  obtain ⟨q, hq⟩ : ∃ q, q = sortNotices (s.pl.queue.map fun m =>
      if m.sender == n.sender && m.serial == n.serial then countArrival m else m) := ⟨_, rfl⟩
  have hperm : q.Perm ({ n with t := 0, active := true } :: s.pl.queue.erase n) := by
    rw [hq, ← countArrival_of_due ha ht]
    exact (sortNotices_perm _).trans (map_key_perm countArrival hdiff hn)
  have hsize : q.length = s.pl.queue.length :=
    hperm.length_eq.trans ((List.perm_cons_erase hn).length_eq.symm)
  have haccept : acceptingAfter q.length s.pl.accepting = s.pl.accepting := by
    obtain ⟨a12, a8, amid⟩ := acceptingAfter_cases q.length s.pl.accepting
    rw [hsize] at a12 a8 amid ⊢
    by_cases h1 : 12 ≤ s.pl.queue.length
    · rw [a12 h1, h12 h1]
    · by_cases h2 : s.pl.queue.length ≤ 8
      · rw [a8 h2, h8 h2]
      · exact amid (by omega) (by omega)
  have hx : exec (.noticeActivation n.sender n.serial) s = .next (writeStageCalls n.stage (setQueue q s)) := by
    show execNoticeActivation n.sender n.serial s = _
    unfold execNoticeActivation
    rw [find?_key hdiff hn, hq]
    exact congrArg Host.Outcome.next (whenDue_true (by simp [activates, ha, ht]) _ _)
  have hpl : (writeStageCalls n.stage (setQueue q s)).pl = (setQueue q s).pl := (writeStageCalls_only _ _).pl (by simp)
  refine ⟨_, hx, ((setQueue_only q s).mono (by simp)).trans ((writeStageCalls_only _ _).mono (by simp)),
    writeStageCalls_called n.stage (setQueue q s), ?_, ?_, ?_⟩
  · rw [hpl]
    unfold setQueue
    rw [State.withPl_pl, haccept]
  · rw [hpl, setQueue_queue, hq]
    exact pairwise_sortNotices _
  · rw [hpl, setQueue_queue]
    exact hperm

/-- NOTICE_END (R141). -/
theorem noticeEnd_row {s : State} {n : Notice} (h : PlatoonsOk s.pl) (hn : n ∈ s.pl.queue) (ha : n.active = true)
    (hr : n.remaining ≤ 1) :
    ∃ t, exec (.noticeEnd n.sender n.serial) s = .next t ∧ Only [.pl] s t ∧ AcceptingFollows s t ∧
      t.pl = { s.pl with queue := s.pl.queue.erase n, accepting := t.pl.accepting } := by
  have hdiff := h.1.2.2.1
  have hx : exec (.noticeEnd n.sender n.serial) s = .next (setQueue (s.pl.queue.erase n) s) := by
    show execNoticeEnd n.sender n.serial s = _
    unfold execNoticeEnd
    rw [find?_key hdiff hn, ← filter_key hdiff hn]
    exact congrArg Host.Outcome.next (whenDue_true (by simp [ha, hr]) _ _)
  exact ⟨_, hx, setQueue_only _ s, setQueue_follows _ rfl, rfl⟩

/-- R141: PL's countdown, in the words of the rule. -/
theorem countedQueue_perm (q : List Notice) : (countedQueue q).Perm (q.filterMap fun n =>
    if n.active = true then (if n.remaining ≤ 1 then none else some { n with remaining := n.remaining - 1 })
    else if n.t ≤ 1 then some { n with t := 0, active := true } else some { n with t := n.t - 1 }) := by
  refine (sortNotices_perm _).trans (List.Perm.of_eq ?_)
  rw [List.map_filterMap]
  refine List.filterMap_congr fun n _ => ?_
  unfold countRemaining
  by_cases ha : n.active = true
  · rw [if_pos ha, if_pos ha]
    split
    · rfl
    · simp [countArrival, ha]
  · rw [if_neg ha, if_neg ha, Option.map_some]
    unfold countArrival
    rw [if_neg ha]
    split <;> rfl

/-- R141 (2): the notices that become active at a tenth mark. -/
theorem mem_activates {q : List Notice} {n : Notice} :
    n ∈ (q.filterMap countRemaining).filter activates ↔ n ∈ q ∧ n.active = false ∧ n.t ≤ 1 := by
  simp only [List.mem_filter, List.mem_filterMap, activates, Bool.and_eq_true, Bool.not_eq_true', decide_eq_true_eq]
  constructor
  · rintro ⟨⟨m, hm, hmn⟩, ha, ht⟩
    unfold countRemaining at hmn
    split at hmn
    next hact =>
      split at hmn
      · exact nomatch hmn
      · obtain rfl := Option.some.inj hmn
        exact absurd (ha.symm.trans hact) (by simp)
    · obtain rfl := Option.some.inj hmn
      exact ⟨hm, ha, ht⟩
  · rintro ⟨hm, ha, ht⟩
    exact ⟨⟨n, hm, by simp [countRemaining, ha]⟩, ha, ht⟩

theorem plTimerWork_place {s : State} (h : tenthMark s = true) (p : Place) : (plTimerWork s).pl.links[p] =
    (s.pl.links[p]).map fun l => if l.green then { l with greenTimer := satInc 65535 l.greenTimer } else l := by
  have hwork : plTimerWork s = _ := if_pos h
  rw [hwork]
  exact tab_get (fun p : Place => (s.pl.links[p]).map fun l =>
    if l.green then { l with greenTimer := satInc 65535 l.greenTimer } else l) p

theorem put_put {α : Type} {n : Nat} (v : Vector α n) (i : Fin n) (x y : α) : put (put v i x) i y = put v i y := by
  simp [put]

theorem linkAt_of {s : State} {p : Place} {e : Entry} {l : Link} (he : s.nt.places[p] = some e) (hl : e.link = some l) :
    linkAt s p = some (e, l) := by
  unfold linkAt
  rw [he]
  dsimp only
  rw [hl]

theorem takesPlatoons_iff (e : Entry) :
    takesPlatoons e = true ↔ e.state = .heard ∧ ∃ b, e.last = some b ∧ b.accepting = true := by
  unfold takesPlatoons
  cases e.last <;> simp

/-- R137: the notice formed for a link that has a pinned entry and a send state. -/
theorem formNotice_row {s : State} {p : Place} {e : Entry} {l : Link} {ls : LinkSend} (hl : linkAt s p = some (e, l))
    (hls : s.pl.links[p] = some ls) :
    let f := TxFrame.platoon e.address (nextSerial ls) ls.greenTimer (noticeDuration l)
    let t := formNotice p s
    (¬takesPlatoons e = true → t.lu = s.lu ∧ t.pl = { s.pl with
      links := put s.pl.links p (some { ls with sent := true }), withheld := min (s.pl.withheld + 1) 65535 }) ∧
    (takesPlatoons e = true → offerAnswer s.lu f = .refused → t.lu = s.lu ∧ t.pl = { s.pl with
      links := put s.pl.links p (some { ls with sent := true, serial := nextSerial ls }),
      withheld := min (s.pl.withheld + 1) 65535 }) ∧
    (takesPlatoons e = true → offerAnswer s.lu f ≠ .refused → Offered f s t ∧ t.pl = { s.pl with
      links := put s.pl.links p (some { ls with sent := true, serial := nextSerial ls }) }) := by
  have heq : formNotice p s =
      if takesPlatoons e then
        if offerAnswer s.lu (.platoon e.address (nextSerial ls) ls.greenTimer (noticeDuration l)) = .refused then
          countWithheld (s.withPl { s.pl with
            links := put s.pl.links p (some { ls with sent := true, serial := nextSerial ls }) })
        else offer (.platoon e.address (nextSerial ls) ls.greenTimer (noticeDuration l)) (s.withPl { s.pl with
          links := put s.pl.links p (some { ls with sent := true, serial := nextSerial ls }) })
      else countWithheld (s.withPl { s.pl with links := put s.pl.links p (some { ls with sent := true }) }) := by
    unfold formNotice
    rw [hl, hls]
  dsimp only
  rw [heq]
  refine ⟨fun ht => ?_, fun ht hans => ?_, fun ht hans => ?_⟩
  · rw [if_neg ht]
    exact ⟨rfl, rfl⟩
  · rw [if_pos ht, if_pos hans]
    exact ⟨rfl, rfl⟩
  · rw [if_pos ht, if_neg hans]
    refine ⟨offered_offer _ rfl, ?_⟩
    rw [offer_pl]
    rfl

/-- Settles O47. -/
theorem noticesFormActivateAndEnd : Obligations.NoticesFormActivateAndEnd := by
  refine ⟨fun p s img e l d hi he hl hd hk => ?_, fun p s img e l d ls hi he hl hls hd hk hg hs hn h255 => ?_,
    fun s n hlaw hn => ⟨fun ha ht => ?_, fun ha hr => ?_⟩, fun s hlaw ht => ?_, fun s => ⟨fun ht => ?_, fun ht => ?_⟩⟩
  · have hcount : exitCounts s l = false := by simp [-Fin.getElem_fin, exitCounts, hi, hd, hk]
    show execNoticeFormed p s = _
    unfold execNoticeFormed
    rw [linkAt_of he hl]
    split
    next h1 h2 =>
      obtain ⟨rfl, rfl⟩ := Prod.mk.inj (Option.some.inj h1)
      exact congrArg Host.Outcome.next (whenDue_false (by simp [hcount]) _ _)
    · rfl
  · have hcount : exitCounts s l = true := by simp [-Fin.getElem_fin, exitCounts, hi, hd, hk]
    obtain ⟨u, hu⟩ : ∃ u, u = s.withPl { s.pl with links := put s.pl.links p (some (raiseExit ls)) } := ⟨_, rfl⟩
    have hx : exec (.noticeFormed p) s = .next (formNotice p u) := by
      show execNoticeFormed p s = _
      unfold execNoticeFormed
      rw [linkAt_of he hl, hls, hu]
      exact congrArg Host.Outcome.next (whenDue_true (by simp [hcount, hg, hs, hn]) _ _)
    have hraise : raiseExit ls = { ls with exitCount := l.threshold } := by
      unfold raiseExit satInc
      rw [hn, Nat.min_eq_left h255]
    have hlu : u.lu = s.lu := by rw [hu]; rfl
    have honly : Only [.pl] s u := hu ▸ withPl_only s _
    have hlinks : u.pl.links[p] = some { ls with exitCount := l.threshold } := by
      rw [hu, State.withPl_pl, hraise]
      dsimp only
      rw [put_get, if_pos rfl]
    have hput (x : Option LinkSend) : put u.pl.links p x = put s.pl.links p x := by
      rw [hu]
      exact put_put _ _ _ _
    have hlink : linkAt u p = some (e, l) := by rw [hu]; exact linkAt_of he hl
    obtain ⟨hno, hrefused, hyes⟩ := formNotice_row hlink hlinks
    dsimp only at hno hrefused hyes ⊢
    rw [hput, hlu] at hno hrefused
    rw [hput, hlu] at hyes
    simp only [takesPlatoons_iff] at hno hrefused hyes
    refine ⟨_, hx, (honly.mono (by simp)).trans (formNotice_only p u), fun h => ?_, fun h hans => ?_, fun h hans => ?_⟩
    · obtain ⟨h1, h2⟩ := hno h
      exact ⟨h1, h2.trans (by rw [hu]; rfl)⟩
    · obtain ⟨h1, h2⟩ := hrefused h hans
      exact ⟨h1, h2.trans (by rw [hu]; rfl)⟩
    · obtain ⟨h1, h2⟩ := hyes h hans
      refine ⟨?_, h2.trans (by rw [hu]; rfl)⟩
      unfold Offered at h1 ⊢
      rwa [hlu] at h1
  · exact noticeActivation_row ((platoonLaw_iff s).mp hlaw) hn ha ht
  · exact noticeEnd_row ((platoonLaw_iff s).mp hlaw) hn ha hr
  · have hpl : (plQueueWork s).pl = (setQueue (countedQueue s.pl.queue) s).pl := by rw [plQueueWork_pl, if_pos ht]
    obtain ⟨-, hsq, hcalls⟩ := writeNoticeCalls ((s.pl.queue.filterMap countRemaining).filter activates)
      (setQueue (countedQueue s.pl.queue) s)
    rw [← plQueueWork_of_tenth ht] at hsq hcalls
    refine ⟨plQueueWork_only s, ?_, ?_, ?_, ?_, hsq, fun g => (hcalls g).trans ?_⟩
    · rw [hpl]
      rfl
    · rw [AcceptingFollows, hpl]
      exact setQueue_follows _ rfl
    · rw [hpl, setQueue_queue]
      exact pairwise_sortNotices _
    · rw [hpl, setQueue_queue]
      exact countedQueue_perm _
    · simp only [mem_activates, and_assoc]
      rfl
  · exact if_neg (by simp [ht])
  · refine ⟨plTimerWork_only s, ?_, fun p => ⟨fun hp => ?_, fun l hl => ⟨fun hg => ?_, fun hg => ?_⟩⟩⟩
    · have hwork : plTimerWork s = _ := if_pos ht
      rw [hwork]
      rfl
    · rw [plTimerWork_place ht, hp]
      rfl
    · rw [plTimerWork_place ht, hl, Option.map_some, if_pos hg]
      rfl
    · rw [plTimerWork_place ht, hl, Option.map_some, if_neg (by simp [hg])]

/-! ## FRAME_RECEIVED of a PLATOON -/

theorem entryOf_of_place {s : State} (hlaw : TableLaw s) {p : Place} {e : Entry} (he : s.nt.places[p] = some e) :
    entryOf s e.address = some e := by
  have hmem : e ∈ places.filterMap fun p => s.nt.places[p] := List.mem_filterMap.mpr ⟨p, List.mem_finRange p, he⟩
  have hsome : ((places.filterMap fun p => s.nt.places[p]).find? fun f => f.address == e.address).isSome = true :=
    List.find?_isSome.mpr ⟨e, hmem, beq_self_eq_true _⟩
  unfold entryOf
  obtain ⟨f, hf⟩ := Option.isSome_iff_exists.mp hsome
  rw [hf]
  obtain ⟨q, -, hq⟩ := List.mem_filterMap.mp (List.mem_of_find?_eq_some hf)
  have hkey : (f.address == e.address) = true := List.find?_some (p := fun f : Entry => f.address == e.address) hf
  have ha : f.address = e.address := beq_iff_eq.mp hkey
  obtain rfl := hlaw.1 q p f e hq he ha
  exact hq.symm.trans he

theorem place_of_entryOf {s : State} {a : Nat} {e : Entry} (h : entryOf s a = some e) :
    (∃ p : Place, s.nt.places[p] = some e) ∧ e.address = a := by
  obtain ⟨p, -, hp⟩ := List.mem_filterMap.mp (List.mem_of_find?_eq_some h)
  have ha : (e.address == a) = true := List.find?_some (p := fun e : Entry => e.address == a) h
  exact ⟨⟨p, hp⟩, beq_iff_eq.mp ha⟩

theorem inboundOf_of_place {s : State} (hlaw : TableLaw s) {p : Place} {e : Entry} {l : Link} {st : Stage}
    (he : s.nt.places[p] = some e) (hl : e.link = some l) (hst : l.inStage = some st) :
    inboundOf s e.address = some (st, l.travel) := by
  unfold inboundOf
  rw [entryOf_of_place hlaw he]
  dsimp only
  rw [hl]
  dsimp only
  rw [hst]
  rfl

theorem inboundOf_none {s : State} {a : Nat}
    (h : ∀ (p : Place) (e : Entry) (l : Link), s.nt.places[p] = some e → e.address = a → e.link = some l → l.inStage = none) :
    inboundOf s a = none := by
  unfold inboundOf
  split
  next e he =>
    obtain ⟨⟨p, hp⟩, ha⟩ := place_of_entryOf he
    split
    next l hl =>
      rw [h p e l hp ha hl]
      rfl
    · rfl
  · rfl

/-- R138: the notice as it enters the queue, its fields told at once. -/
theorem newNotice_eq (sender serial duration arrival : Nat) (st : Stage) (t : Int) :
    newNotice sender serial duration arrival st t =
      { sender := sender, serial := serial, stage := st, t := t.toNat,
        remaining := if 0 < t then duration else (duration + t).toNat, active := decide (t ≤ 0), arrival := arrival } := by
  unfold newNotice
  by_cases h : 0 < t
  · have hle : ¬t ≤ 0 := by omega
    simp [h, hle]
  · have hle : t ≤ 0 := by omega
    have h0 : t.toNat = 0 := by omega
    simp [h, hle, h0]

theorem insertIntoQueue_sq (x : Notice) (s : State) :
    (insertIntoQueue x s).sq = (if x.active then writeStageCalls x.stage s else s).sq := by
  unfold insertIntoQueue
  dsimp only
  generalize (if x.active then writeStageCalls x.stage s else s) = u
  split <;> rfl

/-- R139, R140: the queue after an insertion that the law allows. -/
theorem insertIntoQueue_row {x : Notice} {s : State} (h : PlatoonsOk s.pl) :
    let t := insertIntoQueue x s
    (x.active = false → t.sq = s.sq) ∧ (x.active = true → StageCalled x.stage s t) ∧ AcceptingFollows s t ∧
      t.pl.queue.Pairwise noticeOrder ∧
      (s.pl.queue.length < 16 → t.pl.queue.Perm (x :: s.pl.queue) ∧ t.pl = { s.pl with
        queue := t.pl.queue, accepting := t.pl.accepting, nextArrival := s.pl.nextArrival + 1 }) ∧
      (s.pl.queue.length = 16 → (∃ y, (y :: t.pl.queue).Perm (x :: s.pl.queue) ∧ ∀ n ∈ t.pl.queue, noticeOrder n y) ∧
        t.pl = { s.pl with
          queue := t.pl.queue, accepting := t.pl.accepting, nextArrival := s.pl.nextArrival + 1,
          overflow := min (s.pl.overflow + 1) 65535 }) := by
  have hpl := insertIntoQueue_pl x s
  have hsq := insertIntoQueue_sq x s
  have hsorted := pairwise_insertNotice x h.1.2.1
  have hperm := insertNotice_perm x s.pl.queue
  have hlen := insertNotice_length x s.pl.queue
  dsimp only at hpl ⊢
  generalize insertNotice x s.pl.queue = q at hpl hsorted hperm hlen
  generalize insertIntoQueue x s = t at hpl hsq ⊢
  refine ⟨fun ha => by rw [hsq, ha]; rfl, fun ha => ?_, ?_, ?_, fun hlt => ?_, fun h16 => ?_⟩
  · obtain ⟨h1, h2⟩ := writeStageCalls_called x.stage s
    rw [if_pos ha] at hsq
    unfold StageCalled
    rw [hsq]
    exact ⟨h1, h2⟩
  · unfold AcceptingFollows
    rw [hpl]
    split
    · exact acceptingAfter_cases _ _
    · exact acceptingAfter_cases _ _
  · rw [hpl]
    split
    · exact hsorted.sublist (List.dropLast_sublist q)
    · exact hsorted
  · rw [if_neg (by omega)] at hpl
    rw [hpl]
    exact ⟨hperm, rfl⟩
  · rw [if_pos (by omega)] at hpl
    rw [hpl]
    have hne : q ≠ [] := by
      rintro rfl
      simp at hlen
    have hsplit := List.dropLast_append_getLast hne
    refine ⟨⟨q.getLast hne, ?_, fun n hn => ?_⟩, rfl⟩
    · refine List.Perm.trans ?_ hperm
      have hcomm := List.perm_append_comm (l₁ := [q.getLast hne]) (l₂ := q.dropLast)
      rwa [hsplit] at hcomm
    · rw [← hsplit] at hsorted
      exact (List.pairwise_append.mp hsorted).2.2 n hn _ (List.mem_singleton_self _)

/-- Settles O48. -/
theorem platoonNoticeIsExamined : Obligations.PlatoonNoticeIsExamined := by
  intro s img last f hf hk hto hlaw hplaw
  have hi : s.cf.image = some img := hf.1.1
  have hu := frameCounted_only s
  have hcf : (frameCounted s).cf = s.cf := hu.cf (by simp)
  have hx : exec (.frameReceived last) s =
      .next (takePlatoon (num f 1) (num f 4) (num16 f 5) (num16 f 7) (frameCounted s)) := by
    rw [hf.received]
    have hadd : addressed (frameCounted s) f = true := (addressed_iff (s := frameCounted s) (hcf ▸ hi) f).mpr hto
    unfold dispatch
    rw [if_neg (by omega), if_neg (by omega), hadd, if_neg (by simp), if_neg (by omega)]
  rw [show num16 f 5 = 256 * num f 5 + num f 6 from num16_eq f 5, show num16 f 7 = 256 * num f 7 + num f 8 from num16_eq f 7] at hx
  have hlaw' : TableLaw (frameCounted s) := tableLaw_reads.of_only hu rfl hlaw
  have hmode : (frameCounted s).os = s.os := hu.os (by simp)
  have hpl : (frameCounted s).pl = s.pl := hu.pl (by simp)
  have hsq : (frameCounted s).sq = s.sq := hu.sq (by simp)
  have hge : (frameCounted s).ge = s.ge := hu.ge (by simp)
  have hnt : (frameCounted s).nt = s.nt := hu.nt (by simp)
  have hok : PlatoonsOk (frameCounted s).pl := hpl ▸ (platoonLaw_iff s).mp hplaw
  have hin (st : Stage) (g : Group) : inStage (frameCounted s) st g = inStage s st g := inStage_of_cf hcf st g
  generalize frameCounted s = u at hu hx hlaw' hmode hpl hsq hge hnt hok hin
  have monitored : u.os.mode.monitored = true ↔ s.os.mode = .startRed ∨ s.os.mode = .run ∨ s.os.mode = .flashEntry := by
    rw [hmode, monitored_iff]
  refine ⟨_, hx, (hu.mono (by simp)).trans ((takePlatoon_only _ _ _ _ u).mono (by simp)), fun hno => ?_, fun htaken hlink => ?_,
    fun p e l st htaken he ha hl hst => ?_⟩
  · have hstay : takePlatoon (num f 1) (num f 4) (256 * num f 5 + num f 6) (256 * num f 7 + num f 8) u = u := by
      unfold takePlatoon
      rw [if_pos (by simpa using mt monitored.mp hno)]
    rw [hstay]
    exact ⟨hpl, hsq⟩
  · have hnone : inboundOf u (num f 1) = none := inboundOf_none fun p e l he => hlink p e l (hnt ▸ he)
    unfold takePlatoon
    rw [if_neg (by simpa using monitored.mpr htaken), hnone]
    dsimp only
    rw [State.withPl_pl, hpl]
    exact ⟨rfl, hsq⟩
  · have hinbound : inboundOf u (num f 1) = some (st, l.travel) := ha ▸ inboundOf_of_place hlaw' (hnt ▸ he) hl hst
    unfold takePlatoon
    rw [if_neg (by simpa using monitored.mpr htaken), hinbound]
    dsimp only
    refine ⟨fun hstale => ?_, fun hlate hdup => ?_, fun hlate hnew => ?_⟩
    · rw [if_pos hstale, State.withPl_pl, hpl]
      exact ⟨rfl, hsq⟩
    · rw [if_neg (by omega), if_pos (by rw [hpl]; simpa using hdup)]
      exact ⟨hpl, hsq⟩
    · rw [if_neg (by omega), if_neg (by rw [hpl]; simpa using hnew), newNotice_eq, hpl]
      obtain ⟨hstand, hcalled, hfollow, horder, hshort, hfull⟩ := insertIntoQueue_row (x :=
        { sender := num f 1, serial := num f 4, stage := st, t := ((l.travel : Int) - (256 * num f 5 + num f 6 : Nat)).toNat,
          remaining := if 0 < (l.travel : Int) - (256 * num f 5 + num f 6 : Nat) then 256 * num f 7 + num f 8
            else (((256 * num f 7 + num f 8 : Nat) : Int) + ((l.travel : Int) - (256 * num f 5 + num f 6 : Nat))).toNat,
          active := decide ((l.travel : Int) - (256 * num f 5 + num f 6 : Nat) ≤ 0), arrival := s.pl.nextArrival }) hok
      rw [hpl] at hshort hfull
      refine ⟨fun hpos => ?_, fun hneg => ?_, ?_, horder, hshort, hfull⟩
      · rw [← hsq]
        exact hstand (decide_eq_false (by omega))
      · have hcall := hcalled (decide_eq_true hneg)
        unfold StageCalled at hcall ⊢
        simpa only [hin, hsq, hge] using hcall
      · unfold AcceptingFollows at hfollow ⊢
        rwa [hpl] at hfollow

end Sys2Proof.Machine


/-!
# The service stack and the request states (O52)

Both laws speak of the Preemption Unit alone. Each operation of chapter 9 is shown to keep them (`PeKept`); the stack law turns on
the classes of the active service and of the stacked records, which only the beginning and the end of a service change.
-/

namespace Sys2Proof.Machine

/-! ## The two laws on the unit's own state -/

/-- The classes in descending order, no class twice. -/
def Descending (l : List PreClass) : Prop := l.Pairwise fun a b => higherClass a b = true

/-- The classes of the stacked records, top first. -/
def PeState.stacked (pe : PeState) : List PreClass := pe.stack.map (·.cls)

/-- The class of the active service. -/
def PeState.serving (pe : PeState) : Option PreClass := pe.service.map (·.cls)

/-- R156 on the classes alone. -/
def StackOk (pe : PeState) : Prop :=
  (pe.serving = none → pe.stacked = []) ∧ Descending (pe.serving.toList ++ pe.stacked)

/-- R149 for one class. -/
def ClassOk (c : PreClass) (x : ClassState) : Prop :=
  (x.request = .requestedLine → c = .emergency) ∧ (x.request = .inhibited → c = .transit)

/-- R149. -/
def RequestsOk (pe : PeState) : Prop := ∀ c, ClassOk c (pe.cls c)

/-- Three classes: a strictly descending list that has a head holds at most two more. -/
theorem Descending.length_le {c : PreClass} {l : List PreClass} (h : Descending (c :: l)) : l.length ≤ 2 := by
  have hlt : ((c :: l).map fun d => (classIndex d).val).Pairwise (· < ·) := by
    rw [List.pairwise_map]
    exact h.imp fun hab => by simpa [higherClass] using hab
  have hsub : ((c :: l).map fun d => (classIndex d).val).length ≤ (List.range 3).length := by
    refine (List.Nodup.subperm (hlt.imp fun hab => Nat.ne_of_lt hab) fun n hn => ?_).length_le
    obtain ⟨d, -, rfl⟩ := List.mem_map.mp hn
    exact List.mem_range.mpr (classIndex d).isLt
  simpa [Nat.lt_succ_iff] using hsub

theorem stackLaw_iff (s : State) : StackLaw s ↔ StackOk s.pe := by
  unfold StackLaw StackOk PeState.serving PeState.stacked
  cases s.pe.service with
  | none =>
    constructor
    · rintro ⟨-, h⟩
      simp [Descending, h]
    · rintro ⟨h, -⟩
      have hs : s.pe.stack = [] := by simpa using h
      exact ⟨by simp [hs], hs⟩
  | some v =>
    constructor
    · rintro ⟨-, h⟩
      exact ⟨(nomatch ·), h⟩
    · rintro ⟨-, h⟩
      have hl : (s.pe.stack.map (·.cls)).length ≤ 2 := Descending.length_le h
      exact ⟨by simpa using hl, h⟩

theorem requestLaw_iff (s : State) : RequestLaw s ↔ RequestsOk s.pe := Iff.rfl

theorem stacked_eq {p q : PeState} (h : q.stack = p.stack) : q.stacked = p.stacked := congrArg (List.map _) h

theorem serving_eq {p q : PeState} (h : q.service = p.service) : q.serving = p.serving := congrArg (Option.map _) h

theorem StackOk.of_same {p q : PeState} (hp : StackOk p) (hv : q.serving = p.serving) (hs : q.stacked = p.stacked) : StackOk q := by
  unfold StackOk
  rw [hv, hs]
  exact hp

theorem StackOk.of_idle {pe : PeState} (hv : pe.service = none) (hs : pe.stack = []) : StackOk pe := by
  simp [StackOk, Descending, PeState.serving, PeState.stacked, hv, hs]

theorem StackOk.of_serving {pe : PeState} {v : Service} (hv : pe.service = some v) (h : Descending (v.cls :: pe.stacked)) :
    StackOk pe := by
  simpa [StackOk, PeState.serving, hv] using h

theorem StackOk.below {pe : PeState} (h : StackOk pe) : Descending pe.stacked := (List.pairwise_append.mp h.2).2.1

theorem StackOk.serving {pe : PeState} {v : Service} (h : StackOk pe) (hv : pe.service = some v) :
    Descending (v.cls :: pe.stacked) := by
  simpa [PeState.serving, hv] using h.2

theorem RequestsOk.of_classes {p q : PeState} (hp : RequestsOk p) (h : q.classes = p.classes) : RequestsOk q := fun c => by
  rw [show q.cls c = p.cls c from congrArg (·[classIndex c]) h]
  exact hp c

theorem RequestsOk.setCls {pe : PeState} {c : PreClass} {x : ClassState} (h : RequestsOk pe) (hx : ClassOk c x) :
    RequestsOk (pe.setCls c x) := fun d => by
  rw [PeState.setCls_cls]
  split
  next hd => rw [hd]; exact hx
  next => exact h d

theorem RequestsOk.setRequest {pe : PeState} {c : PreClass} {r : Request} (h : RequestsOk pe)
    (hr : (r = .requestedLine → c = .emergency) ∧ (r = .inhibited → c = .transit)) : RequestsOk (pe.setRequest c r) :=
  h.setCls hr

/-! ## What keeps both -/

/-- Both laws pass from one state of the unit to the next. -/
def PeKept (p q : PeState) : Prop := (StackOk p → StackOk q) ∧ (RequestsOk p → RequestsOk q)

theorem PeKept.refl (p : PeState) : PeKept p p := ⟨id, id⟩

theorem PeKept.trans {p q r : PeState} (h : PeKept p q) (k : PeKept q r) : PeKept p r := ⟨k.1 ∘ h.1, k.2 ∘ h.2⟩

theorem PeKept.of_same {p q : PeState} (hv : q.serving = p.serving) (hs : q.stacked = p.stacked) (hc : q.classes = p.classes) :
    PeKept p q := ⟨fun h => h.of_same hv hs, fun h => h.of_classes hc⟩

theorem PeKept.of_requests {p q : PeState} (hv : q.service = p.service) (hs : q.stack = p.stack) (hc : RequestsOk p → RequestsOk q) :
    PeKept p q := ⟨fun h => h.of_same (serving_eq hv) (stacked_eq hs), hc⟩

theorem PeKept.setRequest {p : PeState} {c : PreClass} {r : Request} (hline : r ≠ .requestedLine) (hinhibited : r ≠ .inhibited) :
    PeKept p (p.setRequest c r) :=
  .of_requests rfl rfl fun h => h.setRequest ⟨fun e => absurd e hline, fun e => absurd e hinhibited⟩

theorem PeKept.of_only {bs : List Block} {s t : State} (h : Only bs s t) (hb : .pe ∉ bs) : PeKept s.pe t.pe := by
  rw [h.pe hb]
  exact .refl _

/-! ## Inputs, timers and request states -/

theorem filterRequest_request (n : Nat) (raw : Bool) (x : ClassState) : (filterRequest n raw x).request = x.request := by
  unfold filterRequest
  split_ifs <;> rfl

theorem PeKept.foldl {f : PeState → PreClass → PeState} (hf : ∀ p c, PeKept p (f p c)) :
    ∀ (l : List PreClass) (p : PeState), PeKept p (l.foldl f p)
  | [], p => .refl p
  | c :: l, p => (hf p c).trans (PeKept.foldl hf l (f p c))

theorem setFiltered_kept (pe : PeState) (c : PreClass) (n : Nat) (raw : Bool) :
    PeKept pe (pe.setCls c (filterRequest n raw (pe.cls c))) := by
  refine .of_requests rfl rfl fun h => h.setCls ?_
  rw [ClassOk, filterRequest_request]
  exact h c

theorem sampleRequests_kept (img : Image) (s : State) : PeKept s.pe (sampleRequests img s).pe :=
  PeKept.foldl (fun p c => setFiltered_kept p c _ _) _ _

theorem countService_cls (v : Service) : (countService v).cls = v.cls := by
  unfold countService
  split <;> rfl

theorem countPeTimers_kept (pe : PeState) : PeKept pe (countPeTimers pe) := by
  refine .of_same ?_ ?_ rfl
  · simp [PeState.serving, countPeTimers, Function.comp_def, countService_cls]
  · simp [PeState.stacked, countPeTimers, Function.comp_def]

/-- Table 9.2 never moves a class into REQUESTED-LINE, nor into INHIBITED. -/
theorem nextRequest_ok {c : PreClass} {x : ClassState} (h : ClassOk c x) (raw : Bool) (inhibit : Nat) :
    (nextRequest x raw inhibit = .requestedLine → c = .emergency) ∧ (nextRequest x raw inhibit = .inhibited → c = .transit) := by
  obtain ⟨hline, hinhibited⟩ := h
  unfold nextRequest
  split <;> split_ifs <;> simp_all

theorem setNextRequest_kept (pe : PeState) (c : PreClass) (raw : Bool) (inhibit : Nat) :
    PeKept pe (pe.setRequest c (nextRequest (pe.cls c) raw inhibit)) :=
  .of_requests rfl rfl fun h => h.setRequest (nextRequest_ok (h c) raw inhibit)

theorem moveRequest_kept (s : State) (pe : PeState) (c : PreClass) : PeKept pe (moveRequest s pe c) := by
  unfold moveRequest
  dsimp only
  split
  · exact (setNextRequest_kept pe c _ _).trans (.of_same rfl rfl rfl)
  · exact setNextRequest_kept pe c _ _

theorem raiseLineRequest_kept (img : Image) (pe : PeState) : PeKept pe (raiseLineRequest img pe) := by
  have raised : PeKept pe (pe.setRequest .emergency .requestedLine) :=
    .of_requests rfl rfl fun h => h.setRequest ⟨fun _ => rfl, (nomatch ·)⟩
  unfold raiseLineRequest
  split
  · exact raised.trans (.of_same rfl rfl rfl)
  · exact raised.trans (.of_same rfl rfl rfl)
  · exact .refl pe

theorem takeLineAlert_kept (img : Image) (pe : PeState) : PeKept pe (takeLineAlert img pe) := by
  unfold takeLineAlert
  split
  · split
    · exact (raiseLineRequest_kept img pe).trans (.of_same rfl rfl rfl)
    · exact .refl pe
  · exact .refl pe

theorem endLineDwell_kept (pe : PeState) : PeKept pe (endLineDwell pe) := by
  unfold endLineDwell
  split
  · exact .setRequest (by decide) (by decide)
  · exact .refl pe

theorem moveRequests_kept (img : Image) (s : State) : PeKept s.pe (moveRequests img s).pe := by
  have moved : PeKept s.pe (allClasses.foldl (moveRequest s) s.pe) := .foldl (moveRequest_kept s) _ _
  unfold moveRequests
  rw [State.withPe_pe]
  generalize allClasses.foldl (moveRequest s) s.pe = pe at moved ⊢
  exact (moved.trans (takeLineAlert_kept img pe)).trans (endLineDwell_kept _)

/-! ## The beginning of a service -/

theorem placeCommand_service (y : Option Stage) (b : Bool) (s : State) : (placeCommand y b s).pe.service = s.pe.service := by
  cases y <;> rfl

theorem placeCommand_kept (y : Option Stage) (b : Bool) (s : State) : PeKept s.pe (placeCommand y b s).pe := by
  cases y <;> exact .of_same rfl rfl rfl

/-- A service placed over a stack of lower classes. -/
theorem placed_ok {s : State} {pe : PeState} {v : Service} (y : Option Stage) (b : Bool) (hd : Descending (v.cls :: pe.stacked)) :
    StackOk (placeCommand y b (s.withPe { pe with service := some v })).pe :=
  (StackOk.of_serving (pe := { pe with service := some v }) rfl hd).of_same (serving_eq (placeCommand_service _ _ _))
    (stacked_eq (placeCommand_same _ _ _).2.2.2.2)

theorem placed_kept {s : State} {pe : PeState} {v : Service} (y : Option Stage) (b : Bool) (hc : pe.classes = s.pe.classes)
    (hd : StackOk s.pe → Descending (v.cls :: pe.stacked)) :
    PeKept s.pe (placeCommand y b (s.withPe { pe with service := some v })).pe :=
  ⟨fun h => placed_ok y b (hd h), fun h => RequestsOk.of_classes (h.of_classes hc) (placeCommand_same y b _).1⟩

theorem startIfIdle_kept (img : Image) (s : State) : PeKept s.pe (startIfIdle img s).pe := by
  unfold startIfIdle
  split
  next hv _ =>
    refine placed_kept _ _ rfl fun h => ?_
    rw [h.1 (by simp [PeState.serving, hv])]
    exact List.pairwise_singleton _ _
  next => exact .refl _

theorem enterDwell_kept (img : Image) (s : State) : PeKept s.pe (enterDwell img s).pe := by
  obtain ⟨hc, -, -, -, hs⟩ := enterDwell_same img s
  refine .of_same ?_ (stacked_eq hs) hc
  by_cases h : ∃ v y, s.pe.service = some v ∧ v.phase = .entry ∧ (img.cls v.cls).target = some y ∧ stageComplete s y = true
  · obtain ⟨v, y, hv, hp, hy, hcomplete⟩ := h
    obtain ⟨-, -, b, hservice⟩ := enterDwell_complete hv hp hy hcomplete
    simp [PeState.serving, hservice, hv]
  · rw [enterDwell_away]
    intro v y hv hp hy
    by_contra hn
    exact h ⟨v, y, hv, hp, hy, by simpa using hn⟩

/-! ## The end of a service -/

theorem loadInhibit_kept (img : Image) (v : Service) (pe : PeState) : PeKept pe (loadInhibit img v pe) := by
  unfold loadInhibit
  split
  · refine .of_requests rfl rfl fun h => (h.setRequest (c := .transit)
      (r := if 0 < (img.cls .transit).inhibit then .inhibited
        else if (pe.cls .transit).filtered then .requestedLocal else .none) ⟨?_, fun _ => rfl⟩).of_classes rfl
    split_ifs <;> exact fun e => nomatch e
  · exact .refl pe

/-- R157: the records that the examination keeps are the lower end of the stack. -/
theorem examineStack_kept : ∀ (l : List Stacked) (pe : PeState), (examineStack pe l).stack <:+ l ∧
    (examineStack pe l).service = pe.service ∧ (RequestsOk pe → RequestsOk (examineStack pe l))
  | [], pe => ⟨List.suffix_refl [], rfl, fun h => h.of_classes rfl⟩
  | r :: rest, pe => by
    unfold examineStack
    split
    · obtain ⟨hsuffix, hservice, hrequests⟩ := examineStack_kept rest pe
      exact ⟨hsuffix.trans (List.suffix_cons r rest), hservice, hrequests⟩
    · split
      · obtain ⟨hsuffix, hservice, hrequests⟩ := examineStack_kept rest (pe.setRequest r.cls .lockedOut)
        exact ⟨hsuffix.trans (List.suffix_cons r rest), hservice,
          fun h => hrequests (h.setRequest ⟨(nomatch ·), (nomatch ·)⟩)⟩
      · exact ⟨List.suffix_refl _, rfl, fun h => h.of_classes rfl⟩

/-- A class above the top of a descending list goes on top of it. -/
theorem Descending.cons {c d : PreClass} {l : List PreClass} (h : Descending (d :: l)) (hc : higherClass c d = true) :
    Descending (c :: d :: l) := by
  refine List.pairwise_cons.mpr ⟨fun x hx => ?_, h⟩
  rcases List.mem_cons.mp hx with rfl | hx
  · exact hc
  · have hdx := (List.pairwise_cons.mp h).1 x hx
    simp only [higherClass, decide_eq_true_eq] at hc hdx ⊢
    omega

theorem chooseService_ok (img : Image) {s : State} (hv : s.pe.service = none) (hd : Descending s.pe.stacked) :
    StackOk (chooseService img s).pe := by
  unfold chooseService
  split
  next r rest c hs _ =>
    have hd' : Descending (r.cls :: rest.map (·.cls)) := by rwa [PeState.stacked, hs] at hd
    split
    next hhigh =>
      refine placed_ok (s := s) (pe := s.pe) _ _ ?_
      rw [PeState.stacked, hs]
      exact hd'.cons hhigh
    next => exact placed_ok (pe := { s.pe with stack := rest }) _ _ hd'
  next r rest hs _ =>
    have hd' : Descending (r.cls :: rest.map (·.cls)) := by rwa [PeState.stacked, hs] at hd
    exact placed_ok (pe := { s.pe with stack := rest }) _ _ hd'
  next c hs _ =>
    refine placed_ok (s := s) (pe := s.pe) _ _ ?_
    rw [PeState.stacked, hs]
    exact List.pairwise_singleton _ _
  next hs _ => exact .of_idle hv hs

theorem chooseService_classes (img : Image) (s : State) : (chooseService img s).pe.classes = s.pe.classes := by
  unfold chooseService
  split
  · split <;> exact (placeCommand_same _ _ _).1
  · exact (placeCommand_same _ _ _).1
  · exact (placeCommand_same _ _ _).1
  · rfl

theorem endService_kept (img : Image) (s : State) : PeKept s.pe (endService img s).pe := by
  unfold endService
  split
  next => exact .refl _
  next v hv =>
    dsimp only
    obtain ⟨hsuffix, hservice, hrequests⟩ :=
      examineStack_kept (loadInhibit img v s.pe).stack { loadInhibit img v s.pe with service := none }
    obtain ⟨hstack, hload⟩ := loadInhibit_kept img v s.pe
    refine ⟨fun h => chooseService_ok img hservice ?_, fun h => ?_⟩
    · exact (hstack h).below.sublist (hsuffix.sublist.map _)
    · exact RequestsOk.of_classes (hrequests ((hload h).of_classes rfl)) (chooseService_classes img _)

theorem enterExit_kept (img : Image) {v : Service} {s : State} (hv : s.pe.serving = some v.cls) :
    PeKept s.pe (enterExit img v s).pe := by
  have exiting : PeKept s.pe { s.pe with service := some { v with phase := .exit } } := .of_same hv.symm rfl rfl
  unfold enterExit
  dsimp only
  split
  · exact exiting.trans (placeCommand_kept _ _ (s.withPe { s.pe with service := some { v with phase := .exit } }))
  · exact exiting.trans (endService_kept img (s.withPe { s.pe with service := some { v with phase := .exit } }))

theorem maxDwellExit_kept (img : Image) {v : Service} {s : State} (hv : s.pe.serving = some v.cls) :
    PeKept s.pe (maxDwellExit img v s).pe := by
  have locked : PeKept s.pe (s.pe.setRequest v.cls .lockedOut) := .setRequest (by decide) (by decide)
  unfold maxDwellExit
  dsimp only
  split
  · exact (locked.trans (.of_same rfl rfl rfl)).trans (enterExit_kept img (v := { v with byMax := true })
      (s := s.withPe { s.pe.setRequest v.cls .lockedOut with lineDwell := 0 }) hv)
  · exact locked.trans (enterExit_kept img (v := { v with byMax := true }) (s := s.withPe (s.pe.setRequest v.cls .lockedOut)) hv)

theorem serving_of_service {pe : PeState} {v : Service} (h : pe.service = some v) : pe.serving = some v.cls := by
  simp [PeState.serving, h]

theorem exitDwell_kept (img : Image) (s : State) : PeKept s.pe (exitDwell img s).pe := by
  unfold exitDwell
  split
  next => exact .refl _
  next v hv =>
    split
    · exact maxDwellExit_kept img (serving_of_service hv)
    · split
      · exact enterExit_kept img (serving_of_service hv)
      · exact .refl _

theorem finishExit_kept (img : Image) (s : State) : PeKept s.pe (finishExit img s).pe := by
  unfold finishExit
  split
  · exact endService_kept img s
  · exact .refl _

/-- R155: the class that takes over is above the active service's, which goes on top of the stack. -/
theorem takeOver_kept (img : Image) (s : State) : PeKept s.pe (takeOver img s).pe := by
  unfold takeOver
  split
  next v c hv _ =>
    split
    next hhigh =>
      split
      · exact endService_kept img s
      · refine placed_kept (s := s) (pe := { s.pe with stack := _ }) _ _ rfl fun h => ?_
        exact (h.serving hv).cons hhigh
    next => exact .refl _
  next => exact .refl _

/-- R152 to R157. -/
theorem serviceDecisions_kept (img : Image) (s : State) : PeKept s.pe (serviceDecisions img s).pe := by
  unfold serviceDecisions
  dsimp only
  refine (startIfIdle_kept img s).trans ?_
  generalize startIfIdle img s = u
  refine PeKept.trans ?_ (enterDwell_kept img _)
  have decided : PeKept u.pe (if Config.higherClassFirst s.free then exitDwell img (enterDwell img (takeOver img u))
      else takeOver img (exitDwell img (enterDwell img u))).pe := by
    split
    · exact ((takeOver_kept img u).trans (enterDwell_kept img _)).trans (exitDwell_kept img _)
    · exact ((enterDwell_kept img u).trans (exitDwell_kept img _)).trans (takeOver_kept img _)
  refine decided.trans ?_
  generalize (if Config.higherClassFirst s.free then exitDwell img (enterDwell img (takeOver img u))
      else takeOver img (exitDwell img (enterDwell img u))) = t
  split
  · exact finishExit_kept img t
  · exact .refl _

theorem peWork_kept (s : State) : PeKept s.pe (peWork s).pe := by
  have inhibit : PeKept s.pe (countInhibit s).pe := by
    unfold countInhibit
    split
    · exact .of_same rfl rfl rfl
    · exact .refl _
  unfold peWork
  split
  · exact .refl _
  · next img _ =>
    split
    · unfold peEvaluation
      dsimp only
      refine inhibit.trans ((sampleRequests_kept img _).trans ?_)
      generalize sampleRequests img (countInhibit s) = u
      split
      · exact (countPeTimers_kept u.pe).trans ((moveRequests_kept img (u.withPe (countPeTimers u.pe))).trans
          (serviceDecisions_kept img _))
      · exact (moveRequests_kept img u).trans (serviceDecisions_kept img _)
    · exact inhibit

/-! ## Leaving RUN, restarts and alerts -/

theorem cancelService_kept (s : State) : PeKept s.pe (cancelService s).pe := by
  refine ⟨fun _ => .of_idle rfl rfl, fun h c => ?_⟩
  have hcls : (cancelService s).pe.cls c = cancelClass (s.pe.cls c) := tab_get (fun i => cancelClass s.pe.classes[i]) (classIndex c)
  rw [hcls]
  obtain ⟨hline, hinhibited⟩ := h c
  unfold ClassOk cancelClass
  split <;> simp_all

theorem reset_ok : StackOk PeState.reset ∧ RequestsOk PeState.reset :=
  ⟨.of_idle rfl rfl, fun c => by cases c <;> exact ⟨fun h => absurd h (by decide), fun h => absurd h (by decide)⟩⟩

theorem PeKept.of_reset {p q : PeState} (hv : q.service = none) (hs : q.stack = []) (hc : q.classes = PeState.reset.classes) :
    PeKept p q := ⟨fun _ => .of_idle hv hs, fun _ => reset_ok.2.of_classes hc⟩

theorem takePreemptAlert_kept (sender serial eta : Nat) (s : State) : PeKept s.pe (takePreemptAlert sender serial eta s).pe := by
  unfold takePreemptAlert
  split
  · exact .refl _
  · dsimp only
    split_ifs <;> exact .of_same rfl rfl rfl

theorem cancelAlert_kept (sender : Nat) (s : State) : PeKept s.pe (cancelAlert sender s).pe := by
  rw [cancelAlert_pe]
  exact .of_same rfl rfl rfl

theorem leaveRun_kept (s : State) : PeKept s.pe (leaveRun s).pe := by
  unfold leaveRun
  split
  · exact cancelService_kept s
  · exact .refl _

/-! ## What the works of SQ and OS can come to -/

/-- R24: an evaluation touches the groups, the sequencer and the links, and a halt that is finished is then reported. -/
theorem sqEvaluation_cases (s : State) : Only [.ge, .sq, .pl] s (sqEvaluation s) ∨
    ∃ u, Only [.ge, .sq, .pl] s u ∧ haltFinished u = true ∧ sqEvaluation s = reportHalt u := by
  have steps := sqSteps_only s
  unfold sqEvaluation
  generalize runSelection (testTermination (takeOrders (followChange (countSqTimers s)))) = u at steps ⊢
  have read : Only [.ge, .sq, .pl] s (readGreens (u.withSq { u.sq with yieldWasOpen := u.ck.report.yieldOpen })) :=
    readGreens_after (steps.trans ((withSq_only _ _).mono (by simp)))
  dsimp only
  split
  next hf => exact .inr ⟨_, read, hf, rfl⟩
  next => exact .inl read

/-- R24, R45: SQ evaluates in RUN and FLASH ENTRY alone. -/
theorem sqWork_cases (s : State) : Only [.ge, .sq, .pl] s (sqWork s) ∨
    ∃ u, Only [.ge, .sq, .pl] s u ∧ haltFinished u = true ∧ sqWork s = reportHalt u := by
  unfold sqWork
  split
  · exact sqEvaluation_cases s
  · exact .inl (.refl _ s)

/-- R171, R174: the monitor stands, counts, or counts and latches. -/
theorem monitorWork_cases (s : State) : monitorWork s = s ∨ ∃ img, s.cf.image = some img ∧ s.os.mode.monitored = true ∧
    (monitorWork s = s.withOs (countedOs img s) ∨
      ∃ c further, monitorWork s = latchFault c further (s.withOs (countedOs img s))) := by
  unfold monitorWork
  split
  · exact .inl rfl
  next img hi =>
    split
    next hm =>
      refine .inr ⟨img, hi, hm, ?_⟩
      dsimp only
      split
      · exact .inl rfl
      · exact .inr ⟨_, _, rfl⟩
    · exact .inl rfl

/-- What both parts of OS's work keep, the whole keeps. -/
theorem supervisorWork_keeps {P : State → Prop} {began : Mode} (hmonitor : ∀ s, P s → P (monitorWork s))
    (htimer : ∀ s, P s → P (modeTimerWork began s)) (s : State) (h : P s) : P (supervisorWork began s) := by
  unfold supervisorWork
  split
  · exact htimer _ (hmonitor s h)
  · exact hmonitor _ (htimer s h)

/-! ## The laws kept -/

theorem enterFlash_kept (mode : Mode) (cause : AlertCause) (s : State) : PeKept s.pe (enterFlash mode cause s).pe := by
  rw [enterFlash_eq_offer, offer_pe, flashEntered_pe]
  exact leaveRun_kept s

theorem latchFault_kept (cause : FaultCause) (further : Nat) (s : State) : PeKept s.pe (latchFault cause further s).pe :=
  enterFlash_kept .faultFlash .fault (s.withOs { s.os with
    fault := some { cause := cause, mode := s.os.mode }, additional := satAdd 255 further s.os.additional })

theorem monitorWork_kept (s : State) : PeKept s.pe (monitorWork s).pe := by
  rcases monitorWork_cases s with h | ⟨img, -, -, h | ⟨c, further, h⟩⟩ <;> rw [h]
  · exact .refl _
  · exact .refl _
  · exact latchFault_kept c further (s.withOs (countedOs img s))

theorem sqWork_kept (s : State) : PeKept s.pe (sqWork s).pe := by
  rcases sqWork_cases s with h | ⟨u, h, hf, heq⟩
  · exact .of_only h (by simp)
  · rw [heq]
    exact (PeKept.of_only h (by simp)).trans (.of_only (reportHalt_only_of_finished hf) (by simp))

theorem supervisorWork_kept (began : Mode) (s : State) : PeKept s.pe (supervisorWork began s).pe :=
  supervisorWork_keeps (P := fun u => PeKept s.pe u.pe) (fun u h => h.trans (monitorWork_kept u))
    (fun u h => h.trans (.of_only (modeTimerWork_only began u) (by simp))) s (.refl _)

theorem receiveByte_kept (b : Byte) (framingError : Bool) (s : State) : PeKept s.pe (receiveByte b framingError s).pe := by
  rw [(receiveByte_after b framingError s).pe (by simp)]
  rcases byteTaken_cases b framingError s with honly | ⟨img, f, u, -, -, -, hu, heq⟩
  · exact .of_only honly (by simp)
  · rw [heq]
    refine (PeKept.of_only hu (by simp)).trans ?_
    rcases dispatch_cases img f u with ⟨-, h⟩ | ⟨-, h⟩ | h | ⟨-, h⟩ | h
    · exact h ▸ .of_only (takeBeacon_only _ _ _ u) (by simp)
    · rw [h]
      exact (PeKept.of_only ((takeFlashMode_only (num f 1) u).mono (by simp)) (bs := [.nt]) (by simp)).trans
        ((PeKept.of_only (purgeSender_only (num f 1) _) (by simp)).trans (cancelAlert_kept _ _))
    · rw [h]
      exact .refl _
    · exact h ▸ takePreemptAlert_kept _ _ _ u
    · exact h ▸ .of_only (takePlatoon_only _ _ _ _ u) (by simp)

theorem decided_kept {s : State} {pe : PeState} (img : Image) (h : PeKept s.pe pe) :
    PeKept s.pe (serviceDecisions img (s.withPe pe)).pe :=
  h.trans (serviceDecisions_kept img (s.withPe pe))

theorem whenDue_kept {c : Bool} {s t : State} (h : PeKept s.pe t.pe) : PeKept s.pe (whenDue c t s).pe := by
  rcases whenDue_cases c t s with ⟨-, e⟩ | e <;> rw [e]
  · exact h
  · exact .refl _

theorem pe_event {c : Instr} {s t : State} (ht : touches [.pe] (Instr.reaches c) = true) (hc : Instr.isEvent c = true)
    (hx : exec c s = .next t) : PeKept s.pe t.pe := by
  cases c with
  | powerOn => injection hx with hx; exact hx ▸ .of_reset rfl rfl rfl
  | resetPin => injection hx with hx; exact hx ▸ .of_reset rfl rfl rfl
  | loadEnd body =>
    rcases loadEnd_cases hx with h | h | ⟨-, raw, position, -, h⟩
    · exact h ▸ .refl _
    · exact .of_only h.only (by simp)
    · rw [h]
      exact .of_reset rfl rfl rfl
  | byteReceived b e => injection hx with hx; exact hx ▸ whenDue_kept (receiveByte_kept b e s)
  | frameReceived b => injection hx with hx; exact hx ▸ whenDue_kept (receiveByte_kept b false s)
  | requestInputOn c =>
    unfold exec execRequestInputOn at hx
    obtain rfl | ⟨img, -, -, -, rfl⟩ := peEvent_cases hx
    · exact .refl _
    · have filtered : PeKept s.pe (setFilter c true s).pe := .of_requests rfl rfl fun h => h.setCls (h c)
      generalize setFilter c true s = u at filtered ⊢
      have moved := setNextRequest_kept u.pe c true u.pe.inhibit
      dsimp only
      split
      · exact filtered.trans (decided_kept img (moved.trans (.of_same rfl rfl rfl)))
      · exact filtered.trans (decided_kept img moved)
  | dwellEntry =>
    unfold exec execDwellEntry at hx
    obtain rfl | ⟨img, -, -, -, rfl⟩ := peEvent_cases hx
    · exact .refl _
    · exact ((enterDwell_kept img s).trans (exitDwell_kept img _)).trans (enterDwell_kept img _)
  | minDwellExpiry =>
    unfold exec execMinDwellExpiry at hx
    obtain rfl | ⟨img, -, -, -, rfl⟩ := peEvent_cases hx
    · exact .refl _
    · split
      next v hv =>
        exact (enterExit_kept img (v := { v with elapsed := satInc 6000 v.elapsed }) (by rw [serving_of_service hv])).trans
          (enterDwell_kept img _)
      next => exact .refl _
  | maxDwellExpiry =>
    unfold exec execMaxDwellExpiry at hx
    obtain rfl | ⟨img, -, -, -, rfl⟩ := peEvent_cases hx
    · exact .refl _
    · split
      next v hv =>
        exact (maxDwellExit_kept img (v := { v with remaining := 0 }) (by rw [serving_of_service hv])).trans (enterDwell_kept img _)
      next => exact .refl _
  | serviceEnd =>
    unfold exec execServiceEnd at hx
    obtain rfl | ⟨img, -, -, -, rfl⟩ := peEvent_cases hx
    · exact .refl _
    · exact (endService_kept img s).trans (enterDwell_kept img _)
  | lineAlertCountdownExpiry =>
    unfold exec execLineAlertCountdownExpiry at hx
    obtain rfl | ⟨img, -, -, -, rfl⟩ := peEvent_cases hx
    · exact .refl _
    · have raised : PeKept s.pe { raiseLineRequest img s.pe with alert := none } :=
        (raiseLineRequest_kept img s.pe).trans (.of_same rfl rfl rfl)
      exact decided_kept img raised
  | lineDwellExpiry =>
    unfold exec execLineDwellExpiry at hx
    obtain rfl | ⟨img, -, -, -, rfl⟩ := peEvent_cases hx
    · exact .refl _
    · have ended : PeKept s.pe (endLineDwell { s.pe with lineDwell := 0 }) :=
        PeKept.trans (q := { s.pe with lineDwell := 0 }) (.of_same rfl rfl rfl) (endLineDwell_kept _)
      exact decided_kept img ended
  | inhibitExpiry =>
    unfold exec execInhibitExpiry at hx
    obtain rfl | ⟨img, -, -, -, rfl⟩ := peEvent_cases hx
    · exact .refl _
    · have moved : PeKept s.pe (PeState.setRequest { s.pe with inhibit := 0 } .transit
          (nextRequest (s.pe.cls .transit) true 0)) :=
        PeKept.trans (.of_same rfl rfl rfl) (setNextRequest_kept { s.pe with inhibit := 0 } .transit true 0)
      exact decided_kept img moved
  | conflict a b =>
    injection hx with hx
    rw [← hx]
    split
    · exact .refl _
    · exact whenDue_kept (latchFault_kept _ _ s)
  | mismatch ch l => injection hx with hx; exact hx ▸ whenDue_kept (latchFault_kept _ _ s)
  | _ => first | exact (Bool.false_ne_true ht).elim | exact (Bool.false_ne_true hc).elim

theorem pe_command {m : MpCommand} (s : State) (ht : touches [.pe] m.blocks = true) : PeKept s.pe (carryOut s m).pe := by
  cases m with
  | manualFlashOn =>
    show PeKept s.pe (manualFlashOnEffect s).pe
    unfold manualFlashOnEffect
    split
    · exact leaveRun_kept s
    · exact .refl _
  | restart => exact .of_reset rfl rfl rfl
  | reload => exact .of_reset rfl rfl rfl
  | _ => exact (Bool.false_ne_true ht).elim

theorem pe_work {w : Work} {began : Mode} {s : State} (ht : touches [.pe] w.blocks = true) (hw : w ≠ .mp) :
    PeKept s.pe (doWork began s w).pe := by
  cases w with
  | mp => exact absurd rfl hw
  | sequencer => exact sqWork_kept s
  | preemption => exact peWork_kept s
  | supervisor => exact supervisorWork_kept began s
  | _ => exact (Bool.false_ne_true ht).elim

theorem stackLaw_reads : Reads [.pe] StackLaw := fun s t same h => by
  rw [stackLaw_iff] at h ⊢
  rwa [show t.pe = s.pe from same .pe (by simp)]

theorem requestLaw_reads : Reads [.pe] RequestLaw := fun s t same h => by
  rw [requestLaw_iff] at h ⊢
  rwa [show t.pe = s.pe from same .pe (by simp)]

/-- Settles O52: a service begins over lower classes alone, and its end leaves the lower end of the stack. -/
theorem serviceStackLawHolds : Obligations.ServiceStackLawHolds :=
  ⟨stackLaw_reads.kept (by decide)
      (fun _ _ _ ht hc h hx => (stackLaw_iff _).mpr ((pe_event ht hc hx).1 ((stackLaw_iff _).mp h)))
      (fun _ s ht _ h => (stackLaw_iff _).mpr ((pe_command s ht).1 ((stackLaw_iff _).mp h)))
      fun _ _ _ ht hw h => (stackLaw_iff _).mpr ((pe_work ht hw).1 ((stackLaw_iff _).mp h)),
    requestLaw_reads.kept (by decide) (fun _ _ _ ht hc h hx => (pe_event ht hc hx).2 h)
      (fun _ s ht _ h => (pe_command s ht).2 h) fun _ _ _ ht hw h => (pe_work ht hw).2 h⟩

end Sys2Proof.Machine


/-!
# The groups (O16, O17)

The first pass of a tenth mark state by state, the second pass as a walk through the groups in ascending order, and the three rows
that stand for the count of a group's timer.
-/

namespace Sys2Proof.Machine

/-! ## The first pass, by the group's state -/

section FirstPass

variable {r : GroupRecord} {mode : Mode} {g : GroupState}

theorem firstPass_of_off (h : g.phase = .off) :
    firstPass r mode g = { g with timer := g.timer - 1, e := 255, entry := false, leave := none } := by
  obtain ⟨phase, timer, minGreenDone, e, entry, leave⟩ := g
  cases h
  rfl

theorem firstPass_of_flashing (h : g.phase = .flashing) :
    firstPass r mode g = { g with timer := g.timer - 1, e := min (g.e + 1) 255, entry := false, leave := none } := by
  obtain ⟨phase, timer, minGreenDone, e, entry, leave⟩ := g
  cases h
  rfl

theorem firstPass_of_red (h : g.phase = .red) :
    firstPass r mode g = { g with timer := g.timer - 1, e := min (g.e + 1) 255, leave := none } := by
  obtain ⟨phase, timer, minGreenDone, e, entry, leave⟩ := g
  cases h
  rfl

theorem firstPass_of_clearance (h : g.phase = .clearance) : firstPass r mode g = { g with
    phase := if g.timer ≤ 1 then .red else .clearance, timer := g.timer - 1, e := min (g.e + 1) 255, leave := none } := by
  obtain ⟨phase, timer, minGreenDone, e, entry, leave⟩ := g
  cases h
  by_cases ht : timer ≤ 1
  · simp [firstPass, actOnTimer, countTimer, advanceE, endClearance, discardRequests, satInc, ht]
  · simp [firstPass, actOnTimer, countTimer, advanceE, discardRequests, satInc, ht, show ¬timer - 1 = 0 by omega]

theorem firstPass_of_prep (h : g.phase = .prep) (ht : 1 < g.timer) :
    firstPass r mode g = { g with timer := g.timer - 1, e := min (g.e + 1) 255, entry := false } := by
  obtain ⟨phase, timer, minGreenDone, e, entry, leave⟩ := g
  cases h
  dsimp only at ht
  simp [firstPass, actOnTimer, countTimer, advanceE, discardRequests, satInc, show ¬timer - 1 = 0 by omega]

/-- R11: the last tenth of a PREP. -/
theorem firstPass_of_prep_end (h : g.phase = .prep) (ht : g.timer ≤ 1) : firstPass r mode g =
    { g with phase := .green, timer := r.minGreen, minGreenDone := false, e := min (g.e + 1) 255, entry := false,
             leave := if mode = .flashEntry ∧ g.leave = none then some .ordinary else g.leave } := by
  obtain ⟨phase, timer, minGreenDone, e, entry, leave⟩ := g
  cases h
  dsimp only at ht
  have ht' : timer - 1 = 0 := by omega
  by_cases hm : mode = .flashEntry <;> cases leave <;>
    simp [firstPass, actOnTimer, countTimer, advanceE, endPrep, addLeaveIfNone, discardRequests, satInc, ht', hm]

theorem firstPass_of_green (h : g.phase = .green) (hl : g.leave = none) : firstPass r mode g = { g with
    timer := g.timer - 1, minGreenDone := g.minGreenDone || decide (g.timer ≤ 1), e := min (g.e + 1) 255, entry := false } := by
  obtain ⟨phase, timer, minGreenDone, e, entry, leave⟩ := g
  cases h
  cases hl
  by_cases ht : timer ≤ 1
  · cases minGreenDone <;>
      simp [firstPass, actOnTimer, countTimer, advanceE, endMinGreen, takeLeave, discardRequests, satInc, ht]
  · have ht' : ¬timer - 1 = 0 := by omega
    simp [firstPass, actOnTimer, countTimer, advanceE, takeLeave, discardRequests, satInc, ht, ht']

theorem firstPass_of_green_held (h : g.phase = .green) (hl : g.leave = some .ordinary) (hd : g.minGreenDone = false)
    (ht : 1 < g.timer) : firstPass r mode g = { g with timer := g.timer - 1, e := min (g.e + 1) 255, entry := false } := by
  obtain ⟨phase, timer, minGreenDone, e, entry, leave⟩ := g
  cases h
  cases hl
  cases hd
  dsimp only at ht
  simp [firstPass, actOnTimer, countTimer, advanceE, takeLeave, discardRequests, satInc, show ¬timer - 1 = 0 by omega]

/-- R13: a leave request that the group may take. -/
theorem firstPass_of_green_left (h : g.phase = .green)
    (hl : g.leave = some .truncating ∨ g.leave = some .ordinary ∧ (g.minGreenDone = true ∨ g.timer ≤ 1)) :
    firstPass r mode g = { g with
      phase := .clearance, timer := r.clearance, minGreenDone := false, e := 0, leave := none } := by
  obtain ⟨phase, timer, minGreenDone, e, entry, leave⟩ := g
  cases h
  simp only [firstPass, actOnTimer, countTimer, advanceE]
  rcases hl with hl | ⟨hl, hd | ht⟩ <;> cases hl
  · split <;> rfl
  · cases hd
    simp [takeLeave, startClearance, discardRequests]
  · dsimp only at ht
    cases minGreenDone <;> simp [endMinGreen, takeLeave, startClearance, discardRequests, ht]

end FirstPass

/-! ## The second pass -/

theorem gateOpen_iff (img : Image) (ge : Vector GroupState 16) (g : Group) :
    gateOpen img ge g = true ↔ GateConditions img ge g := by
  have clear (a : Group) : gateClear img ge g a = true ↔ ∀ i, img.inter a g = some i →
      (ge[a].phase = .red ∨ ge[a].phase = .off) ∧ i ≤ img.groups[g].prep + ge[a].e := by
    unfold gateClear
    cases img.inter a g with
    | none => simp
    | some i => simp
  unfold gateOpen GateConditions
  simp only [List.all_eq_true, List.mem_finRange, true_implies, clear]

/-- The evaluation of one group opens its gate exactly when R9's conditions hold. -/
theorem tryGate_of (img : Image) (mode : Mode) (ge : Vector GroupState 16) (g : Group) :
    let opens := mode = .run ∧ ge[g].phase = .red ∧ ge[g].entry = true ∧ GateConditions img ge g
    (¬opens → tryGate img mode ge g = ge) ∧ (opens → tryGate img mode ge g = put ge g (passGate img.groups[g] ge[g])) := by
  have hopens : (mode = .run && ge[g].phase == .red && ge[g].entry && gateOpen img ge g) = true ↔
      mode = .run ∧ ge[g].phase = .red ∧ ge[g].entry = true ∧ GateConditions img ge g := by
    simp only [Bool.and_eq_true, decide_eq_true_eq, beq_iff_eq, gateOpen_iff, and_assoc]
  unfold tryGate
  exact ⟨fun h => if_neg (mt hopens.mp h), fun h => if_pos (hopens.mpr h)⟩

theorem passGate_prep {r : GroupRecord} (h : 0 < r.prep) (g : GroupState) :
    passGate r g = { g with phase := .prep, timer := r.prep, entry := false, minGreenDone := false } := if_pos h

theorem passGate_green {r : GroupRecord} (h : r.prep = 0) (g : GroupState) :
    passGate r g = { g with phase := .green, timer := r.minGreen, entry := false, minGreenDone := false } :=
  if_neg (by omega)

theorem tryGate_other {img : Image} {mode : Mode} {ge : Vector GroupState 16} {b g : Group} (h : b ≠ g) :
    (tryGate img mode ge b)[g] = ge[g] := by
  rcases tryGate_cases img mode ge b with e | ⟨-, -, -, -, e⟩
  · rw [e]
  · rw [e, put_get, if_neg h]

theorem tryGates_other {img : Image} {mode : Mode} {g : Group} : ∀ {l : List Group}, g ∉ l → ∀ ge : Vector GroupState 16,
    (l.foldl (tryGate img mode) ge)[g] = ge[g]
  | [], _, _ => rfl
  | b :: l, h, ge => by
    rw [List.mem_cons, not_or] at h
    exact (tryGates_other h.2 _).trans (tryGate_other (Ne.symm h.1))

/-- The groups before one and those after it. -/
theorem finRange_split {n : Nat} (g : Fin n) : ∃ before after, List.finRange n = before ++ g :: after ∧
    (∀ a, a ∈ before ↔ a < g) ∧ ∀ a ∈ after, g < a := by
  obtain ⟨before, after, heq⟩ := List.append_of_mem (List.mem_finRange g)
  have hsorted := List.pairwise_lt_finRange n
  rw [heq, List.pairwise_append, List.pairwise_cons] at hsorted
  obtain ⟨-, ⟨hafter, -⟩, hbefore⟩ := hsorted
  refine ⟨before, after, heq, fun a => ⟨fun h => hbefore a h g (List.mem_cons_self ..), fun h => ?_⟩, hafter⟩
  have ha : a ∈ before ++ g :: after := heq ▸ List.mem_finRange a
  rcases List.mem_append.mp ha with h' | h'
  · exact h'
  · rcases List.mem_cons.mp h' with rfl | h'
    · exact absurd h (lt_irrefl _)
    · exact absurd (hafter a h') (by omega)

/-- R4 (2), R10: what a group sees when the second pass comes to it, and what it becomes. -/
theorem secondPass_get (img : Image) (mode : Mode) (ge : Vector GroupState 16) (g : Group) :
    (secondPass img mode ge)[g] =
      (tryGate img mode (tab 16 fun a : Group => if a < g then (secondPass img mode ge)[a] else ge[a]) g)[g] := by
  obtain ⟨before, after, heq, hbefore, hafter⟩ := finRange_split g
  have hsplit : secondPass img mode ge = after.foldl (tryGate img mode) (tryGate img mode (before.foldl (tryGate img mode) ge) g) := by
    unfold secondPass
    rw [heq, List.foldl_append, List.foldl_cons]
  have hseen : before.foldl (tryGate img mode) ge =
      tab 16 fun a : Group => if a < g then (secondPass img mode ge)[a] else ge[a] := by
    refine Vector.ext fun i hi => ?_
    have ha := tab_get (fun a : Group => if a < g then (secondPass img mode ge)[a] else ge[a]) ⟨i, hi⟩
    refine Eq.trans ?_ ha.symm
    by_cases hlt : (⟨i, hi⟩ : Group) < g
    · rw [if_pos hlt, hsplit, tryGates_other (fun h => absurd (hafter _ h) (by omega)) _, tryGate_other (ne_of_gt hlt)]
      rfl
    · rw [if_neg hlt]
      exact tryGates_other (fun h => hlt ((hbefore _).mp h)) ge
  rw [← hseen, hsplit]
  exact tryGates_other (fun h => lt_irrefl g (hafter g h)) _

theorem groupUpdate_first (img : Image) (mode : Mode) (ge : Vector GroupState 16) (g : Group) :
    (tab 16 fun a : Group => firstPass img.groups[a] mode ge[a])[g] = firstPass img.groups[g] mode ge[g] :=
  tab_get (fun a : Group => firstPass img.groups[a] mode ge[a]) g

theorem groupUpdate_get (img : Image) (mode : Mode) (ge : Vector GroupState 16) (g : Group) :
    let first := fun a : Group => firstPass img.groups[a] mode ge[a]
    let t := groupUpdate img mode ge
    let seen := tab 16 fun a : Group => if a < g then t[a] else first a
    let opens := mode = .run ∧ (first g).phase = .red ∧ (first g).entry = true ∧ GateConditions img seen g
    (¬opens → t[g] = first g) ∧ (opens → t[g] = passGate img.groups[g] (first g)) := by
  intro first t seen
  have hseen : (tab 16 fun a : Group => if a < g then t[a] else
      (tab 16 fun a : Group => firstPass img.groups[a] mode ge[a])[a]) = seen := by
    refine congrArg (tab 16) (funext fun a => ?_)
    rw [groupUpdate_first]
  have hg : seen[g] = first g := by
    rw [show seen[g] = if g < g then t[g] else first g from tab_get (fun a : Group => if a < g then t[a] else first a) g,
      if_neg (lt_irrefl g)]
  have ht : t[g] = (tryGate img mode seen g)[g] := by
    rw [← hseen]
    exact secondPass_get img mode _ g
  obtain ⟨hshut, hopen⟩ := tryGate_of img mode seen g
  rw [hg] at hshut hopen
  refine ⟨fun h => ?_, fun h => ?_⟩
  · rw [ht, hshut h, hg]
  · rw [ht, hopen h, put_get, if_pos rfl]

/-! ## The call set follows the groups (R25) -/

theorem installGroups_sq (ge : Vector GroupState 16) (s : State) :
    (installGroups ge s).sq = { s.sq with calls := (installGroups ge s).sq.calls } := rfl

theorem installGroups_calls_iff (ge : Vector GroupState 16) (s : State) (g : Group) : (installGroups ge s).sq.calls[g] = true ↔
    s.sq.calls[g] = true ∧ ¬(ge[g].phase = .green ∧ s.ge[g].phase ≠ .green) := by
  rw [installGroups_calls]
  simp only [Bool.and_eq_true, Bool.not_eq_true', Bool.and_eq_false_iff, beq_eq_false_iff_ne, bne_eq_false_iff_eq, not_and_or,
    not_not, ne_eq]

/-- A group that enters GREEN has its call cleared; no other call changes. -/
theorem installGroups_entered {s : State} {ge : Vector GroupState 16} {g : Group} (hg : ge[g].phase = .green)
    (hs : s.ge[g].phase ≠ .green) (hother : ∀ a : Group, a ≠ g → ge[a] = s.ge[a]) :
    (installGroups ge s).sq = { s.sq with calls := put s.sq.calls g false } := by
  have hcalls : (installGroups ge s).sq.calls = put s.sq.calls g false := by
    refine Vector.ext fun i hi => ?_
    show (installGroups ge s).sq.calls[(⟨i, hi⟩ : Group)] = (put s.sq.calls g false)[(⟨i, hi⟩ : Group)]
    rw [installGroups_calls, put_get]
    split
    next h => subst h; simp [-Fin.getElem_fin, hg, hs]
    next h =>
      rw [hother _ (Ne.symm h)]
      cases s.ge[(⟨i, hi⟩ : Group)].phase <;> simp
  rw [installGroups_sq, hcalls]

theorem installGroups_stood {s : State} {ge : Vector GroupState 16} (h : ∀ a : Group, ge[a].phase = .green → s.ge[a].phase = .green) :
    (installGroups ge s).sq = s.sq := by
  rw [installGroups_sq]
  have hcalls : (installGroups ge s).sq.calls = s.sq.calls := by
    refine Vector.ext fun i hi => ?_
    show (installGroups ge s).sq.calls[(⟨i, hi⟩ : Group)] = s.sq.calls[(⟨i, hi⟩ : Group)]
    rw [installGroups_calls]
    have := h ⟨i, hi⟩
    cases hp : ge[(⟨i, hi⟩ : Group)].phase <;> simp_all [-Fin.getElem_fin]
  rw [hcalls]

/-! ## The obligations -/

/-- Settles O17. -/
theorem firstPassMovesEachGroupAlone : Obligations.FirstPassMovesEachGroupAlone := by
  refine ⟨fun r mode g => ?_, fun img mode ge g => ?_, fun s img hi => ?_⟩
  · refine ⟨firstPass_of_off, firstPass_of_flashing, firstPass_of_red, firstPass_of_clearance, firstPass_of_prep,
      fun h ht => ?_, fun h => ⟨firstPass_of_green h, firstPass_of_green_held h, firstPass_of_green_left h⟩⟩
    rw [firstPass_of_prep_end h ht]
    exact ⟨rfl, rfl, rfl, rfl, rfl, fun hm => if_neg fun hh => hm hh.1⟩
  · obtain ⟨hshut, hopen⟩ := groupUpdate_get img mode ge g
    exact ⟨hshut, fun h hp => (hopen h).trans (passGate_prep hp _), fun h hp => (hopen h).trans (passGate_green hp _)⟩
  · have ht : geWork s = if tenthMark s then installGroups (groupUpdate img s.os.mode s.ge) s else s := by
      unfold geWork
      rw [hi]
    refine ⟨fun h => by rw [ht, h]; rfl, fun h => ?_⟩
    rw [ht, h, if_pos rfl]
    exact ⟨installGroups_only _ s, rfl, rfl, fun g => installGroups_calls_iff _ s g⟩

/-- One group replaced. -/
theorem installGroup_other (g : Group) (x : GroupState) (s : State) (a : Group) (h : a ≠ g) :
    (installGroup g x s).ge[a] = s.ge[a] := by
  show (put s.ge g x)[a] = _
  rw [put_get, if_neg (Ne.symm h)]

theorem installGroup_own (g : Group) (x : GroupState) (s : State) : (installGroup g x s).ge[g] = x := by
  show (put s.ge g x)[g] = _
  rw [put_get, if_pos rfl]

/-- A group that stays out of GREEN, or stays in it, leaves the call set as it is. -/
theorem installGroup_stood {g : Group} {x : GroupState} {s : State} (h : x.phase = .green → s.ge[g].phase = .green) :
    (installGroup g x s).sq = s.sq := by
  refine installGroups_stood fun a => ?_
  rw [put_get]
  split
  next heq => exact heq ▸ h
  next => exact id

theorem installGroup_entered {g : Group} {x : GroupState} {s : State} (h : x.phase = .green) (hs : s.ge[g].phase ≠ .green) :
    (installGroup g x s).sq = { s.sq with calls := put s.sq.calls g false } := by
  refine installGroups_entered (by rw [put_get, if_pos rfl]; exact h) hs fun a ha => ?_
  rw [put_get, if_neg (Ne.symm ha)]

theorem discardRequests_endPrep (r : GroupRecord) (mode : Mode) (g : GroupState) : discardRequests (endPrep r mode g) =
    { phase := .green, timer := r.minGreen, minGreenDone := false, e := g.e, entry := false,
      leave := if mode = .flashEntry ∧ g.leave = none then some .ordinary else g.leave } := by
  unfold endPrep
  by_cases hm : mode = .flashEntry <;> cases hl : g.leave <;> simp [addLeaveIfNone, discardRequests, hm]

/-- R12, R13: the minimum green ends, and a held leave request is taken. -/
theorem discardRequests_endMinGreen (r : GroupRecord) {g : GroupState} (h : g.phase = .green) :
    discardRequests (takeLeave r (endMinGreen g)) = if g.leave = none
      then { phase := .green, timer := 0, minGreenDone := true, e := g.e, entry := false, leave := none }
      else { phase := .clearance, timer := r.clearance, minGreenDone := false, e := 0, entry := g.entry, leave := none } := by
  obtain ⟨phase, timer, minGreenDone, e, entry, leave⟩ := g
  cases h
  rcases leave with _ | _ | _ <;> rfl

/-- R14: a group as the end of its CLEARANCE leaves it, before its gate is looked at. -/
def clearedToRed (g : GroupState) : GroupState := { g with phase := .red, timer := 0, leave := none }

theorem discardRequests_endClearance (g : GroupState) : discardRequests (endClearance g) = clearedToRed g := rfl

/-- Settles O16: each row is the count that ends an interval, with what the group does at that mark. -/
theorem groupIntervalsEnd : Obligations.GroupIntervalsEnd := by
  refine ⟨fun g s img hi hp ht => ?_, fun g s img hi hp hd ht => ?_, fun g s img hi hp ht => ?_⟩
  · have hdue : (s.ge[g].phase == .prep && decide (s.ge[g].timer ≤ 1)) = true := by simp [-Fin.getElem_fin, hp, ht]
    have hx : exec (.prepEnd g) s =
        .next (installGroup g (discardRequests (endPrep img.groups[g] s.os.mode s.ge[g])) s) := by
      show execPrepEnd g s = _
      unfold execPrepEnd
      rw [hi]
      exact congrArg Host.Outcome.next (whenDue_true hdue _ _)
    rw [discardRequests_endPrep] at hx
    exact ⟨_, hx, installGroups_only _ s, installGroup_own g _ s, installGroup_other g _ s,
      installGroup_entered rfl (by rw [hp]; decide)⟩
  · have hdue : (s.ge[g].phase == .green && !s.ge[g].minGreenDone && decide (s.ge[g].timer ≤ 1)) = true := by
      simp [-Fin.getElem_fin, hp, hd, ht]
    have hx : exec (.minGreenEnd g) s =
        .next (installGroup g (discardRequests (takeLeave img.groups[g] (endMinGreen s.ge[g]))) s) := by
      show execMinGreenEnd g s = _
      unfold execMinGreenEnd
      rw [hi]
      exact congrArg Host.Outcome.next (whenDue_true hdue _ _)
    rw [discardRequests_endMinGreen _ hp] at hx
    refine ⟨_, hx, ?_, installGroup_other g _ s, installGroup_own g _ s⟩
    exact Only.without (b := .sq) ((installGroups_only _ s).mono (by simp)) (installGroup_stood fun _ => hp)
  · have hdue : (s.ge[g].phase == .clearance && decide (s.ge[g].timer ≤ 1)) = true := by simp [-Fin.getElem_fin, hp, ht]
    have hx : exec (.clearanceEnd g) s = .next (installGroups (tryGate img s.os.mode (put s.ge g (clearedToRed s.ge[g])) g) s) := by
      show execClearanceEnd g s = _
      unfold execClearanceEnd
      rw [hi]
      exact congrArg Host.Outcome.next (whenDue_true hdue _ _)
    have hred : (put s.ge g (clearedToRed s.ge[g]))[g] = clearedToRed s.ge[g] := by rw [put_get, if_pos rfl]
    -- The groups as the gate sees them: nothing conflicts with itself, so only the others count.
    have hgate : GateConditions img (put s.ge g (clearedToRed s.ge[g])) g ↔ GateConditions img s.ge g := by
      refine forall_congr' fun a => forall_congr' fun i => imp_congr_right fun hc => ?_
      have ha : g ≠ a := fun h => by simp [Image.inter, h] at hc
      rw [put_get, if_neg ha]
    obtain ⟨hshut, hopen⟩ := tryGate_of img s.os.mode (put s.ge g (clearedToRed s.ge[g])) g
    rw [hred, hgate] at hshut hopen
    have hput (x : GroupState) : installGroups (put (put s.ge g (clearedToRed s.ge[g])) g x) s = installGroup g x s := by
      rw [put_put]
      rfl
    have passed (hm : s.os.mode = .run) (he : s.ge[g].entry = true) (hc : GateConditions img s.ge g) :
        installGroups (tryGate img s.os.mode (put s.ge g (clearedToRed s.ge[g])) g) s =
          installGroup g (passGate img.groups[g] (clearedToRed s.ge[g])) s := by
      rw [hopen ⟨hm, rfl, he, hc⟩, hput]
    refine ⟨_, hx, installGroups_only _ s, fun a ha => ?_, fun hn => ?_, fun hm he hc hprep => ?_, fun hm he hc hprep => ?_⟩
    · show (tryGate img s.os.mode (put s.ge g (clearedToRed s.ge[g])) g)[a] = _
      rw [tryGate_other (Ne.symm ha), put_get, if_neg (Ne.symm ha)]
    · rw [hshut fun h => hn ⟨h.1, h.2.2.1, h.2.2.2⟩]
      exact ⟨hred, installGroup_stood (x := clearedToRed s.ge[g]) (nomatch ·)⟩
    · rw [passed hm he hc, passGate_prep hprep]
      exact ⟨installGroup_own g _ s, installGroup_stood (nomatch ·)⟩
    · rw [passed hm he hc, passGate_green hprep]
      exact ⟨installGroup_own g _ s, installGroup_entered rfl (by rw [hp]; decide)⟩

end Sys2Proof.Machine


/-!
# The gate and the intergreens (O18, O19)

Requests alone never move a group (`SameMotion`); what moves one is the update of a tenth mark, the three rows of a group's timer
and the entries of the modes. Each is shown to keep the law of the gate and the law of the intergreen, stated on the image in use and
the groups (`GateOk`, `IntergreensOk`).
-/

namespace Sys2Proof.Machine

/-! ## The laws on the groups -/

/-- R10 for the groups under one image. -/
def GateOk (img : Image) (ge : Vector GroupState 16) : Prop :=
  img.Symmetric ∧ ∀ a g, img.conflicts a g = true → ¬(ge[a].phase.rightOfWay = true ∧ ge[g].phase.rightOfWay = true)

/-- R1, R9, R11 for the groups under one image. -/
def IntergreensOk (img : Image) (ge : Vector GroupState 16) : Prop :=
  (∀ g : Group, img.groups[g].enabled = false → ge[g].phase = .off) ∧
    ∀ (a g : Group) (i : Nat), img.inter a g = some i → i ≤ 200 ∧ (ge[g].phase = .prep → i ≤ ge[a].e + ge[g].timer)

theorem gateLaw_none {s : State} (h : s.cf.image = none) : GateLaw s ↔ ∀ g : Group, s.ge[g].phase = .off := by
  unfold GateLaw
  rw [h]

theorem gateLaw_some {s : State} {img : Image} (h : s.cf.image = some img) : GateLaw s ↔ GateOk img s.ge := by
  unfold GateLaw GateOk
  rw [h]

theorem intergreenLaw_none {s : State} (h : s.cf.image = none) : IntergreenLaw s := fun img hi => by
  rw [h] at hi
  exact nomatch hi

theorem intergreenLaw_some {s : State} {img : Image} (h : s.cf.image = some img) : IntergreenLaw s ↔ IntergreensOk img s.ge := by
  unfold IntergreenLaw IntergreensOk
  rw [h]
  exact ⟨fun k => k img rfl, fun k j hj => by cases hj; exact k⟩

theorem conflicts_of_inter {img : Image} {a g : Group} {i : Nat} (h : img.inter a g = some i) : img.conflicts a g = true := by
  simp [Image.conflicts, h]

/-- A mode in which an image is in use. -/
def Operating (m : Mode) : Prop := ¬(m = .loading ∨ m = .noPlanFlash)

theorem operating_startFlash : Operating .startFlash := by simp [Operating]
theorem operating_startRed : Operating .startRed := by simp [Operating]
theorem operating_run : Operating .run := by simp [Operating]
theorem operating_flashEntry : Operating .flashEntry := by simp [Operating]
theorem operating_manualFlash : Operating .manualFlash := by simp [Operating]
theorem operating_faultFlash : Operating .faultFlash := by simp [Operating]

theorem ModeLaw.image {s : State} (h : ModeLaw s) (ho : Operating s.os.mode) : ∃ img, s.cf.image = some img :=
  Option.ne_none_iff_exists'.mp fun hn => ho (h.mp hn)

theorem ModeLaw.of_operating {s t : State} (h : ModeLaw s) (hs : Operating s.os.mode) (ht : Operating t.os.mode)
    (hc : t.cf.image = s.cf.image) : ModeLaw t :=
  ⟨fun hn => absurd (h.mp (hc ▸ hn)) hs, fun hm => absurd hm ht⟩

theorem operating_of_monitored {m : Mode} (h : m.monitored = true) : Operating m := by
  rcases (monitored_iff m).mp h with rfl | rfl | rfl
  · exact operating_startRed
  · exact operating_run
  · exact operating_flashEntry

/-! ## From one state to the next -/

/-- The laws of the mode and of the gate pass on, and with them the law of the intergreen. -/
def GroupsKept (s t : State) : Prop :=
  (ModeLaw s → GateLaw s → ModeLaw t ∧ GateLaw t) ∧ (ModeLaw s → GateLaw s → IntergreenLaw s → IntergreenLaw t)

theorem GroupsKept.refl (s : State) : GroupsKept s s := ⟨fun hm hg => ⟨hm, hg⟩, fun _ _ hi => hi⟩

theorem GroupsKept.trans {s t u : State} (h : GroupsKept s t) (k : GroupsKept t u) : GroupsKept s u := by
  refine ⟨fun hm hg => ?_, fun hm hg hi => ?_⟩
  · obtain ⟨hm', hg'⟩ := h.1 hm hg
    exact k.1 hm' hg'
  · obtain ⟨hm', hg'⟩ := h.1 hm hg
    exact k.2 hm' hg' (h.2 hm hg hi)

/-- How a group stands in its sequence: everything but its requests. -/
def GroupState.motion (g : GroupState) : GroupPhase × Nat × Nat := (g.phase, g.timer, g.e)

/-- From `s` to `t` requests are given and withdrawn, and no group moves. -/
def SameMotion (s t : State) : Prop := ∀ g : Group, t.ge[g].motion = s.ge[g].motion

theorem SameMotion.refl (s : State) : SameMotion s s := fun _ => rfl

theorem SameMotion.trans {s t u : State} (h : SameMotion s t) (k : SameMotion t u) : SameMotion s u := fun g => (k g).trans (h g)

theorem SameMotion.of_ge {s t : State} (h : t.ge = s.ge) : SameMotion s t := fun g => by rw [h]

theorem SameMotion.of_only {bs : List Block} {s t : State} (h : Only bs s t) (hb : .ge ∉ bs) : SameMotion s t := .of_ge (h.ge hb)

theorem SameMotion.get {s t : State} (h : SameMotion s t) (g : Group) :
    t.ge[g].phase = s.ge[g].phase ∧ t.ge[g].timer = s.ge[g].timer ∧ t.ge[g].e = s.ge[g].e := by
  simpa [GroupState.motion, -Fin.getElem_fin] using h g

/-- No group moves and the image stays: only the mode may have changed. -/
theorem SameMotion.gate {s t : State} (h : SameMotion s t) (hc : t.cf.image = s.cf.image) :
    (GateLaw s → GateLaw t) ∧ (IntergreenLaw s → IntergreenLaw t) := by
  have hphase (g : Group) : t.ge[g].phase = s.ge[g].phase := (h.get g).1
  have htimer (g : Group) : t.ge[g].timer = s.ge[g].timer := (h.get g).2.1
  have he (g : Group) : t.ge[g].e = s.ge[g].e := (h.get g).2.2
  rcases Option.eq_none_or_eq_some s.cf.image with hn | ⟨img, hi⟩
  · rw [gateLaw_none hn, gateLaw_none (hc.trans hn)]
    exact ⟨fun k g => (hphase g).trans (k g), fun _ => intergreenLaw_none (hc.trans hn)⟩
  · rw [gateLaw_some hi, gateLaw_some (hc.trans hi), intergreenLaw_some hi, intergreenLaw_some (hc.trans hi)]
    simp only [GateOk, IntergreensOk, hphase, htimer, he]
    exact ⟨id, id⟩

theorem SameMotion.kept {s t : State} (h : SameMotion s t) (hc : t.cf.image = s.cf.image) (hm : t.os.mode = s.os.mode) :
    GroupsKept s t := by
  obtain ⟨hgate, hinter⟩ := h.gate hc
  refine ⟨fun h hg => ⟨?_, hgate hg⟩, fun _ _ => hinter⟩
  unfold ModeLaw
  rw [hc, hm]
  exact h

theorem SameMotion.kept_operating {s t : State} (h : SameMotion s t) (hc : t.cf.image = s.cf.image) (hs : Operating s.os.mode)
    (ht : Operating t.os.mode) : GroupsKept s t := by
  obtain ⟨hgate, hinter⟩ := h.gate hc
  exact ⟨fun h hg => ⟨h.of_operating hs ht hc, hgate hg⟩, fun _ _ => hinter⟩

theorem GroupsKept.of_only {bs : List Block} {s t : State} (h : Only bs s t) (hg : .ge ∉ bs) (hc : .cf ∉ bs) (ho : .os ∉ bs) :
    GroupsKept s t := (SameMotion.of_only h hg).kept (by rw [h.cf hc]) (by rw [h.os ho])

/-! ## Requests move no group -/

theorem mapGroups_motion {f : Group → GroupState → GroupState} (hf : ∀ g x, (f g x).motion = x.motion) (s : State) :
    SameMotion s (mapGroups f s) := fun g => by
  rw [mapGroups_ge]
  exact hf g _

theorem mapGroups_withSq_motion {f : Group → GroupState → GroupState} (hf : ∀ g x, (f g x).motion = x.motion) (s : State)
    (q : SqState) : SameMotion s ((mapGroups f s).withSq q) := (mapGroups_motion hf s).trans (.of_ge rfl)

@[simp] theorem addLeave_motion (k : Leave) (x : GroupState) : (addLeave k x).motion = x.motion := rfl

@[simp] theorem addLeaveIfNone_motion (k : Leave) (x : GroupState) : (addLeaveIfNone k x).motion = x.motion := by
  unfold addLeaveIfNone
  split <;> rfl

@[simp] theorem withdrawLeave_motion (x : GroupState) : (withdrawLeave x).motion = x.motion := by
  unfold withdrawLeave
  split <;> rfl

@[simp] theorem downgradeLeave_motion (x : GroupState) : (downgradeLeave x).motion = x.motion := by
  unfold downgradeLeave
  split <;> rfl

@[simp] theorem addEntry_motion (m : Mode) (x : GroupState) : (addEntry m x).motion = x.motion := by
  unfold addEntry
  split <;> rfl

@[simp] theorem withdrawEntry_motion (x : GroupState) : (withdrawEntry x).motion = x.motion := rfl

theorem startChange_motion (cause : TermCause) (truncating : Bool) (t : Stage) (s : State) :
    SameMotion s (startChange cause truncating t s) := by
  refine mapGroups_withSq_motion (fun g x => ?_) s _
  unfold changeRequest
  dsimp only
  split_ifs <;> simp

theorem startRun_motion (st : Option Stage) (s : State) : SameMotion s (startRun st s) := by
  cases st with
  | none => exact .refl s
  | some t =>
    refine mapGroups_withSq_motion (fun g x => ?_) s _
    split_ifs <;> simp

theorem lateLeaves_motion (s : State) (t : Stage) : SameMotion s (lateLeaves s t) := by
  unfold lateLeaves
  refine mapGroups_motion (fun g x => ?_) s
  split_ifs <;> simp

theorem upgradeLeaves_motion (s : State) (t : Stage) : SameMotion s (upgradeLeaves s t) := by
  unfold upgradeLeaves
  refine mapGroups_motion (fun g x => ?_) s
  split_ifs <;> simp

theorem replaceTarget_motion (truncating : Bool) (t : Stage) (s : State) : SameMotion s (replaceTarget truncating t s) := by
  refine mapGroups_withSq_motion (fun g x => ?_) s _
  unfold redirectRequest
  dsimp only
  split_ifs <;> simp

theorem dropTruncation_motion (s : State) : SameMotion s (dropTruncation s) :=
  mapGroups_withSq_motion (fun _ x => downgradeLeave_motion x) s _

theorem storeCommand_motion (t : Stage) (truncating : Bool) (s : State) : SameMotion s (storeCommand t truncating s) := by
  unfold storeCommand
  dsimp only
  split
  · exact (dropTruncation_motion s).trans (.of_ge rfl)
  · exact .of_ge rfl

theorem takeCommand_motion (t : Stage) (truncating : Bool) (s : State) : SameMotion s (takeCommand t truncating s) := by
  unfold takeCommand
  dsimp only
  split
  · exact .refl s
  · refine (storeCommand_motion t truncating s).trans ?_
    generalize storeCommand t truncating s = u
    split
    · split
      · exact .of_ge rfl
      · exact startChange_motion _ _ _ u
    · split
      · split
        · exact upgradeLeaves_motion u _
        · exact .refl u
      · split
        · exact replaceTarget_motion _ _ u
        · split
          · exact upgradeLeaves_motion u _
          · exact .refl u
    · exact .refl u

theorem dropCommand_motion (s : State) : SameMotion s (dropCommand s) := by
  unfold dropCommand
  dsimp only
  split
  · exact (dropTruncation_motion s).trans (.of_ge rfl)
  · exact .of_ge rfl

theorem takeMessages_motion : ∀ (ms : List PeMessage) (s : State), SameMotion s (ms.foldl takeMessage s)
  | [], s => .refl s
  | m :: ms, s => by
    have first : SameMotion s (takeMessage s m) := by
      cases m with
      | place t truncating => exact takeCommand_motion t truncating s
      | release => exact dropCommand_motion s
    exact first.trans (takeMessages_motion ms _)

theorem takeHalt_motion (s : State) : SameMotion s (takeHalt s) := by
  refine (dropCommand_motion s).trans ?_
  unfold takeHalt
  generalize dropCommand s = u
  dsimp only
  refine mapGroups_withSq_motion (fun g x => ?_) u _
  split_ifs <;> simp

theorem takeOrders_motion (s : State) : SameMotion s (takeOrders s) := by
  have arrived : SameMotion s (takeArrivals s) :=
    SameMotion.trans (.of_ge rfl) (takeMessages_motion s.sq.arrivals (s.withSq { s.sq with arrivals := [] }))
  unfold takeOrders
  dsimp only
  split
  · exact arrived.trans (takeHalt_motion _)
  · exact arrived

theorem completeChange_motion (t : Stage) (s : State) : SameMotion s (completeChange t s) := by
  unfold completeChange
  dsimp only
  split
  · split
    · exact .of_ge rfl
    · exact SameMotion.trans (.of_ge rfl) (startChange_motion _ _ _ (s.withSq _))
  · exact .of_ge rfl

theorem followChange_motion (s : State) : SameMotion s (followChange s) := by
  unfold followChange
  split
  · exact .refl s
  · dsimp only
    split
    · exact (lateLeaves_motion s _).trans (completeChange_motion _ _)
    · exact lateLeaves_motion s _

theorem testYield_motion (last : Bool) (s : State) : SameMotion s (testYield last s) := by
  unfold testYield
  dsimp only
  split
  · exact startChange_motion _ _ _ s
  · split
    · exact .of_ge rfl
    · exact .refl s

theorem runSelection_motion (s : State) : SameMotion s (runSelection s) := by
  unfold runSelection
  split
  · split
    · exact startChange_motion _ _ _ s
    · exact .refl s
  · exact .refl s

theorem testTermination_motion (s : State) : SameMotion s (testTermination s) := by
  have latched : Only [.sq] s (testLatch (startHold (startMax (latchForceOff s)))) :=
    (((latchForceOff_only s).trans (startMax_only _)).trans (startHold_only _)).trans (testLatch_only _)
  exact (SameMotion.of_only latched (by simp)).trans (testYield_motion _ _)

theorem sqSteps_motion (s : State) :
    SameMotion s (runSelection (testTermination (takeOrders (followChange (countSqTimers s))))) :=
  ((((SameMotion.of_only (countSqTimers_only s) (by simp)).trans (followChange_motion _)).trans (takeOrders_motion _)).trans
    (testTermination_motion _)).trans (runSelection_motion _)

theorem leaveRun_motion (s : State) : SameMotion s (leaveRun s) := fun g => by
  rw [leaveRun_ge]
  rfl

theorem enterFlashEntry_motion (s : State) : SameMotion s (enterFlashEntry s) := by
  have leaves (u : State) : SameMotion u (flashEntryLeaves u) := by
    unfold flashEntryLeaves
    refine mapGroups_motion (fun g x => ?_) u
    split_ifs <;> simp
  exact (leaveRun_motion s).trans (SameMotion.trans (.of_ge rfl) ((leaves _).trans (.of_ge rfl)))

/-! ## What the first pass does to the sequence -/

section FirstPass

variable {r : GroupRecord} {mode : Mode} {g : GroupState}

theorem firstPass_phase_of_green (h : g.phase = .green) :
    (firstPass r mode g).phase = .green ∨ (firstPass r mode g).phase = .clearance := by
  by_cases hleft : g.leave = some .truncating ∨ g.leave = some .ordinary ∧ (g.minGreenDone = true ∨ g.timer ≤ 1)
  · exact .inr (by rw [firstPass_of_green_left h hleft])
  · rcases hl : g.leave with _ | _ | _
    · exact .inl (by rw [firstPass_of_green h hl]; exact h)
    · simp only [hl, reduceCtorEq, Option.some.injEq, true_and, false_or, not_or, not_le] at hleft
      exact .inl (by rw [firstPass_of_green_held h hl (by simpa using hleft.1) hleft.2]; exact h)
    · exact absurd (.inl hl) hleft

/-- R4 (1), R10: the first pass gives no group right-of-way. -/
theorem firstPass_rightOfWay (h : (firstPass r mode g).phase.rightOfWay = true) : g.phase.rightOfWay = true := by
  cases hp : g.phase with
  | off => rw [firstPass_of_off hp, hp] at h; exact h
  | red => rw [firstPass_of_red hp, hp] at h; exact h
  | flashing => rw [firstPass_of_flashing hp, hp] at h; exact h
  | prep | green | clearance => rfl

theorem firstPass_off (h : g.phase = .off) : (firstPass r mode g).phase = .off := by
  rw [firstPass_of_off h]
  exact h

/-- A group still in PREP was in PREP, and has counted one tenth. -/
theorem firstPass_prep (h : (firstPass r mode g).phase = .prep) :
    g.phase = .prep ∧ 1 < g.timer ∧ (firstPass r mode g).timer = g.timer - 1 := by
  cases hp : g.phase with
  | off => rw [firstPass_of_off hp, hp] at h; exact nomatch h
  | red => rw [firstPass_of_red hp, hp] at h; exact nomatch h
  | flashing => rw [firstPass_of_flashing hp, hp] at h; exact nomatch h
  | green => rcases firstPass_phase_of_green (r := r) (mode := mode) hp with e | e <;> rw [e] at h <;> exact nomatch h
  | clearance =>
    rw [firstPass_of_clearance hp] at h
    dsimp only at h
    split at h <;> exact nomatch h
  | prep =>
    by_cases ht : g.timer ≤ 1
    · rw [firstPass_of_prep_end hp ht] at h
      exact nomatch h
    · exact ⟨rfl, by omega, by rw [firstPass_of_prep hp (by omega)]⟩

/-- A group found in GREEN after the first pass was there, or ended its PREP. -/
theorem firstPass_green (h : (firstPass r mode g).phase = .green) : g.phase = .green ∨ g.phase = .prep ∧ g.timer ≤ 1 := by
  cases hp : g.phase with
  | off => rw [firstPass_of_off hp, hp] at h; exact nomatch h
  | red => rw [firstPass_of_red hp, hp] at h; exact nomatch h
  | flashing => rw [firstPass_of_flashing hp, hp] at h; exact nomatch h
  | green => exact .inl rfl
  | clearance =>
    rw [firstPass_of_clearance hp] at h
    dsimp only at h
    split at h <;> exact nomatch h
  | prep =>
    by_cases ht : g.timer ≤ 1
    · exact .inr ⟨rfl, ht⟩
    · rw [firstPass_of_prep hp (by omega), hp] at h
      exact nomatch h

/-- R6: outside GREEN the green-end elapsed count only rises. -/
theorem firstPass_e_le (h : g.phase ≠ .green) : min (g.e + 1) 255 ≤ (firstPass r mode g).e := by
  cases hp : g.phase with
  | off => rw [firstPass_of_off hp]; exact Nat.min_le_right _ _
  | red => rw [firstPass_of_red hp]
  | flashing => rw [firstPass_of_flashing hp]
  | green => exact absurd hp h
  | clearance => rw [firstPass_of_clearance hp]
  | prep =>
    by_cases ht : g.timer ≤ 1
    · rw [firstPass_of_prep_end hp ht]
    · rw [firstPass_of_prep hp (by omega)]

end FirstPass

/-! ## The update of a tenth mark -/

section Update

variable {img : Image} {mode : Mode} {ge : Vector GroupState 16}

theorem inter_ne {a g : Group} {i : Nat} (h : img.inter a g = some i) : a ≠ g := fun e => by simp [Image.inter, e] at h

theorem inter_of_conflicts {a g : Group} (h : img.conflicts a g = true) : ∃ i, img.inter a g = some i :=
  Option.isSome_iff_exists.mp h

/-- R9, R10: a gate opens only while every conflicting group is in RED or OFF. -/
theorem tryGate_gate (g : Group) (h : GateOk img ge) : GateOk img (tryGate img mode ge g) := by
  obtain ⟨hsym, hpair⟩ := h
  rcases tryGate_cases img mode ge g with e | ⟨-, -, -, hopen, e⟩
  · rw [e]
    exact ⟨hsym, hpair⟩
  · rw [gateOpen_iff] at hopen
    have closed {a : Group} (hc : img.conflicts a g = true) : ge[a].phase.rightOfWay = false ∧ g ≠ a := by
      obtain ⟨i, hi⟩ := inter_of_conflicts hc
      refine ⟨?_, (inter_ne hi).symm⟩
      rcases (hopen a i hi).1 with h | h <;> rw [h] <;> rfl
    rw [e]
    refine ⟨hsym, fun a b hab ⟨ha, hb⟩ => ?_⟩
    by_cases hbg : b = g
    · subst hbg
      obtain ⟨hclosed, hne⟩ := closed hab
      rw [put_get, if_neg hne, hclosed] at ha
      exact nomatch ha
    · rw [put_get, if_neg (Ne.symm hbg)] at hb
      by_cases hag : a = g
      · subst hag
        rw [(closed (hsym _ _ hab)).1] at hb
        exact nomatch hb
      · rw [put_get, if_neg (Ne.symm hag)] at ha
        exact hpair a b hab ⟨ha, hb⟩

theorem tryGate_e (g a : Group) : (tryGate img mode ge g)[a].e = ge[a].e := by
  rcases tryGate_cases img mode ge g with e | ⟨-, -, -, -, e⟩ <;> rw [e]
  rw [put_get]
  split
  next h => subst h; exact (passGate_cases _ _).2.2.1
  next => rfl

/-- R9, R11: the PREP that an opened gate begins ends after every intergreen toward the group. -/
theorem tryGate_intergreens (g : Group) (h : IntergreensOk img ge) : IntergreensOk img (tryGate img mode ge g) := by
  obtain ⟨hoff, hinter⟩ := h
  refine ⟨fun b hb => ?_, fun a b i hi => ⟨(hinter a b i hi).1, fun hp => ?_⟩⟩
  · rcases tryGate_cases img mode ge g with e | ⟨-, hred, -, -, e⟩ <;> rw [e]
    · exact hoff b hb
    · rw [put_get]
      split
      next heq => subst heq; rw [hoff _ hb] at hred; exact nomatch hred
      next => exact hoff b hb
  · rw [tryGate_e]
    rcases tryGate_cases img mode ge g with e | ⟨-, -, -, hopen, e⟩ <;> rw [e] at hp ⊢
    · exact (hinter a b i hi).2 hp
    · rw [put_get] at hp ⊢
      split at hp
      next heq =>
        subst heq
        rw [if_pos rfl]
        rw [gateOpen_iff] at hopen
        rcases (passGate_cases img.groups[g] ge[g]).2.2.2 with ⟨-, -, ht⟩ | ⟨-, hgreen, -⟩
        · rw [ht]
          have := (hopen a i hi).2
          omega
        · rw [hgreen] at hp
          exact nomatch hp
      next heq =>
        rw [if_neg heq]
        exact (hinter a b i hi).2 hp

theorem tryGates_keep {P : Vector GroupState 16 → Prop} (h : ∀ ge g, P ge → P (tryGate img mode ge g)) :
    ∀ (l : List Group) (ge : Vector GroupState 16), P ge → P (l.foldl (tryGate img mode) ge)
  | [], _, hp => hp
  | g :: l, ge, hp => tryGates_keep h l _ (h ge g hp)

theorem secondPass_keeps {P : Vector GroupState 16 → Prop} (h : ∀ ge g, P ge → P (tryGate img mode ge g)) (hp : P ge) :
    P (secondPass img mode ge) := tryGates_keep h _ ge hp

/-- The groups after the first pass. -/
def firstPasses (img : Image) (mode : Mode) (ge : Vector GroupState 16) : Vector GroupState 16 :=
  tab 16 fun g => firstPass img.groups[g] mode ge[g]

theorem firstPasses_get (g : Group) : (firstPasses img mode ge)[g] = firstPass img.groups[g] mode ge[g] :=
  groupUpdate_first img mode ge g

theorem firstPasses_gate (h : GateOk img ge) : GateOk img (firstPasses img mode ge) := by
  refine ⟨h.1, fun a g hc ⟨ha, hg⟩ => h.2 a g hc ⟨?_, ?_⟩⟩
  · rw [firstPasses_get] at ha
    exact firstPass_rightOfWay ha
  · rw [firstPasses_get] at hg
    exact firstPass_rightOfWay hg

/-- R10: no group that conflicts with one in right-of-way is in GREEN. -/
theorem GateOk.not_green (h : GateOk img ge) {a g : Group} {i : Nat} (hi : img.inter a g = some i)
    (hg : ge[g].phase.rightOfWay = true) : ge[a].phase ≠ .green := fun ha =>
  h.2 a g (conflicts_of_inter hi) ⟨by rw [ha]; rfl, hg⟩

/-- The tenth that a PREP counts down is counted up toward it, or the count toward it has passed every intergreen. -/
theorem firstPasses_intergreens (hgate : GateOk img ge) (h : IntergreensOk img ge) : IntergreensOk img (firstPasses img mode ge) := by
  obtain ⟨hoff, hinter⟩ := h
  refine ⟨fun g hg => ?_, fun a g i hi => ⟨(hinter a g i hi).1, fun hp => ?_⟩⟩
  · rw [firstPasses_get]
    exact firstPass_off (hoff g hg)
  · rw [firstPasses_get] at hp ⊢
    rw [firstPasses_get]
    obtain ⟨hprep, ht, htimer⟩ := firstPass_prep hp
    obtain ⟨h200, hsum⟩ := hinter a g i hi
    have he := firstPass_e_le (r := img.groups[a]) (mode := mode) (hgate.not_green hi (by rw [hprep]; rfl))
    have := hsum hprep
    rw [htimer]
    omega

theorem groupUpdate_gate (h : GateOk img ge) : GateOk img (groupUpdate img mode ge) :=
  secondPass_keeps (fun _ g => tryGate_gate g) (firstPasses_gate h)

theorem groupUpdate_intergreens (hgate : GateOk img ge) (h : IntergreensOk img ge) : IntergreensOk img (groupUpdate img mode ge) :=
  secondPass_keeps (fun _ g => tryGate_intergreens g) (firstPasses_intergreens hgate h)

theorem groupUpdate_e (g : Group) : (groupUpdate img mode ge)[g].e = (firstPass img.groups[g] mode ge[g]).e := by
  rw [← firstPasses_get (img := img) (mode := mode) (ge := ge)]
  exact secondPass_keeps (P := fun v => v[g].e = (firstPasses img mode ge)[g].e) (fun _ b h => (tryGate_e b g).trans h) rfl

/-! ## One group replaced -/

/-- A group that is given no right-of-way it did not hold. -/
theorem put_gate {g : Group} {x : GroupState} (h : GateOk img ge) (hx : x.phase.rightOfWay = true → ge[g].phase.rightOfWay = true) :
    GateOk img (put ge g x) := by
  have before {a : Group} (ha : (put ge g x)[a].phase.rightOfWay = true) : ge[a].phase.rightOfWay = true := by
    rw [put_get] at ha
    split at ha
    next heq => exact heq ▸ hx ha
    next => exact ha
  exact ⟨h.1, fun a b hc ⟨ha, hb⟩ => h.2 a b hc ⟨before ha, before hb⟩⟩

/-- A group that does not go into PREP, and gives up its E only from GREEN. -/
theorem put_intergreens {g : Group} {x : GroupState} (hgate : GateOk img ge) (h : IntergreensOk img ge) (hprep : x.phase ≠ .prep)
    (hoff : ge[g].phase ≠ .off) (he : x.e = ge[g].e ∨ ge[g].phase = .green) : IntergreensOk img (put ge g x) := by
  obtain ⟨hdisabled, hinter⟩ := h
  refine ⟨fun a ha => ?_, fun a b i hi => ⟨(hinter a b i hi).1, fun hp => ?_⟩⟩
  · rw [put_get]
    split
    next heq => exact absurd (heq ▸ hdisabled a ha) hoff
    next => exact hdisabled a ha
  · rw [put_get] at hp
    split at hp
    next => exact absurd hp hprep
    next hb =>
      have hsum := (hinter a b i hi).2 hp
      rw [put_get, put_get, if_neg hb]
      split
      next ha =>
        subst ha
        rcases he with he | he
        · rw [he]
          exact hsum
        · exact absurd he (hgate.not_green hi (by rw [hp]; rfl))
      next => exact hsum

/-! ## The groups at rest -/

/-- A mode's entry brings each enabled group to a state without right-of-way, with its E, and moves no other. -/
theorem rested_keeps {ge' : Vector GroupState 16} (h : ∀ g : Group,
      img.groups[g].enabled = true ∧ ge'[g].phase.rightOfWay = false ∧ ge'[g].e = ge[g].e ∨ ge'[g].motion = ge[g].motion) :
    (GateOk img ge → GateOk img ge') ∧ (IntergreensOk img ge → IntergreensOk img ge') := by
  have moved {g : Group} (hm : ge'[g].motion = ge[g].motion) :
      ge'[g].phase = ge[g].phase ∧ ge'[g].timer = ge[g].timer ∧ ge'[g].e = ge[g].e := by
    simpa [GroupState.motion, -Fin.getElem_fin] using hm
  have way {g : Group} (hg : ge'[g].phase.rightOfWay = true) :
      ge'[g].phase = ge[g].phase ∧ ge'[g].timer = ge[g].timer := by
    rcases h g with ⟨-, hn, -⟩ | hm
    · rw [hn] at hg
      exact nomatch hg
    · exact ⟨(moved hm).1, (moved hm).2.1⟩
  have he (g : Group) : ge'[g].e = ge[g].e := (h g).elim (fun k => k.2.2) fun k => (moved k).2.2
  refine ⟨fun hgate => ⟨hgate.1, fun a b hc ⟨ha, hb⟩ => hgate.2 a b hc ⟨(way ha).1 ▸ ha, (way hb).1 ▸ hb⟩⟩, fun hi => ⟨fun g hg => ?_,
    fun a g i hai => ⟨(hi.2 a g i hai).1, fun hp => ?_⟩⟩⟩
  · rcases h g with ⟨hon, -⟩ | hm
    · rw [hon] at hg
      exact nomatch hg
    · exact (moved hm).1.trans (hi.1 g hg)
  · obtain ⟨hphase, htimer⟩ := way (g := g) (by rw [hp]; rfl)
    rw [he, htimer]
    exact (hi.2 a g i hai).2 (hphase ▸ hp)

end Update

/-! ## The operations that move groups -/

theorem GroupsKept.of_mode {s t : State} (h : ModeLaw s → GroupsKept s t) : GroupsKept s t :=
  ⟨fun hm => (h hm).1 hm, fun hm => (h hm).2 hm⟩

theorem GroupsKept.of_groups {s t : State} {img : Image} (hi : s.cf.image = some img) (hc : t.cf.image = some img)
    (hm : ModeLaw s → ModeLaw t) (hgate : GateOk img s.ge → GateOk img t.ge)
    (hinter : GateOk img s.ge → IntergreensOk img s.ge → IntergreensOk img t.ge) : GroupsKept s t := by
  refine ⟨fun hl hg => ⟨hm hl, (gateLaw_some hc).mpr (hgate ((gateLaw_some hi).mp hg))⟩, fun _ hg hl => ?_⟩
  rw [gateLaw_some hi] at hg
  rw [intergreenLaw_some hi] at hl
  exact (intergreenLaw_some hc).mpr (hinter hg hl)

/-- Every group OFF: what power-on, a reset and RELOAD leave. -/
theorem groupsKept_of_off {s t : State} (hc : t.cf.image = none) (hm : t.os.mode = .loading ∨ t.os.mode = .noPlanFlash)
    (hg : ∀ g : Group, t.ge[g].phase = .off) : GroupsKept s t :=
  ⟨fun _ _ => ⟨⟨fun _ => hm, fun _ => hc⟩, (gateLaw_none hc).mpr hg⟩, fun _ _ _ => intergreenLaw_none hc⟩

theorem installGroups_kept {s : State} {img : Image} {ge : Vector GroupState 16} (hi : s.cf.image = some img)
    (hgate : GateOk img s.ge → GateOk img ge) (hinter : GateOk img s.ge → IntergreensOk img s.ge → IntergreensOk img ge) :
    GroupsKept s (installGroups ge s) := .of_groups hi hi id hgate hinter

/-- An entry that brings the enabled groups to rest and leaves the others. -/
theorem entered_kept {s t : State} (ho : Operating s.os.mode) (ht : Operating t.os.mode) (hc : t.cf.image = s.cf.image)
    (h : ∀ g : Group, groupEnabled s g = true ∧ t.ge[g].phase.rightOfWay = false ∧ t.ge[g].e = s.ge[g].e ∨
      t.ge[g].motion = s.ge[g].motion) : GroupsKept s t :=
  .of_mode fun hm => by
    obtain ⟨img, hi⟩ := hm.image ho
    obtain ⟨hgate, hinter⟩ := rested_keeps (img := img) fun g => (h g).imp_left fun ⟨hon, hrest⟩ =>
      ⟨(groupEnabled_eq hi g).symm.trans hon, hrest⟩
    exact .of_groups hi (hc.trans hi) (fun k => k.of_operating ho ht hc) hgate fun _ => hinter

theorem enterFlash_groups {mode : Mode} (cause : AlertCause) {s : State} (ho : Operating s.os.mode) (ht : Operating mode) :
    GroupsKept s (enterFlash mode cause s) :=
  .of_mode fun hm => by
    obtain ⟨img, hi⟩ := hm.image ho
    refine entered_kept ho (by rwa [enterFlash_os]) ((enterFlash_only mode cause s).cf (by simp) ▸ rfl) fun g => ?_
    have he : (leaveRun s).ge[g].e = s.ge[g].e := ((leaveRun_motion s).get g).2.2
    rw [enterFlash_eq_offer, offer_ge, flashEntered_ge hi, groupEnabled_eq hi]
    split
    next hon => exact .inl ⟨hon, rfl, he⟩
    next => exact .inr (leaveRun_motion s g)

theorem groupsStartRed_ge (s : State) (g : Group) : (groupsStartRed s).ge[g] = if groupEnabled s g then
    { s.ge[g] with phase := .red, timer := 0, minGreenDone := false, entry := false, leave := none } else s.ge[g] :=
  mapGroups_ge _ s g

/-- R17. -/
theorem enterStartRed_ge (s : State) (g : Group) : (enterStartRed s).ge[g] = if groupEnabled s g then
    { s.ge[g] with phase := .red, timer := 0, minGreenDone := false, entry := false, leave := none } else s.ge[g] :=
  groupsStartRed_ge (setSources .sequencer (s.withOs _)) g

theorem enterStartRed_groups {s : State} (ho : Operating s.os.mode) : GroupsKept s (enterStartRed s) := by
  refine entered_kept ho operating_startRed rfl fun g => ?_
  rw [enterStartRed_ge]
  split
  next hon => exact .inl ⟨hon, rfl, rfl⟩
  next => exact .inr rfl

theorem enterRun_os (s : State) : (enterRun s).os = { s.os with mode := .run, timer := 0 } :=
  (startRun_only _ (s.withOs { s.os with mode := .run, timer := 0 })).os (by simp)

theorem enterRun_groups {s : State} (ho : Operating s.os.mode) : GroupsKept s (enterRun s) := by
  refine SameMotion.kept_operating (SameMotion.trans (.of_ge rfl) (startRun_motion _ _)) ((enterRun_only s).cf (by simp) ▸ rfl) ho ?_
  rw [show (enterRun s).os.mode = .run from congrArg OsState.mode (enterRun_os s)]
  exact operating_run

theorem modeAfterTimer_groups (s : State) : GroupsKept s (modeAfterTimer s) := by
  unfold modeAfterTimer
  split
  next h => exact enterStartRed_groups (h ▸ operating_startFlash)
  next h => exact enterRun_groups (h ▸ operating_startRed)
  next => exact .refl s

/-- The Output Supervisor's own fields other than the mode. -/
theorem withOs_groups {s : State} {o : OsState} (h : o.mode = s.os.mode) : GroupsKept s (s.withOs o) :=
  SameMotion.kept (.of_ge rfl) rfl h

theorem modeTimerWork_groups (began : Mode) (s : State) : GroupsKept s (modeTimerWork began s) := by
  have counted : GroupsKept s (s.withOs { s.os with timer := s.os.timer - 1 }) := withOs_groups rfl
  unfold modeTimerWork
  dsimp only
  split
  · split
    · exact counted.trans (modeAfterTimer_groups _)
    · exact counted
  · exact .refl s

theorem latchFault_groups (cause : FaultCause) (further : Nat) {s : State} (h : s.os.mode.monitored = true) :
    GroupsKept s (latchFault cause further s) := by
  unfold latchFault enterFaultFlash
  refine (withOs_groups ?_).trans (enterFlash_groups .fault ?_ operating_faultFlash)
  · rfl
  · exact operating_of_monitored h

theorem monitorWork_groups (s : State) : GroupsKept s (monitorWork s) := by
  rcases monitorWork_cases s with h | ⟨img, -, hm, h | ⟨c, further, h⟩⟩ <;> rw [h]
  · exact .refl s
  · exact withOs_groups rfl
  · exact (withOs_groups rfl).trans (latchFault_groups c further (s := s.withOs (countedOs img s)) hm)

theorem supervisorWork_groups (began : Mode) (s : State) : GroupsKept s (supervisorWork began s) :=
  supervisorWork_keeps (P := GroupsKept s) (fun u h => h.trans (monitorWork_groups u))
    (fun u h => h.trans (modeTimerWork_groups began u)) s (.refl s)

theorem reportHalt_groups {s : State} (h : haltFinished s = true) : GroupsKept s (reportHalt s) := by
  have hm : s.os.mode = .flashEntry := haltFinished_mode h
  refine GroupsKept.trans (t := s.withSq { s.sq with current := none }) (.of_only (withSq_only s _) (by simp) (by simp) (by simp)) ?_
  exact enterFlash_groups .manual (show Operating s.os.mode from hm ▸ operating_flashEntry) operating_manualFlash

theorem sqWork_groups (s : State) : GroupsKept s (sqWork s) := by
  have read (u : State) (x : SqState) : SameMotion u (readGreens (u.withSq x)) := .of_ge rfl
  unfold sqWork
  split
  · have steps := sqSteps_only s
    have motion := sqSteps_motion s
    unfold sqEvaluation
    generalize runSelection (testTermination (takeOrders (followChange (countSqTimers s)))) = u at steps motion ⊢
    have evaluated : GroupsKept s (readGreens (u.withSq { u.sq with yieldWasOpen := u.ck.report.yieldOpen })) :=
      (motion.trans (read u _)).kept (congrArg CfState.image (steps.cf (by simp))) (congrArg OsState.mode (steps.os (by simp)))
    dsimp only
    split
    next hf => exact evaluated.trans (reportHalt_groups hf)
    next => exact evaluated
  · exact .refl s

/-! ## Loads -/

theorem LoadGoesOn.groups {s t : State} (h : LoadGoesOn s t) : GroupsKept s t := by
  obtain ⟨hm, cf, hi, -, rfl | rfl⟩ := h
  · exact SameMotion.kept (.of_ge rfl) hi rfl
  · refine .of_mode fun hmode => ?_
    have hn : s.cf.image = none := hmode.mpr (.inl hm)
    exact ⟨fun _ hg => ⟨⟨fun _ => .inr rfl, fun _ => hi.trans hn⟩, (gateLaw_none (hi.trans hn)).mpr ((gateLaw_none hn).mp hg)⟩,
      fun _ _ _ => intergreenLaw_none (hi.trans hn)⟩

theorem symmetric_of_symmetryOk {m : Image} (h : SymmetryOk m) : m.Symmetric := fun a g hc => by
  have hne : a ≠ g := fun e => by simp [Image.conflicts, Image.inter, e] at hc
  have := h a g hne
  simp only [Image.conflicts, Image.inter, if_neg hne, if_neg (Ne.symm hne)] at hc ⊢
  exact Option.isSome_iff_ne_none.mpr (this (Option.isSome_iff_ne_none.mp hc))

theorem inter_eq_some {m : Image} {a g : Group} {i : Nat} (h : m.inter a g = some i) : m.intergreen[a][g] = some i := by
  unfold Image.inter at h
  split at h
  · exact nomatch h
  · exact h

theorem completeLoad_phase (m : Image) (n : Nat) (s : State) (g : Group) :
    (completeLoad m n s).ge[g].phase = if m.groups[g].enabled then .flashing else s.ge[g].phase := by
  rw [completeLoad_eq, enterStartFlash_ge]
  show (if m.groups[g].enabled then _ else s.ge[g]).phase = _
  split <;> rfl

/-- R16: a load ends with every enabled group FLASHING and every other OFF, under an image that passes its checks. -/
theorem LoadTaken.groups {s t : State} (h : LoadTaken s t) : GroupsKept s t := by
  obtain ⟨hm, raw, position, hc, ht⟩ := h
  obtain ⟨-, hsym, -⟩ := structuralCause_none hc
  obtain ⟨-, -, -, -, -, -, -, -, -, -, h200, -⟩ := timingInRange_clampImage raw
  have himage : t.cf.image = some (clampImage raw) := by rw [ht]; rfl
  have hmode : t.os.mode = .startFlash := by rw [ht]; rfl
  have hphase (g : Group) : t.ge[g].phase = if (clampImage raw).groups[g].enabled then .flashing else s.ge[g].phase := by
    rw [ht]
    exact completeLoad_phase _ _ _ g
  generalize clampImage raw = m at hsym h200 himage hphase
  have rest (hl : ModeLaw s) (hg : GateLaw s) (g : Group) :
      t.ge[g].phase = .flashing ∨ t.ge[g].phase = .off ∧ s.ge[g].phase = .off := by
    have off : s.ge[g].phase = .off := (gateLaw_none (hl.mpr (.inl hm))).mp hg g
    rw [hphase]
    split
    · exact .inl rfl
    · exact .inr ⟨off, off⟩
  refine ⟨fun hl hg => ⟨⟨fun h => ?_, fun h => ?_⟩, (gateLaw_some himage).mpr ⟨symmetric_of_symmetryOk hsym, fun a g _ h => ?_⟩⟩,
    fun hl hg _ => (intergreenLaw_some himage).mpr ⟨fun g hoff => ?_, fun a g i hi => ⟨h200 a g i (inter_eq_some hi), fun hp => ?_⟩⟩⟩
  · rw [himage] at h
    exact nomatch h
  · rw [hmode] at h
    exact h.elim (nomatch ·) (nomatch ·)
  · obtain ⟨ha, -⟩ := h
    rcases rest hl hg a with h | ⟨h, -⟩ <;> rw [h] at ha <;> exact nomatch ha
  · rw [hphase, if_neg (by rw [hoff]; decide)]
    exact (gateLaw_none (hl.mpr (.inl hm))).mp hg g
  · rcases rest hl hg g with h | ⟨h, -⟩ <;> rw [h] at hp <;> exact nomatch hp

/-! ## The obligations -/

theorem whenDue_groups {c : Bool} {s t : State} (h : c = true → GroupsKept s t) : GroupsKept s (whenDue c t s) := by
  rcases whenDue_cases c t s with ⟨hc, e⟩ | e <;> rw [e]
  · exact h hc
  · exact .refl s

/-- An event of the Stage Sequencer moves no group. -/
theorem groups_sequencer {s t u : State} (h : SameMotion s u) (ho : Only [.ge, .sq] s u) (ht : t = readGreens u) : GroupsKept s t := by
  subst ht
  exact (h.trans (.of_ge rfl)).kept (congrArg CfState.image (ho.cf (by simp))) (congrArg OsState.mode (ho.os (by simp)))

theorem reset_off (s : State) (g : Group) : (resetStation s).ge[g].phase = .off := by
  rw [show (resetStation s).ge[g] = GroupState.reset from tab_get _ g]
  rfl

theorem reload_off (s : State) (g : Group) : (reloadStation s).ge[g].phase = .off := by
  rw [show (reloadStation s).ge[g] = GroupState.reset from tab_get (fun _ : Group => GroupState.reset) g]
  rfl

theorem groups_event {c : Instr} {s t : State} (ht : touches [.cf, .os, .ge] (Instr.reaches c) = true)
    (hc : Instr.isEvent c = true) (hx : exec c s = .next t) : GroupsKept s t := by
  have latched {u : State} (x : SqState) : SameMotion u (runSelection (testLatch (u.withSq x))) :=
    (SameMotion.of_only (((withSq_only u x).trans (testLatch_only _))) (by simp)).trans (runSelection_motion _)
  have latchedOnly {u : State} (x : SqState) : Only [.ge, .sq] u (runSelection (testLatch (u.withSq x))) :=
    (((withSq_only u x).trans (testLatch_only _)).mono (by simp)).trans (runSelection_only _)
  cases c with
  | powerOn => injection hx with hx; exact hx ▸ groupsKept_of_off rfl (.inl rfl) (reset_off s)
  | resetPin => injection hx with hx; exact hx ▸ groupsKept_of_off rfl (.inl rfl) (reset_off s)
  | headerRead bs => exact (headerRead_cases hx).elim (fun e => e ▸ .refl _) LoadGoesOn.groups
  | memoryNoAcknowledge bs => exact (memoryNoAcknowledge_cases hx).elim (fun e => e ▸ .refl _) LoadGoesOn.groups
  | loadEnd body =>
    exact (loadEnd_cases hx).elim (fun e => e ▸ .refl _) fun h => h.elim LoadGoesOn.groups LoadTaken.groups
  | prepEnd g =>
    injection hx with hx
    rw [← hx]
    split
    · exact .refl s
    next img hi =>
      refine whenDue_groups fun hdue => ?_
      simp only [Bool.and_eq_true, beq_iff_eq] at hdue
      obtain ⟨hp, -⟩ := hdue
      unfold installGroup
      rw [discardRequests_endPrep]
      exact installGroups_kept hi (fun h => put_gate h fun _ => by rw [hp]; rfl)
        fun hg h => put_intergreens hg h (by simp) (by rw [hp]; simp) (.inl rfl)
  | minGreenEnd g =>
    injection hx with hx
    rw [← hx]
    split
    · exact .refl s
    next img hi =>
      refine whenDue_groups fun hdue => ?_
      simp only [Bool.and_eq_true, beq_iff_eq] at hdue
      obtain ⟨⟨hp, -⟩, -⟩ := hdue
      unfold installGroup
      rw [discardRequests_endMinGreen _ hp]
      exact installGroups_kept hi (fun h => put_gate h fun _ => by rw [hp]; rfl)
        fun hg h => put_intergreens hg h (by split <;> simp) (by rw [hp]; simp) (.inr hp)
  | clearanceEnd g =>
    injection hx with hx
    rw [← hx]
    split
    · exact .refl s
    next img hi =>
      refine whenDue_groups fun hdue => ?_
      simp only [Bool.and_eq_true, beq_iff_eq] at hdue
      obtain ⟨hp, -⟩ := hdue
      rw [discardRequests_endClearance]
      exact installGroups_kept hi (fun h => tryGate_gate g (put_gate h (nomatch ·)))
        fun hg h => tryGate_intergreens g (put_intergreens hg h (by simp [clearedToRed]) (by rw [hp]; simp) (.inl rfl))
  | passageTimerExpiry =>
    injection hx with hx
    rw [← hx]
    split
    · exact .refl s
    · exact whenDue_groups fun _ => groups_sequencer (latched _) (latchedOnly _) rfl
  | maxTimerExpiry =>
    injection hx with hx
    rw [← hx]
    split
    · exact .refl s
    · exact whenDue_groups fun _ => groups_sequencer (latched _) (latchedOnly _) rfl
  | holdExtensionExpiry =>
    injection hx with hx
    rw [← hx]
    exact whenDue_groups fun _ => groups_sequencer (SameMotion.trans (.of_ge rfl) (testYield_motion true (s.withSq _)))
      (((withSq_only s _).mono (by simp)).trans (testYield_only _ _)) rfl
  | stageChangeComplete =>
    injection hx with hx
    rw [← hx]
    split
    · exact .refl s
    · exact whenDue_groups fun _ => groups_sequencer (completeChange_motion _ s) (completeChange_only _ s) rfl
  | peCommand target truncating =>
    injection hx with hx
    rw [← hx]
    exact whenDue_groups fun _ => groups_sequencer (takeCommand_motion _ _ s) (takeCommand_only _ _ s) rfl
  | peCommandRelease downgrade =>
    have dropped : GroupsKept s (dropCommand s) :=
      (dropCommand_motion s).kept (by rw [(dropCommand_only s).cf (by simp)]) (by rw [(dropCommand_only s).os (by simp)])
    injection hx with hx
    rw [← hx]
    split
    · exact .refl s
    · split
      · refine whenDue_groups fun _ => ((dropTruncation_motion s).trans (.of_ge rfl)).kept rfl rfl
      · exact dropped
  | halt =>
    injection hx with hx
    rw [← hx]
    refine whenDue_groups fun _ => ?_
    have taken : GroupsKept s (readGreens (takeHalt s)) := groups_sequencer (takeHalt_motion s) (takeHalt_only s) rfl
    dsimp only
    split
    next hf => exact taken.trans (reportHalt_groups hf)
    next => exact taken
  | haltDone => injection hx with hx; exact hx ▸ whenDue_groups reportHalt_groups
  | modeTimerExpiry =>
    injection hx with hx
    rw [← hx]
    exact whenDue_groups fun _ => (withOs_groups rfl).trans (modeAfterTimer_groups (s.withOs { s.os with timer := 0 }))
  | conflict a b =>
    injection hx with hx
    rw [← hx]
    split
    · exact .refl s
    · refine whenDue_groups fun hdue => latchFault_groups _ _ ?_
      simp only [Bool.and_eq_true] at hdue
      exact hdue.1.1.1
  | mismatch ch l =>
    injection hx with hx
    rw [← hx]
    refine whenDue_groups fun hdue => latchFault_groups _ _ ?_
    simp only [Bool.and_eq_true] at hdue
    exact hdue.1.1
  | _ => first | exact (Bool.false_ne_true ht).elim | exact (Bool.false_ne_true hc).elim

/-- A command that is accepted outside LOADING. -/
theorem statusOutsideLoading_of_accepted {s : State} {m : MpCommand} (h : mpStatus s m = .accepted) :
    statusOutsideLoading s m = .accepted := by
  unfold mpStatus at h
  split at h
  · exact nomatch h
  · exact h

theorem restart_mode {s : State} (h : mpStatus s .restart = .accepted) : s.os.mode = .manualFlash ∨ s.os.mode = .faultFlash := by
  have hr : restartStatus s.os.mode = .accepted := statusOutsideLoading_of_accepted h
  unfold restartStatus at hr
  split at hr
  · exact .inl ‹_›
  · exact .inr ‹_›
  · exact nomatch hr

theorem manualFlashOff_mode {s : State} (h : mpStatus s .manualFlashOff = .accepted) : s.os.mode = .manualFlash := by
  have hr : flashOffStatus s.os.mode = .accepted := statusOutsideLoading_of_accepted h
  unfold flashOffStatus at hr
  split at hr
  · assumption
  · exact nomatch hr

theorem groups_command {m : MpCommand} (s : State) (ht : touches [.cf, .os, .ge] m.blocks = true)
    (ha : mpStatus s m = .accepted) : GroupsKept s (carryOut s m) := by
  cases m with
  | manualFlashOn =>
    show GroupsKept s (manualFlashOnEffect s)
    unfold manualFlashOnEffect
    split
    next hr =>
      exact (enterFlashEntry_motion s).kept_operating ((enterFlashEntry_only s).cf (by simp) ▸ rfl)
        (hr ▸ operating_run) operating_flashEntry
    next => exact .refl s
  | manualFlashOff => exact enterStartRed_groups (manualFlashOff_mode ha ▸ operating_manualFlash)
  | restart =>
    have hm : Operating s.os.mode :=
      (restart_mode ha).elim (fun h => h ▸ operating_manualFlash) fun h => h ▸ operating_faultFlash
    show GroupsKept s (restartStation s)
    unfold restartStation
    have before : GroupsKept s (restartLinks (emptyQueue (restartPe (s.withOs { s.os with fault := none, additional := 0 })))) :=
      SameMotion.kept (.of_ge rfl) rfl rfl
    exact before.trans (enterStartRed_groups hm)
  | reload => exact groupsKept_of_off rfl (.inl rfl) (reload_off s)
  | _ => exact (Bool.false_ne_true ht).elim

theorem groups_work {w : Work} {began : Mode} {s : State} (ht : touches [.cf, .os, .ge] w.blocks = true) (hw : w ≠ .mp) :
    GroupsKept s (doWork began s w) := by
  cases w with
  | mp => exact absurd rfl hw
  | groups =>
    show GroupsKept s (geWork s)
    unfold geWork
    split
    · exact .refl s
    next img hi =>
      split
      · exact installGroups_kept hi groupUpdate_gate groupUpdate_intergreens
      · exact .refl s
  | sequencer => exact sqWork_groups s
  | supervisor => exact supervisorWork_groups began s
  | _ => exact (Bool.false_ne_true ht).elim

theorem gateLaws_read : Reads [.cf, .os, .ge] fun s => ModeLaw s ∧ GateLaw s := fun s t same h =>
  (SameMotion.kept (.of_ge (same .ge (by simp))) (by rw [show t.cf = s.cf from same .cf (by simp)])
    (by rw [show t.os = s.os from same .os (by simp)])).1 h.1 h.2

theorem intergreenLaws_read : Reads [.cf, .os, .ge] fun s => ModeLaw s ∧ GateLaw s ∧ IntergreenLaw s := fun s t same h => by
  have hk : GroupsKept s t := SameMotion.kept (.of_ge (same .ge (by simp))) (by rw [show t.cf = s.cf from same .cf (by simp)])
    (by rw [show t.os = s.os from same .os (by simp)])
  obtain ⟨hm, hg, hi⟩ := h
  obtain ⟨hm', hg'⟩ := hk.1 hm hg
  exact ⟨hm', hg', hk.2 hm hg hi⟩

theorem GroupsKept.both {s t : State} (h : GroupsKept s t) (hs : ModeLaw s ∧ GateLaw s ∧ IntergreenLaw s) :
    ModeLaw t ∧ GateLaw t ∧ IntergreenLaw t := by
  obtain ⟨hm, hg, hi⟩ := hs
  obtain ⟨hm', hg'⟩ := h.1 hm hg
  exact ⟨hm', hg', h.2 hm hg hi⟩

/-- Settles O18: a group gains right-of-way only by its gate, which opens while every conflicting group is in RED or OFF. -/
theorem noConflictingRightOfWay : Obligations.NoConflictingRightOfWay :=
  gateLaws_read.kept (by decide) (fun _ _ _ ht hc h hx => (groups_event ht hc hx).1 h.1 h.2)
    (fun _ s ht ha h => (groups_command s ht ha).1 h.1 h.2) fun _ _ _ ht hw h => (groups_work ht hw).1 h.1 h.2

/-- Settles O19: the gate opens only where the PREP it begins outlasts every intergreen, and from then on each tenth that the PREP
counts down is counted up by the E of every group that conflicts. -/
theorem intergreensElapseBeforeGreen : Obligations.IntergreensElapseBeforeGreen := by
  refine ⟨intergreenLaws_read.kept (by decide) (fun _ _ _ ht hc h hx => (groups_event ht hc hx).both h)
    (fun _ s ht ha h => (groups_command s ht ha).both h) fun _ _ _ ht hw h => (groups_work ht hw).both h, ?_⟩
  intro s img g hi hg hl ge hbefore hgreen a i hai
  rw [gateLaw_some hi] at hg
  rw [intergreenLaw_some hi] at hl
  have he : ge[a].e = (firstPass img.groups[a] s.os.mode s.ge[a]).e := groupUpdate_e a
  obtain ⟨hshut, hopen⟩ := groupUpdate_get img s.os.mode s.ge g
  by_cases hopens : s.os.mode = .run ∧ (firstPass img.groups[g] s.os.mode s.ge[g]).phase = .red ∧
      (firstPass img.groups[g] s.os.mode s.ge[g]).entry = true ∧ GateConditions img
        (tab 16 fun b : Group => if b < g then ge[b] else firstPass img.groups[b] s.os.mode s.ge[b]) g
  · -- The gate opens into GREEN with a prep time of 0: R9's second condition is the claim.
    have hpass := hopen hopens
    obtain ⟨-, -, -, hgate⟩ := hopens
    have hseen := (hgate a i hai).2
    rw [show (tab 16 fun b : Group => if b < g then ge[b] else firstPass img.groups[b] s.os.mode s.ge[b])[a] =
      if a < g then ge[a] else firstPass img.groups[a] s.os.mode s.ge[a] from tab_get _ a] at hseen
    have hprep : img.groups[g].prep = 0 := by
      rcases (passGate_cases img.groups[g] (firstPass img.groups[g] s.os.mode s.ge[g])).2.2.2 with ⟨-, hp, -⟩ | ⟨h0, -⟩
      · rw [show ge[g] = _ from hpass, hp] at hgreen
        exact nomatch hgreen
      · exact h0
    rw [hprep, Nat.zero_add] at hseen
    split at hseen
    · exact hseen
    · rw [he]
      exact hseen
  · -- The group ends its PREP in the first pass: the law gives the claim.
    rw [show ge[g] = _ from hshut hopens] at hgreen
    rcases firstPass_green hgreen with h | ⟨hp, ht⟩
    · exact absurd h hbefore
    · obtain ⟨h200, hsum⟩ := hl.2 a g i hai
      have := hsum hp
      have hle := firstPass_e_le (r := img.groups[a]) (mode := s.os.mode) (hg.not_green hai (by rw [hp]; rfl))
      rw [he]
      omega

end Sys2Proof.Machine


/-!
# The fault latch and the lamps (O55, O20)

A fault is recorded only together with the entry of FAULT FLASH, and that mode is left only by RESTART and RELOAD, which clear the
record.
-/

namespace Sys2Proof.Machine

/-! ## The law of the fault latch -/

theorem FaultLaw.clear {s : State} (h : FaultLaw s) (hm : s.os.mode ≠ .faultFlash) : s.os.fault = none := by
  obtain ⟨hiff, -⟩ := h
  rcases Option.eq_none_or_eq_some s.os.fault with hn | ⟨f, hf⟩
  · exact hn
  · exact absurd (hiff.mp (by rw [hf]; rfl)) hm

theorem faultLaw_of_clear {t : State} (hf : t.os.fault = none) (hm : t.os.mode ≠ .faultFlash) : FaultLaw t :=
  ⟨⟨fun h => by simp [hf] at h, fun h => absurd h hm⟩, fun h => absurd h hm⟩

/-- Outside FAULT FLASH the law says that no fault is recorded, so it passes on with the record. -/
theorem FaultLaw.outside {s t : State} (h : FaultLaw s) (hs : s.os.mode ≠ .faultFlash) (hf : t.os.fault = s.os.fault)
    (ht : t.os.mode ≠ .faultFlash) : FaultLaw t := faultLaw_of_clear (hf.trans (h.clear hs)) ht

theorem FaultLaw.of_same {s t : State} (h : FaultLaw s) (hf : t.os.fault = s.os.fault) (hm : t.os.mode = s.os.mode)
    (hs : t.os.source = s.os.source) (hc : t.cf.image = s.cf.image) : FaultLaw t := by
  have hen (g : Group) : groupEnabled t g = groupEnabled s g := by
    unfold groupEnabled
    rw [hc]
  unfold FaultLaw
  rw [hf, hm, hs]
  simp only [hen]
  exact h

theorem faultLaw_reads : Reads [.os, .cf] FaultLaw := fun s t same h => by
  have hos : t.os = s.os := same .os (by simp)
  exact h.of_same (by rw [hos]) (by rw [hos]) (by rw [hos]) (by rw [show t.cf = s.cf from same .cf (by simp)])

/-- R167: the sources of the lamps in a flash mode. -/
theorem enterFlash_source (mode : Mode) (cause : AlertCause) (s : State) (g : Group) :
    (enterFlash mode cause s).os.source[g] = if groupEnabled s g then .flash else .dark := by
  have hen : groupEnabled ((leaveRun s).withOs { clearCounts (leaveRun s).os with mode := mode, timer := 0 }) g = groupEnabled s g := by
    unfold groupEnabled
    rw [State.withOs_cf, leaveRun_cf]
  rw [enterFlash_eq_offer, offer_os, ← hen]
  exact setSources_source .flash _ g

/-- R174: the latch records the fault and enters FAULT FLASH. -/
theorem latchFault_law (cause : FaultCause) (further : Nat) (s : State) : FaultLaw (latchFault cause further s) := by
  have hm : (latchFault cause further s).os.mode = .faultFlash := enterFlash_os _ _ _
  have hf : (latchFault cause further s).os.fault = some { cause := cause, mode := s.os.mode } := by
    unfold latchFault enterFaultFlash
    rw [enterFlash_fault]
    rfl
  have hc : (latchFault cause further s).cf = s.cf := (latchFault_only cause further s).cf (by simp)
  refine ⟨⟨fun _ => hm, fun _ => by rw [hf]; rfl⟩, fun _ g => ?_⟩
  have hen : groupEnabled (latchFault cause further s) g = groupEnabled s g := by
    unfold groupEnabled
    rw [hc]
  rw [hen]
  exact enterFlash_source .faultFlash .fault (s.withOs _) g

theorem modeAfterTimer_fault {s : State} (h : FaultLaw s) : FaultLaw (modeAfterTimer s) := by
  unfold modeAfterTimer
  split
  next hm => exact h.outside (by rw [hm]; decide) rfl (by rw [enterStartRed_mode]; decide)
  next hm =>
    have hos := enterRun_os s
    exact h.outside (by rw [hm]; decide) (hos ▸ rfl) (by rw [hos]; simp)
  next => exact h

theorem modeTimerWork_fault {began : Mode} {s : State} (h : FaultLaw s) : FaultLaw (modeTimerWork began s) := by
  have counted : FaultLaw (s.withOs { s.os with timer := s.os.timer - 1 }) := h.of_same rfl rfl rfl rfl
  unfold modeTimerWork
  dsimp only
  split
  · split
    · exact modeAfterTimer_fault counted
    · exact counted
  · exact h

theorem monitorWork_fault {s : State} (h : FaultLaw s) : FaultLaw (monitorWork s) := by
  rcases monitorWork_cases s with e | ⟨img, -, -, e | ⟨c, further, e⟩⟩ <;> rw [e]
  · exact h
  · exact h.of_same rfl rfl rfl rfl
  · exact latchFault_law _ _ _

theorem reportHalt_fault {s : State} (h : FaultLaw s) (hf : haltFinished s = true) : FaultLaw (reportHalt s) := by
  have hm : s.os.mode = .flashEntry := haltFinished_mode hf
  refine h.outside (by rw [hm]; decide) (enterFlash_fault _ _ _) ?_
  rw [show (reportHalt s).os.mode = .manualFlash from enterFlash_os _ _ _]
  decide

theorem sqWork_fault {s : State} (h : FaultLaw s) : FaultLaw (sqWork s) := by
  rcases sqWork_cases s with ho | ⟨u, ho, hf, e⟩
  · exact faultLaw_reads.of_only ho rfl h
  · rw [e]
    exact reportHalt_fault (faultLaw_reads.of_only ho rfl h) hf

theorem LoadGoesOn.fault {s t : State} (hl : LoadGoesOn s t) (h : FaultLaw s) : FaultLaw t := by
  obtain ⟨hm, cf, hi, -, rfl | rfl⟩ := hl
  · exact h.of_same rfl rfl rfl hi
  · exact h.outside (by rw [hm]; decide) rfl (by simp)

theorem LoadTaken.fault {s t : State} (hl : LoadTaken s t) (h : FaultLaw s) : FaultLaw t := by
  obtain ⟨hm, raw, position, -, rfl⟩ := hl
  rw [completeLoad_eq]
  refine h.outside (by rw [hm]; decide) (enterStartFlash_fault _) ?_
  rw [enterStartFlash_mode]
  decide

theorem fault_event {c : Instr} {s t : State} (ht : touches [.os, .cf] (Instr.reaches c) = true)
    (hc : Instr.isEvent c = true) (h : FaultLaw s) (hx : exec c s = .next t) : FaultLaw t := by
  cases c with
  | powerOn => injection hx with hx; exact hx ▸ faultLaw_of_clear rfl (by rw [show (resetStation s).os.mode = .loading from rfl]; decide)
  | resetPin => injection hx with hx; exact hx ▸ faultLaw_of_clear rfl (by rw [show (resetStation s).os.mode = .loading from rfl]; decide)
  | headerRead bs => exact (headerRead_cases hx).elim (fun e => e ▸ h) fun hl => hl.fault h
  | memoryNoAcknowledge bs => exact (memoryNoAcknowledge_cases hx).elim (fun e => e ▸ h) fun hl => hl.fault h
  | loadEnd body =>
    exact (loadEnd_cases hx).elim (fun e => e ▸ h) fun hl => hl.elim (fun hg => hg.fault h) fun ht => ht.fault h
  | halt =>
    injection hx with hx
    rw [← hx]
    refine whenDue_keeps (fun _ => ?_) h
    have taken : FaultLaw (readGreens (takeHalt s)) := faultLaw_reads.of_only (readGreens_after (takeHalt_only s)) rfl h
    dsimp only
    split
    next hf => exact reportHalt_fault taken hf
    next => exact taken
  | haltDone => injection hx with hx; exact hx ▸ whenDue_keeps (reportHalt_fault h) h
  | modeTimerExpiry =>
    injection hx with hx
    rw [← hx]
    refine whenDue_keeps (fun _ => modeAfterTimer_fault ?_) h
    exact h.of_same rfl rfl rfl rfl
  | conflict a b =>
    injection hx with hx
    rw [← hx]
    split
    · exact h
    · exact whenDue_keeps (fun _ => latchFault_law _ _ _) h
  | mismatch ch l => injection hx with hx; exact hx ▸ whenDue_keeps (fun _ => latchFault_law _ _ _) h
  | _ => first | exact (Bool.false_ne_true ht).elim | exact (Bool.false_ne_true hc).elim

theorem fault_command {m : MpCommand} {s : State} (ht : touches [.os, .cf] m.blocks = true) (ha : mpStatus s m = .accepted)
    (h : FaultLaw s) : FaultLaw (carryOut s m) := by
  cases m with
  | manualFlashOn =>
    show FaultLaw (manualFlashOnEffect s)
    unfold manualFlashOnEffect
    split
    next hm => exact h.outside (by rw [hm]; decide) (Eq.trans (b := (leaveRun s).os.fault) rfl (by rw [leaveRun_os])) (nomatch ·)
    next => exact h
  | manualFlashOff => exact h.outside (by rw [manualFlashOff_mode ha]; decide) rfl (nomatch ·)
  | restart => exact faultLaw_of_clear rfl (nomatch ·)
  | reload => exact faultLaw_of_clear rfl (nomatch ·)
  | _ => exact (Bool.false_ne_true ht).elim

theorem fault_work {w : Work} {began : Mode} {s : State} (ht : touches [.os, .cf] w.blocks = true) (hw : w ≠ .mp)
    (h : FaultLaw s) : FaultLaw (doWork began s w) := by
  cases w with
  | mp => exact absurd rfl hw
  | sequencer => exact sqWork_fault h
  | supervisor => exact supervisorWork_keeps (P := FaultLaw) (fun _ => monitorWork_fault) (fun _ => modeTimerWork_fault) s h
  | _ => exact (Bool.false_ne_true ht).elim

/-- Settles O55. -/
theorem faultLatchLawHolds : Obligations.FaultLatchLawHolds :=
  faultLaw_reads.kept (by decide) (fun _ _ _ ht hc h hx => fault_event ht hc h hx)
    (fun _ _ ht ha h => fault_command ht ha h) fun _ _ _ ht hw h => fault_work ht hw h

/-! ## The lamps -/

theorem groupLamp_flashing (r : GroupRecord) (l : Lamp) : groupLamp r .flashing l = flashCommand r l := by
  cases r.kind <;> cases l <;> rfl

theorem lampOutput_iff (s : State) (ch : Group) (l : Lamp) : lampOutput s ch l = true ↔
    lampCommand s ch l = .steady ∨ lampCommand s ch l = .flashing (flashPhase s) := by
  unfold lampOutput
  cases lampCommand s ch l with
  | off => simp
  | steady => simp
  | flashing p => simp [eq_comm (a := p)]

/-- Settles O20. -/
theorem lampsFollowStateSourceAndPhase : Obligations.LampsFollowStateSourceAndPhase := by
  refine ⟨fun r l => ⟨?_, ?_, fun hk => ?_, ?_, fun hk => ?_, fun hk => ?_, ?_⟩, fun s ch l => ⟨?_, fun h => ?_, fun h => ?_,
    fun img hi => ⟨fun h => ?_, fun h => ?_⟩, lampOutput_iff s ch l⟩⟩
  · cases r.kind <;> cases l <;> rfl
  · cases r.kind <;> cases l <;> rfl
  · cases l <;> simp [groupLamp, hk]
  · cases r.kind <;> cases l <;> rfl
  · cases l <;> simp [groupLamp, hk]
  · cases l <;> simp [groupLamp, hk]
  · rw [groupLamp_flashing]
    unfold flashCommand
    cases r.flash <;> cases l <;> rfl
  · unfold flashPhase
    split <;> simp_all
  · unfold lampCommand
    rw [h]
  · unfold lampCommand
    rw [h]
  · unfold lampCommand
    rw [h, hi]
  · unfold lampCommand
    rw [h, hi, groupLamp_flashing]

end Sys2Proof.Machine


/-!
# The stopped sequencer and its phase (O27, first part)

In most commands the Stage Sequencer's state changes at most in its call set (`CallsOnly`), or, in RUN, in the messages that wait for
it (`ArrivalsOnly`); its own evaluation moves its phase only through the starts, ends and halts of changes.
-/

namespace Sys2Proof.Machine

/-! ## Calls alone -/

/-- From `s` to `t` the Stage Sequencer changes at most in its call set. -/
def CallsOnly (s t : State) : Prop := t.sq = { s.sq with calls := t.sq.calls }

theorem CallsOnly.of_eq {s t : State} (h : t.sq = s.sq) : CallsOnly s t := by
  unfold CallsOnly
  rw [h]

theorem CallsOnly.of_only {bs : List Block} {s t : State} (h : Only bs s t) (hb : .sq ∉ bs) : CallsOnly s t := .of_eq (h.sq hb)

theorem CallsOnly.trans {s t u : State} (h : CallsOnly s t) (k : CallsOnly t u) : CallsOnly s u := by
  unfold CallsOnly at h k ⊢
  rw [k, h]

theorem installGroups_callsOnly (ge : Vector GroupState 16) (s : State) : CallsOnly s (installGroups ge s) := rfl

theorem writeCall_callsOnly (g : Group) (s : State) : CallsOnly s (writeCall g s) := writeCall_sq g s

theorem writeStageCalls_callsOnly (st : Stage) (s : State) : CallsOnly s (writeStageCalls st s) :=
  (writeStageCalls_foldl st (List.finRange 16) s).2.1

theorem sendCall_callsOnly (r : DetectorRecord) (s : State) : CallsOnly s (sendCall r s) := by
  unfold sendCall
  split
  · split
    · exact writeCall_callsOnly _ s
    · exact .of_eq rfl
  · exact .of_eq rfl

theorem onEdge_callsOnly (r : DetectorRecord) (d : Detector) (s : State) : CallsOnly s (onEdge r d s) := by
  have sent : CallsOnly s (sendCall r (setDet d (onEdgeOf s.du[d]) s)) :=
    CallsOnly.trans (t := setDet d (onEdgeOf s.du[d]) s) (.of_eq rfl) (sendCall_callsOnly r _)
  unfold onEdge
  dsimp only
  split
  · exact sent.trans (.of_only (exitEdge_only d _) (by simp))
  · exact sent

theorem detectorTick_callsOnly (img : Image) (s : State) (d : Detector) : CallsOnly s (detectorTick img s d) := by
  unfold detectorTick
  dsimp only
  split
  · exact .of_eq rfl
  · split
    · split
      · exact .of_eq rfl
      · exact onEdge_callsOnly _ d s
    · exact .of_eq rfl

theorem detectorTicks_callsOnly (img : Image) : ∀ (ds : List Detector) (s : State), CallsOnly s (ds.foldl (detectorTick img) s)
  | [], _ => .of_eq rfl
  | d :: ds, s => (detectorTick_callsOnly img s d).trans (detectorTicks_callsOnly img ds _)

theorem duWork_callsOnly (s : State) : CallsOnly s (duWork s) := by
  unfold duWork
  split
  · exact .of_eq rfl
  · exact detectorTicks_callsOnly _ _ s

theorem plQueueWork_callsOnly (s : State) : CallsOnly s (plQueueWork s) := by
  unfold plQueueWork
  split
  · exact CallsOnly.trans (.of_eq rfl) (writeNoticeCalls _ (setQueue _ s)).2.1
  · exact .of_eq rfl

theorem insertIntoQueue_callsOnly (x : Notice) (s : State) : CallsOnly s (insertIntoQueue x s) := by
  unfold CallsOnly
  rw [insertIntoQueue_sq]
  split
  · exact writeStageCalls_callsOnly x.stage s
  · rfl

theorem takePlatoon_callsOnly (sender serial elapsed duration : Nat) (s : State) :
    CallsOnly s (takePlatoon sender serial elapsed duration s) := by
  unfold takePlatoon
  split
  · exact .of_eq rfl
  · split
    · exact .of_eq rfl
    · dsimp only
      split
      · exact .of_eq rfl
      · split
        · exact .of_eq rfl
        · exact insertIntoQueue_callsOnly _ s

theorem receiveByte_callsOnly (b : Byte) (framingError : Bool) (s : State) : CallsOnly s (receiveByte b framingError s) := by
  refine CallsOnly.trans ?_ (.of_only (receiveByte_after b framingError s) (by simp))
  rcases byteTaken_cases b framingError s with honly | ⟨img, f, u, -, -, -, hu, heq⟩
  · exact .of_only honly (by simp)
  · rw [heq]
    refine (CallsOnly.of_only hu (by simp)).trans ?_
    rcases dispatch_cases img f u with ⟨-, h⟩ | ⟨-, h⟩ | h | ⟨-, h⟩ | h
    · exact h ▸ .of_only (takeBeacon_only _ _ _ u) (by simp)
    · rw [h]
      exact (CallsOnly.of_only ((takeFlashMode_only (num f 1) u).mono (by simp)) (bs := [.nt]) (by simp)).trans
        ((CallsOnly.of_only (purgeSender_only (num f 1) _) (by simp)).trans (.of_only (cancelAlert_only _ _) (by simp)))
    · exact .of_eq (by rw [h])
    · exact h ▸ .of_only (takePreemptAlert_only _ _ _ u) (by simp)
    · exact h ▸ takePlatoon_callsOnly _ _ _ _ u

/-! ## Messages alone -/

/-- From `s` to `t` the Stage Sequencer changes at most in the messages that wait for it. -/
def ArrivalsOnly (s t : State) : Prop := t.sq = { s.sq with arrivals := t.sq.arrivals }

theorem ArrivalsOnly.of_eq {s t : State} (h : t.sq = s.sq) : ArrivalsOnly s t := by
  unfold ArrivalsOnly
  rw [h]

theorem ArrivalsOnly.of_only {bs : List Block} {s t : State} (h : Only bs s t) (hb : .sq ∉ bs) : ArrivalsOnly s t := .of_eq (h.sq hb)

theorem ArrivalsOnly.refl (s : State) : ArrivalsOnly s s := rfl

theorem ArrivalsOnly.trans {s t u : State} (h : ArrivalsOnly s t) (k : ArrivalsOnly t u) : ArrivalsOnly s u := by
  unfold ArrivalsOnly at h k ⊢
  rw [k, h]

theorem placeCommand_arrivals (y : Option Stage) (b : Bool) (s : State) : ArrivalsOnly s (placeCommand y b s) := by
  cases y <;> rfl

theorem startService_arrivals (img : Image) (c : PreClass) (s : State) : ArrivalsOnly s (startService img c s) :=
  ArrivalsOnly.trans (t := s.withPe { s.pe with service := some _ }) rfl (placeCommand_arrivals _ _ _)

theorem resumeService_arrivals (img : Image) (r : Stacked) (s : State) : ArrivalsOnly s (resumeService img r s) :=
  ArrivalsOnly.trans (t := s.withPe { s.pe with service := some _ }) rfl (placeCommand_arrivals _ _ _)

theorem startIfIdle_arrivals (img : Image) (s : State) : ArrivalsOnly s (startIfIdle img s) := by
  unfold startIfIdle
  split
  · exact startService_arrivals img _ s
  · exact .refl s

theorem enterDwell_arrivals (img : Image) (s : State) : ArrivalsOnly s (enterDwell img s) := by
  have alerted (v : Service) (u : State) : ArrivalsOnly u (sendAlert img v u) := .of_only (sendAlert_only img v u) (by simp)
  unfold enterDwell
  split
  · dsimp only
    split
    · split
      · exact ArrivalsOnly.trans (t := s.withPe { s.pe with service := some _ }) rfl
          ((placeCommand_arrivals _ _ _).trans (alerted _ _))
      · exact ArrivalsOnly.trans (t := s.withPe { s.pe with service := some _ }) rfl (alerted _ _)
    · exact .refl s
  · exact .refl s

theorem chooseService_arrivals (img : Image) (s : State) : ArrivalsOnly s (chooseService img s) := by
  unfold chooseService
  split
  · split
    · exact startService_arrivals img _ s
    · exact resumeService_arrivals img _ (s.withPe { s.pe with stack := _ })
  · exact resumeService_arrivals img _ (s.withPe { s.pe with stack := _ })
  · exact startService_arrivals img _ s
  · rfl

theorem endService_arrivals (img : Image) (s : State) : ArrivalsOnly s (endService img s) := by
  unfold endService
  split
  · exact .refl s
  · exact chooseService_arrivals img (s.withPe _)

theorem enterExit_arrivals (img : Image) (v : Service) (s : State) : ArrivalsOnly s (enterExit img v s) := by
  unfold enterExit
  dsimp only
  split
  · exact placeCommand_arrivals _ _ (s.withPe _)
  · exact endService_arrivals img (s.withPe _)

theorem maxDwellExit_arrivals (img : Image) (v : Service) (s : State) : ArrivalsOnly s (maxDwellExit img v s) :=
  enterExit_arrivals img { v with byMax := true } (s.withPe _)

theorem exitDwell_arrivals (img : Image) (s : State) : ArrivalsOnly s (exitDwell img s) := by
  unfold exitDwell
  split
  · exact .refl s
  · split
    · exact maxDwellExit_arrivals img _ s
    · split
      · exact enterExit_arrivals img _ s
      · exact .refl s

theorem finishExit_arrivals (img : Image) (s : State) : ArrivalsOnly s (finishExit img s) := by
  unfold finishExit
  split
  · exact endService_arrivals img s
  · exact .refl s

theorem takeOver_arrivals (img : Image) (s : State) : ArrivalsOnly s (takeOver img s) := by
  unfold takeOver
  split
  · split
    · split
      · exact endService_arrivals img s
      · exact startService_arrivals img _ (s.withPe { s.pe with stack := _ })
    · exact .refl s
  · exact .refl s

theorem serviceDecisions_arrivals (img : Image) (s : State) : ArrivalsOnly s (serviceDecisions img s) := by
  unfold serviceDecisions
  dsimp only
  refine (startIfIdle_arrivals img s).trans ?_
  generalize startIfIdle img s = u
  have decided : ArrivalsOnly u (if Config.higherClassFirst s.free then exitDwell img (enterDwell img (takeOver img u))
      else takeOver img (exitDwell img (enterDwell img u))) := by
    split
    · exact ((takeOver_arrivals img u).trans (enterDwell_arrivals img _)).trans (exitDwell_arrivals img _)
    · exact ((enterDwell_arrivals img u).trans (exitDwell_arrivals img _)).trans (takeOver_arrivals img _)
  refine decided.trans ?_
  generalize (if Config.higherClassFirst s.free then exitDwell img (enterDwell img (takeOver img u))
      else takeOver img (exitDwell img (enterDwell img u))) = t
  have ended (w : State) : ArrivalsOnly w (nextFree (enterDwell img w)) := enterDwell_arrivals img w
  split
  · exact (finishExit_arrivals img t).trans (ended _)
  · exact ended t

theorem peWork_arrivals {s : State} : ArrivalsOnly s (peWork s) := by
  have inhibit : ArrivalsOnly s (countInhibit s) := by
    unfold countInhibit
    split <;> exact rfl
  have moved (img : Image) (u : State) : ArrivalsOnly u (moveRequests img u) := rfl
  have sampled (img : Image) (u : State) : ArrivalsOnly u (sampleRequests img u) := rfl
  unfold peWork
  split
  · exact .refl s
  · next img _ =>
    split
    · unfold peEvaluation
      dsimp only
      refine inhibit.trans ((sampled img _).trans ?_)
      generalize sampleRequests img (countInhibit s) = u
      generalize tenthMark (countInhibit s) = tenth
      have counted : ArrivalsOnly u (if tenth = true then u.withPe (countPeTimers u.pe) else u) := by
        split <;> exact .of_eq rfl
      refine counted.trans ?_
      generalize (if tenth = true then u.withPe (countPeTimers u.pe) else u) = w
      refine (moved img w).trans ?_
      generalize moveRequests img w = x
      exact serviceDecisions_arrivals img x
    · exact inhibit

/-- PE's work outside RUN leaves the Stage Sequencer alone. -/
theorem peWork_sq {s : State} (h : s.os.mode ≠ .run) : (peWork s).sq = s.sq := by
  unfold peWork
  split
  · rfl
  · rw [if_neg h]
    unfold countInhibit
    split <;> rfl

/-! ## The phase (R23) -/

/-- R23 on the Stage Sequencer's own state. -/
def PhaseOk (q : SqState) : Prop := q.phase = .complete → q.current.isSome = true ∧ q.target = none

theorem PhaseOk.of_same {p q : SqState} (h : PhaseOk p) (hp : q.phase = p.phase) (hc : q.current = p.current)
    (ht : q.target = p.target) : PhaseOk q := by
  unfold PhaseOk
  rw [hp, hc, ht]
  exact h

theorem phaseOk_of_changing {q : SqState} (h : q.phase = .changing) : PhaseOk q := fun hc => by
  rw [h] at hc
  exact nomatch hc

theorem CallsOnly.phase {s t : State} (h : CallsOnly s t) (hs : PhaseOk s.sq) : PhaseOk t.sq := by
  rw [h]
  exact hs.of_same rfl rfl rfl

theorem ArrivalsOnly.phase {s t : State} (h : ArrivalsOnly s t) (hs : PhaseOk s.sq) : PhaseOk t.sq := by
  rw [h]
  exact hs.of_same rfl rfl rfl

theorem startChange_phase (cause : TermCause) (truncating : Bool) (t : Stage) (s : State) :
    PhaseOk (startChange cause truncating t s).sq := phaseOk_of_changing (by rw [startChange_sq])

theorem countSqTimers_phase {s : State} (h : PhaseOk s.sq) : PhaseOk (countSqTimers s).sq := by
  unfold countSqTimers
  split
  · dsimp only
    split
    · split
      · unfold countPassage
        dsimp only
        split <;> exact h.of_same rfl rfl rfl
      · exact h.of_same rfl rfl rfl
    · exact h.of_same rfl rfl rfl
  · exact h

theorem completeChange_phase (t : Stage) (s : State) : PhaseOk (completeChange t s).sq := by
  have complete {q : SqState} (hc : q.current = some t) (ht : q.target = none) : PhaseOk q := fun _ => ⟨by rw [hc]; rfl, ht⟩
  unfold completeChange
  dsimp only
  split
  · split
    · exact complete rfl rfl
    · exact startChange_phase _ _ _ _
  · exact complete rfl rfl

theorem followChange_phase {s : State} (h : PhaseOk s.sq) : PhaseOk (followChange s).sq := by
  unfold followChange
  split
  · exact h
  · dsimp only
    split
    · exact completeChange_phase _ _
    · exact h

theorem dropTruncation_phase {s : State} (h : PhaseOk s.sq) : PhaseOk (dropTruncation s).sq := h.of_same rfl rfl rfl

theorem storeCommand_phase {s : State} (h : PhaseOk s.sq) (t : Stage) (truncating : Bool) :
    PhaseOk (storeCommand t truncating s).sq := by
  unfold storeCommand
  dsimp only
  split
  · exact (dropTruncation_phase h).of_same rfl rfl rfl
  · exact h.of_same rfl rfl rfl

theorem takeCommand_phase {s : State} (h : PhaseOk s.sq) (t : Stage) (truncating : Bool) :
    PhaseOk (takeCommand t truncating s).sq := by
  unfold takeCommand
  dsimp only
  split
  · exact h
  · have stored := storeCommand_phase h t truncating
    generalize storeCommand t truncating s = u at stored ⊢
    split
    · split
      · exact stored.of_same rfl rfl rfl
      · exact startChange_phase _ _ _ u
    next hp _ =>
      split
      · split
        · exact stored.of_same rfl rfl rfl
        · exact stored
      · split
        · exact phaseOk_of_changing hp
        · split
          · exact stored.of_same rfl rfl rfl
          · exact stored
    · exact stored

theorem dropCommand_phase {s : State} (h : PhaseOk s.sq) : PhaseOk (dropCommand s).sq := by
  unfold dropCommand
  dsimp only
  split
  · exact (dropTruncation_phase h).of_same rfl rfl rfl
  · exact h.of_same rfl rfl rfl

theorem takeMessages_phase : ∀ (ms : List PeMessage) {s : State}, PhaseOk s.sq → PhaseOk (ms.foldl takeMessage s).sq
  | [], _, h => h
  | m :: ms, s, h => by
    have first : PhaseOk (takeMessage s m).sq := by
      cases m with
      | place t truncating => exact takeCommand_phase h t truncating
      | release => exact dropCommand_phase h
    exact takeMessages_phase ms first

theorem takeHalt_phase (s : State) : PhaseOk (takeHalt s).sq := phaseOk_of_changing rfl

theorem takeOrders_phase {s : State} (h : PhaseOk s.sq) : PhaseOk (takeOrders s).sq := by
  have arrived : PhaseOk (takeArrivals s).sq :=
    takeMessages_phase s.sq.arrivals (s := s.withSq { s.sq with arrivals := [] }) (h.of_same rfl rfl rfl)
  unfold takeOrders
  dsimp only
  split
  · exact takeHalt_phase _
  · exact arrived

theorem testLatch_phase {s : State} (h : PhaseOk s.sq) : PhaseOk (testLatch s).sq := by
  unfold testLatch
  split
  · split
    · exact h.of_same rfl rfl rfl
    · exact h
  · exact h

theorem latchForceOff_phase {s : State} (h : PhaseOk s.sq) : PhaseOk (latchForceOff s).sq := by
  unfold latchForceOff
  dsimp only
  split
  · split
    · exact h.of_same rfl rfl rfl
    · exact h
  · split
    · exact h.of_same rfl rfl rfl
    · exact h
  · split
    · exact h.of_same rfl rfl rfl
    · exact h

theorem startMax_phase {s : State} (h : PhaseOk s.sq) : PhaseOk (startMax s).sq := by
  unfold startMax
  split
  · exact h
  · split_ifs
    · exact h
    · exact h.of_same rfl rfl rfl
    · exact h.of_same rfl rfl rfl
    · exact h

theorem startHold_phase {s : State} (h : PhaseOk s.sq) : PhaseOk (startHold s).sq := by
  unfold startHold
  split
  · exact h.of_same rfl rfl rfl
  · exact h

theorem testYield_phase {s : State} (last : Bool) (h : PhaseOk s.sq) : PhaseOk (testYield last s).sq := by
  unfold testYield
  dsimp only
  split
  · exact startChange_phase _ _ _ s
  · split
    · exact h.of_same rfl rfl rfl
    · exact h

theorem runSelection_phase {s : State} (h : PhaseOk s.sq) : PhaseOk (runSelection s).sq := by
  unfold runSelection
  split
  · split
    · exact startChange_phase _ _ _ s
    · exact h
  · exact h

theorem sqSteps_phase {s : State} (h : PhaseOk s.sq) :
    PhaseOk (runSelection (testTermination (takeOrders (followChange (countSqTimers s))))).sq :=
  runSelection_phase (testYield_phase _ (testLatch_phase (startHold_phase (startMax_phase (latchForceOff_phase
    (takeOrders_phase (followChange_phase (countSqTimers_phase h))))))))

/-! ## From one state to the next -/

/-- The laws of the Stage Sequencer pass on. -/
def SqKept (s t : State) : Prop := (StoppedLaw s → StoppedLaw t) ∧ (PhaseLaw s → PhaseLaw t)

theorem SqKept.refl (s : State) : SqKept s s := ⟨id, id⟩

theorem SqKept.trans {s t u : State} (h : SqKept s t) (k : SqKept t u) : SqKept s u := ⟨k.1 ∘ h.1, k.2 ∘ h.2⟩

theorem CallsOnly.kept {s t : State} (h : CallsOnly s t) (hm : t.os.mode = s.os.mode) : SqKept s t := by
  refine ⟨fun hs hr hf => ?_, h.phase⟩
  rw [hm] at hr hf
  rw [h, hs hr hf]

/-- In RUN and in FLASH ENTRY only the phase is at stake. -/
theorem SqKept.of_running {s t : State} (ht : t.os.mode = .run ∨ t.os.mode = .flashEntry) (hp : PhaseOk s.sq → PhaseOk t.sq) :
    SqKept s t := ⟨fun _ hr hf => (ht.elim hr hf).elim, hp⟩

/-- R46: a stop. -/
theorem SqKept.of_stop {s t : State} (h : t.sq = { SqState.reset with lastCause := t.sq.lastCause, calls := t.sq.calls }) :
    SqKept s t := ⟨fun _ _ _ => h, fun _ => phaseOk_of_changing (by rw [h]; rfl)⟩

theorem SqKept.of_only {bs : List Block} {s t : State} (h : Only bs s t) (hs : .sq ∉ bs) (ho : .os ∉ bs) : SqKept s t :=
  (CallsOnly.of_only h hs).kept (by rw [h.os ho])

theorem enterRun_sqKept (s : State) : SqKept s (enterRun s) := by
  refine .of_running (.inl (congrArg OsState.mode (enterRun_os s))) fun h => ?_
  unfold enterRun startRun
  split
  · exact h
  · exact phaseOk_of_changing rfl

theorem modeAfterTimer_sqKept (s : State) : SqKept s (modeAfterTimer s) := by
  unfold modeAfterTimer
  split
  · exact .of_stop rfl
  · exact enterRun_sqKept s
  · exact .refl s

theorem modeTimerWork_sqKept (began : Mode) (s : State) : SqKept s (modeTimerWork began s) := by
  have counted : SqKept s (s.withOs { s.os with timer := s.os.timer - 1 }) := CallsOnly.kept (.of_eq rfl) rfl
  unfold modeTimerWork
  dsimp only
  split
  · split
    · exact counted.trans (modeAfterTimer_sqKept _)
    · exact counted
  · exact .refl s

theorem latchFault_sqKept (cause : FaultCause) (further : Nat) (s : State) : SqKept s (latchFault cause further s) := by
  refine .of_stop ?_
  unfold latchFault enterFaultFlash
  rw [enterFlash_eq_offer, offer_sq]
  rfl

theorem monitorWork_sqKept (s : State) : SqKept s (monitorWork s) := by
  rcases monitorWork_cases s with h | ⟨img, -, -, h | ⟨c, further, h⟩⟩ <;> rw [h]
  · exact .refl s
  · exact CallsOnly.kept (.of_eq rfl) rfl
  · exact SqKept.trans (CallsOnly.kept (.of_eq rfl) rfl) (latchFault_sqKept c further (s.withOs (countedOs img s)))

theorem supervisorWork_sqKept (began : Mode) (s : State) : SqKept s (supervisorWork began s) :=
  supervisorWork_keeps (P := SqKept s) (fun u h => h.trans (monitorWork_sqKept u))
    (fun u h => h.trans (modeTimerWork_sqKept began u)) s (.refl s)

theorem reportHalt_sqKept (s : State) : SqKept s (reportHalt s) := by
  refine .of_stop ?_
  unfold reportHalt enterManualFlash
  rw [enterFlash_eq_offer, offer_sq]
  rfl

theorem sqWork_sqKept (s : State) : SqKept s (sqWork s) := by
  unfold sqWork
  split
  next hm =>
    have steps := sqSteps_only s
    have phases := sqSteps_phase (s := s)
    unfold sqEvaluation
    generalize runSelection (testTermination (takeOrders (followChange (countSqTimers s)))) = u at steps phases ⊢
    have evaluated : SqKept s (readGreens (u.withSq { u.sq with yieldWasOpen := u.ck.report.yieldOpen })) := by
      refine .of_running ?_ fun h => (phases h).of_same rfl rfl rfl
      show u.os.mode = .run ∨ u.os.mode = .flashEntry
      rw [steps.os (by simp)]
      exact hm
    dsimp only
    split
    · exact evaluated.trans (reportHalt_sqKept _)
    · exact evaluated
  · exact .refl s

/-- R35: an adoption ends a hold extension, which a stopped sequencer does not have. -/
theorem adoptPending_sqKept (img : Image) (s : State) : SqKept s (adoptPending img s) := by
  unfold adoptPending
  split
  · exact .refl s
  · refine ⟨fun h hr hf => ?_, fun h => PhaseOk.of_same h rfl rfl rfl⟩
    have hs := h hr hf
    show { endHold s.sq with yieldWasOpen := false } = { SqState.reset with lastCause := s.sq.lastCause, calls := s.sq.calls }
    rw [hs]
    rfl

theorem ckWork_sqKept (s : State) : SqKept s (ckWork s) := by
  have staged (img : Image) : SqKept s (secondStage img (markStage img s)) :=
    .of_only (((markStage_only img s).mono (by simp)).trans (secondStage_only img _)) (by simp) (by simp)
  have timed (u : State) (k : CkState) : SqKept u (u.withCk k) := .of_only (withCk_only u k) (by simp) (by simp)
  have cycled (img : Image) (r : PlanRecord) (u : State) : SqKept u (runCycle img r u) := by
    unfold runCycle
    dsimp only
    split
    · exact (timed u _).trans (adoptPending_sqKept img _)
    · exact (timed u _).trans (timed _ _)
  unfold ckWork
  split
  · dsimp only
    split
    · split
      · exact (staged _).trans (timed _ _)
      · exact (staged _).trans (cycled _ _ _)
    · split
      · exact (staged _).trans (adoptPending_sqKept _ _)
      · exact (staged _).trans (timed _ _)
  · exact .refl s

theorem peWork_sqKept (s : State) : SqKept s (peWork s) := by
  by_cases hm : s.os.mode = .run
  · refine .of_running (.inl ?_) peWork_arrivals.phase
    rw [(peWork_only s).os (by simp), hm]
  · exact (CallsOnly.of_eq (peWork_sq hm)).kept (by rw [(peWork_only s).os (by simp)])

theorem LoadGoesOn.sqKept {s t : State} (h : LoadGoesOn s t) : SqKept s t := by
  obtain ⟨hm, cf, -, -, rfl | rfl⟩ := h
  · exact CallsOnly.kept (.of_eq rfl) rfl
  · exact ⟨fun hs _ _ => hs (by rw [hm]; decide) (by rw [hm]; decide), id⟩

theorem LoadTaken.sqKept {s t : State} (h : LoadTaken s t) : SqKept s t := by
  obtain ⟨-, raw, position, -, rfl⟩ := h
  exact .of_stop rfl

theorem whenDue_sqKept {c : Bool} {s t : State} (h : c = true → SqKept s t) : SqKept s (whenDue c t s) := by
  rcases whenDue_cases c t s with ⟨hc, e⟩ | e <;> rw [e]
  · exact h hc
  · exact .refl s

theorem sqRuns_iff (s : State) : sqRuns s = true ↔ s.os.mode = .run ∨ s.os.mode = .flashEntry := by
  simp [sqRuns]

/-- A row of the Stage Sequencer, which stands for a moment of its evaluation. -/
theorem sqRow_kept {s u : State} (hm : s.os.mode = .run ∨ s.os.mode = .flashEntry) (ho : u.os = s.os)
    (hp : PhaseOk s.sq → PhaseOk u.sq) : SqKept s (readGreens u) := by
  refine .of_running ?_ hp
  show u.os.mode = .run ∨ u.os.mode = .flashEntry
  rw [ho]
  exact hm

/-- A row of PE, which stands for a moment of its evaluation in RUN. -/
theorem peEvent_sqKept {due : Image → Bool} {act : Image → State → State} {s t : State} (hx : peEvent due act s = .next t)
    (hos : t.os = s.os) (h : ∀ img, ArrivalsOnly s (act img s)) : SqKept s t := by
  obtain rfl | ⟨img, -, hm, -, rfl⟩ := peEvent_cases hx
  · exact .refl _
  · exact .of_running (.inl (by rw [hos, hm])) (h img).phase

/-- A command that is no entry of a mode, and reaches the Stage Sequencer from another block. -/
theorem sq_event_other {c : Instr} {s t : State} (hx : exec c s = .next t) (hos : .os ∉ Instr.reaches c) (h : CallsOnly s t) :
    SqKept s t := h.kept (by rw [(exec_only hx).os hos])

theorem whenDue_callsOnly {c : Bool} {s t : State} (h : CallsOnly s t) : CallsOnly s (whenDue c t s) := by
  rcases whenDue_cases c t s with ⟨-, e⟩ | e <;> rw [e]
  · exact h
  · exact .of_eq rfl

theorem sqRow_event {c : Instr} {s t : State} (ht : touches [.os, .sq] (Instr.reaches c) = true)
    (hx : exec c s = .next t) (hc : c = .passageTimerExpiry ∨ c = .maxTimerExpiry ∨ c = .holdExtensionExpiry ∨
      c = .stageChangeComplete ∨ (∃ y b, c = .peCommand y b) ∨ (∃ b, c = .peCommandRelease b)) : SqKept s t := by
  rcases hc with rfl | rfl | rfl | rfl | ⟨y, b, rfl⟩ | ⟨b, rfl⟩
  · injection hx with hx
    rw [← hx]
    split
    · exact .refl s
    · refine whenDue_sqKept fun hdue => ?_
      simp only [Bool.and_eq_true] at hdue
      refine sqRow_kept ((sqRuns_iff s).mp hdue.1.1.1.1) ?_ fun h => runSelection_phase (testLatch_phase (h.of_same rfl rfl rfl))
      exact (latched_only s _ (withSq_only s _)).os (by simp)
  · injection hx with hx
    rw [← hx]
    split
    · exact .refl s
    · refine whenDue_sqKept fun hdue => ?_
      simp only [Bool.and_eq_true] at hdue
      refine sqRow_kept ((sqRuns_iff s).mp hdue.1.1.1.1) ?_ fun h => runSelection_phase (testLatch_phase (h.of_same rfl rfl rfl))
      exact (latched_only s _ (withSq_only s _)).os (by simp)
  · injection hx with hx
    rw [← hx]
    refine whenDue_sqKept fun hdue => ?_
    simp only [Bool.and_eq_true] at hdue
    refine sqRow_kept ((sqRuns_iff s).mp hdue.1.1) ?_ fun h => testYield_phase true (h.of_same rfl rfl rfl)
    exact (testYield_only true (s.withSq _)).os (by simp)
  · injection hx with hx
    rw [← hx]
    split
    · exact .refl s
    · refine whenDue_sqKept fun hdue => ?_
      simp only [Bool.and_eq_true] at hdue
      exact sqRow_kept ((sqRuns_iff s).mp hdue.1) ((completeChange_only _ s).os (by simp)) fun _ => completeChange_phase _ s
  · injection hx with hx
    rw [← hx]
    refine whenDue_sqKept fun hdue => ?_
    simp only [Bool.and_eq_true, beq_iff_eq] at hdue
    exact sqRow_kept (.inl hdue.1) ((takeCommand_only y b s).os (by simp)) fun h => takeCommand_phase h y b
  · -- A stopped sequencer holds no command, so there is none to release.
    have none_held (h : StoppedLaw s) (hr : t.os.mode ≠ .run) (hf : t.os.mode ≠ .flashEntry) :
        s.sq.command = none ∧ t.os = s.os := by
      have hos : t.os = s.os := (exec_only hx).os (by simp [Instr.reaches])
      rw [hos] at hr hf
      exact ⟨by rw [h hr hf]; rfl, hos⟩
    injection hx with hx
    refine ⟨fun h hr hf => ?_, fun h => ?_⟩
    · obtain ⟨hnone, hos⟩ := none_held h hr hf
      rw [hnone] at hx
      rw [← hx] at hr hf ⊢
      exact h hr hf
    · rw [← hx]
      show PhaseOk _
      split
      · exact h
      · split
        · rcases whenDue_cases _ _ s with ⟨-, e⟩ | e <;> rw [e]
          · exact PhaseOk.of_same h rfl rfl rfl
          · exact h
        · exact dropCommand_phase h

theorem sq_event {c : Instr} {s t : State} (ht : touches [.os, .sq] (Instr.reaches c) = true)
    (hc : Instr.isEvent c = true) (hx : exec c s = .next t) : SqKept s t := by
  have hos : .os ∉ Instr.reaches c → t.os = s.os := (exec_only hx).os
  cases c with
  | powerOn => injection hx with hx; exact hx ▸ .of_stop rfl
  | resetPin => injection hx with hx; exact hx ▸ .of_stop rfl
  | headerRead bs => exact (headerRead_cases hx).elim (fun e => e ▸ .refl _) LoadGoesOn.sqKept
  | memoryNoAcknowledge bs => exact (memoryNoAcknowledge_cases hx).elim (fun e => e ▸ .refl _) LoadGoesOn.sqKept
  | loadEnd body =>
    exact (loadEnd_cases hx).elim (fun e => e ▸ .refl _) fun h => h.elim LoadGoesOn.sqKept LoadTaken.sqKept
  | prepEnd g =>
    refine sq_event_other hx (by simp [Instr.reaches]) ?_
    injection hx with hx
    rw [← hx]
    split
    · exact .of_eq rfl
    · exact whenDue_callsOnly (installGroups_callsOnly _ s)
  | minGreenEnd g =>
    refine sq_event_other hx (by simp [Instr.reaches]) ?_
    injection hx with hx
    rw [← hx]
    split
    · exact .of_eq rfl
    · exact whenDue_callsOnly (installGroups_callsOnly _ s)
  | clearanceEnd g =>
    refine sq_event_other hx (by simp [Instr.reaches]) ?_
    injection hx with hx
    rw [← hx]
    split
    · exact .of_eq rfl
    · exact whenDue_callsOnly (installGroups_callsOnly _ s)
  | passageTimerExpiry => exact sqRow_event ht hx (by simp)
  | maxTimerExpiry => exact sqRow_event ht hx (by simp)
  | holdExtensionExpiry => exact sqRow_event ht hx (by simp)
  | stageChangeComplete => exact sqRow_event ht hx (by simp)
  | peCommand target truncating => exact sqRow_event ht hx (by simp)
  | peCommandRelease downgrade => exact sqRow_event ht hx (by simp)
  | halt =>
    injection hx with hx
    rw [← hx]
    refine whenDue_sqKept fun hdue => ?_
    simp only [Bool.and_eq_true, beq_iff_eq] at hdue
    have taken : SqKept s (readGreens (takeHalt s)) :=
      sqRow_kept (.inr hdue.1) ((takeHalt_only s).os (by simp)) fun _ => takeHalt_phase s
    dsimp only
    split
    · exact taken.trans (reportHalt_sqKept _)
    · exact taken
  | haltDone => injection hx with hx; exact hx ▸ whenDue_sqKept fun _ => reportHalt_sqKept s
  | onEdge d =>
    refine sq_event_other hx (by simp [Instr.reaches]) ?_
    injection hx with hx
    rw [← hx]
    split
    · exact .of_eq rfl
    · exact whenDue_callsOnly (onEdge_callsOnly _ d s)
  | planAdoption =>
    injection hx with hx
    rw [← hx]
    split
    · exact .refl s
    · exact whenDue_sqKept fun _ => adoptPending_sqKept _ s
  | byteReceived b e =>
    refine sq_event_other hx (by simp [Instr.reaches]) ?_
    injection hx with hx
    exact hx ▸ whenDue_callsOnly (receiveByte_callsOnly b e s)
  | frameReceived b =>
    refine sq_event_other hx (by simp [Instr.reaches]) ?_
    injection hx with hx
    exact hx ▸ whenDue_callsOnly (receiveByte_callsOnly b false s)
  | noticeActivation sender serial =>
    refine sq_event_other hx (by simp [Instr.reaches]) ?_
    injection hx with hx
    rw [← hx]
    split
    · exact .of_eq rfl
    · exact whenDue_callsOnly (CallsOnly.trans (.of_eq rfl) (writeStageCalls_callsOnly _ (setQueue _ s)))
  | requestInputOn c =>
    have hs := hos (by simp [Instr.reaches])
    unfold exec execRequestInputOn at hx
    exact peEvent_sqKept hx hs fun img => serviceDecisions_arrivals img ((setFilter c true s).withPe _)
  | dwellEntry =>
    have hs := hos (by simp [Instr.reaches])
    unfold exec execDwellEntry at hx
    exact peEvent_sqKept hx hs fun img =>
      ((enterDwell_arrivals img s).trans (exitDwell_arrivals img _)).trans (enterDwell_arrivals img _)
  | minDwellExpiry =>
    have hs := hos (by simp [Instr.reaches])
    unfold exec execMinDwellExpiry at hx
    refine peEvent_sqKept hx hs fun img => ?_
    split
    · exact (enterExit_arrivals img _ s).trans (enterDwell_arrivals img _)
    · exact .refl s
  | maxDwellExpiry =>
    have hs := hos (by simp [Instr.reaches])
    unfold exec execMaxDwellExpiry at hx
    refine peEvent_sqKept hx hs fun img => ?_
    split
    · exact (maxDwellExit_arrivals img _ s).trans (enterDwell_arrivals img _)
    · exact .refl s
  | serviceEnd =>
    have hs := hos (by simp [Instr.reaches])
    unfold exec execServiceEnd at hx
    exact peEvent_sqKept hx hs fun img =>
      (endService_arrivals img s).trans (enterDwell_arrivals img _)
  | lineAlertCountdownExpiry =>
    have hs := hos (by simp [Instr.reaches])
    unfold exec execLineAlertCountdownExpiry at hx
    exact peEvent_sqKept hx hs fun img => serviceDecisions_arrivals img (s.withPe _)
  | lineDwellExpiry =>
    have hs := hos (by simp [Instr.reaches])
    unfold exec execLineDwellExpiry at hx
    exact peEvent_sqKept hx hs fun img => serviceDecisions_arrivals img (s.withPe _)
  | inhibitExpiry =>
    have hs := hos (by simp [Instr.reaches])
    unfold exec execInhibitExpiry at hx
    exact peEvent_sqKept hx hs fun img => serviceDecisions_arrivals img (s.withPe _)
  | modeTimerExpiry =>
    injection hx with hx
    rw [← hx]
    exact whenDue_sqKept fun _ => SqKept.trans (CallsOnly.kept (.of_eq rfl) rfl)
      (modeAfterTimer_sqKept (s.withOs { s.os with timer := 0 }))
  | conflict a b =>
    injection hx with hx
    rw [← hx]
    split
    · exact .refl s
    · exact whenDue_sqKept fun _ => latchFault_sqKept _ _ s
  | mismatch ch l => injection hx with hx; exact hx ▸ whenDue_sqKept fun _ => latchFault_sqKept _ _ s
  | _ => first | exact (Bool.false_ne_true ht).elim | exact (Bool.false_ne_true hc).elim

theorem sq_command {m : MpCommand} (s : State) (ht : touches [.os, .sq] m.blocks = true) : SqKept s (carryOut s m) := by
  cases m with
  | placeCall a =>
    show SqKept s (placeCallEffect a s)
    unfold placeCallEffect
    split
    · exact (writeCall_callsOnly _ s).kept (by rw [(writeCall_only _ s).os (by simp)])
    · exact .refl s
  | manualFlashOn =>
    show SqKept s (manualFlashOnEffect s)
    unfold manualFlashOnEffect
    split
    next hm =>
      refine .of_running (.inr rfl) fun h => ?_
      have left : PhaseOk (leaveRun s).sq := by
        rw [leaveRun_of_run hm]
        exact PhaseOk.of_same h rfl rfl rfl
      exact left.of_same rfl rfl rfl
    next => exact .refl s
  | manualFlashOff => exact .of_stop rfl
  | restart => exact .of_stop rfl
  | reload => exact .of_stop rfl
  | _ => exact (Bool.false_ne_true ht).elim

theorem sq_work {w : Work} {began : Mode} {s : State} (ht : touches [.os, .sq] w.blocks = true) (hw : w ≠ .mp) :
    SqKept s (doWork began s w) := by
  cases w with
  | mp => exact absurd rfl hw
  | groups =>
    refine CallsOnly.kept ?_ (by rw [show (doWork began s .groups).os = s.os from (geWork_only s).os (by simp)])
    show CallsOnly s (geWork s)
    unfold geWork
    split
    · exact .of_eq rfl
    · split
      · exact installGroups_callsOnly _ s
      · exact .of_eq rfl
  | sequencer => exact sqWork_sqKept s
  | detectors => exact (duWork_callsOnly s).kept (by rw [(duWork_only s).os (by simp)])
  | clock => exact ckWork_sqKept s
  | platoonCountdown =>
    exact (plQueueWork_callsOnly s).kept (by rw [(plQueueWork_only s).os (by simp)])
  | preemption => exact peWork_sqKept s
  | supervisor => exact supervisorWork_sqKept began s
  | _ => exact (Bool.false_ne_true ht).elim

theorem stoppedLaw_reads : Reads [.os, .sq] StoppedLaw := fun s t same h => by
  have hos : t.os = s.os := same .os (by simp)
  have hsq : t.sq = s.sq := same .sq (by simp)
  unfold StoppedLaw
  rw [hos, hsq]
  exact h

theorem phaseLaw_reads : Reads [.sq] PhaseLaw := fun s t same h => by
  have hsq : t.sq = s.sq := same .sq (by simp)
  unfold PhaseLaw
  rw [hsq]
  exact h

/-- What reaches the sequencer's own block reaches one of the two that its laws read. -/
theorem touches_sequencer {cs : List Block} (h : touches [.sq] cs = true) : touches [.os, .sq] cs = true := by
  simp only [touches, List.any_eq_true] at h ⊢
  obtain ⟨b, hb, hn⟩ := h
  exact ⟨b, hb, by simpa using Or.inr (by simpa using hn)⟩

/-- R46. -/
theorem stoppedLaw_kept : Kept StoppedLaw :=
  stoppedLaw_reads.kept (by decide) (fun _ _ _ ht hc h hx => (sq_event ht hc hx).1 h)
    (fun _ s ht _ h => (sq_command s ht).1 h) fun _ _ _ ht hw h => (sq_work ht hw).1 h

/-- R23. -/
theorem phaseLaw_kept : Kept PhaseLaw :=
  phaseLaw_reads.kept (by decide) (fun _ _ _ ht hc h hx => (sq_event (touches_sequencer ht) hc hx).2 h)
    (fun _ s ht _ h => (sq_command s (touches_sequencer ht)).2 h)
    fun _ _ _ ht hw h => (sq_work (touches_sequencer ht) hw).2 h

end Sys2Proof.Machine


/-!
# The saturating counters and the port (O27, second part)

Each counter belongs to one block and is changed by few operations, each of which stops at the counter's maximum.
-/

namespace Sys2Proof.Machine

/-! ## The green-end elapsed counts -/

/-- R6. -/
def GroupCounts (s : State) : Prop := ∀ g : Group, s.ge[g].e ≤ 255

theorem SameMotion.counts {s t : State} (h : SameMotion s t) (hs : GroupCounts s) : GroupCounts t := fun g => by
  rw [(h.get g).2.2]
  exact hs g

theorem groupCounts_reads : Reads [.ge] GroupCounts := fun _ _ same h => (SameMotion.of_ge (same .ge (by simp))).counts h

theorem discardRequests_e (g : GroupState) : (discardRequests g).e = g.e := by
  unfold discardRequests
  split <;> rfl

theorem takeLeave_e_le (r : GroupRecord) (g : GroupState) : (takeLeave r g).e ≤ g.e := by
  unfold takeLeave
  split
  · exact Nat.zero_le _
  · split
    · exact Nat.zero_le _
    · exact le_refl _
  · exact le_refl _

theorem endPrep_e (r : GroupRecord) (mode : Mode) (g : GroupState) : (endPrep r mode g).e = g.e := by
  unfold endPrep addLeaveIfNone
  dsimp only
  split
  · split <;> rfl
  · rfl

theorem actOnTimer_e_le (r : GroupRecord) (mode : Mode) (g : GroupState) : (actOnTimer r mode g).e ≤ g.e := by
  unfold actOnTimer
  split
  · split
    · exact (endPrep_e r mode g).le
    · exact le_refl _
  · refine (takeLeave_e_le r _).trans ?_
    split <;> exact le_refl _
  · split <;> exact le_refl _
  all_goals exact le_refl _

/-- R6: the count stops at 255. -/
theorem firstPass_e_le_max (r : GroupRecord) (mode : Mode) (g : GroupState) : (firstPass r mode g).e ≤ 255 := by
  unfold firstPass
  rw [discardRequests_e]
  refine (actOnTimer_e_le r mode _).trans ?_
  show (if g.phase = .off then 255 else satInc 255 g.e) ≤ 255
  split
  · exact le_refl _
  · exact satInc_le _ _

theorem put_counts {s : State} {g : Group} {x : GroupState} (h : GroupCounts s) (hx : x.e ≤ 255) (a : Group) :
    (put s.ge g x)[a].e ≤ 255 := by
  rw [put_get]
  split
  · exact hx
  · exact h a

theorem enterFlash_counts (mode : Mode) (cause : AlertCause) {s : State} (h : GroupCounts s) :
    GroupCounts (enterFlash mode cause s) := fun g => by
  have he : (flashSourced mode s).ge[g].e = s.ge[g].e := by
    rw [(flashSourced_only mode s).ge (by simp)]
    exact ((leaveRun_motion s).get g).2.2
  rw [enterFlash_eq_offer, offer_ge]
  show (forceFlashing (flashSourced mode s)).ge[g].e ≤ 255
  rw [forceFlashing_ge]
  split <;> exact he ▸ h g

theorem enterStartRed_counts {s : State} (h : GroupCounts s) : GroupCounts (enterStartRed s) := fun g => by
  rw [enterStartRed_ge]
  split <;> exact h g

theorem modeAfterTimer_counts {s : State} (h : GroupCounts s) : GroupCounts (modeAfterTimer s) := by
  unfold modeAfterTimer
  split
  · exact enterStartRed_counts h
  · exact (SameMotion.trans (.of_ge rfl) (startRun_motion _ (s.withOs _))).counts h
  · exact h

theorem modeTimerWork_counts {began : Mode} {s : State} (h : GroupCounts s) : GroupCounts (modeTimerWork began s) := by
  unfold modeTimerWork
  dsimp only
  split
  · split
    · exact modeAfterTimer_counts (s := s.withOs _) h
    · exact h
  · exact h

theorem latchFault_counts (cause : FaultCause) (further : Nat) {s : State} (h : GroupCounts s) :
    GroupCounts (latchFault cause further s) := enterFlash_counts .faultFlash .fault (s := s.withOs _) h

theorem monitorWork_counts {s : State} (h : GroupCounts s) : GroupCounts (monitorWork s) := by
  rcases monitorWork_cases s with e | ⟨img, -, -, e | ⟨c, further, e⟩⟩ <;> rw [e]
  · exact h
  · exact h
  · exact latchFault_counts c further (s := s.withOs (countedOs img s)) h

theorem reportHalt_counts {s : State} (h : GroupCounts s) : GroupCounts (reportHalt s) :=
  enterFlash_counts .manualFlash .manual (s := s.withSq _) h

theorem sqWork_counts {s : State} (h : GroupCounts s) : GroupCounts (sqWork s) := by
  unfold sqWork
  split
  · have motion := sqSteps_motion s
    unfold sqEvaluation
    generalize runSelection (testTermination (takeOrders (followChange (countSqTimers s)))) = u at motion ⊢
    have evaluated : GroupCounts (readGreens (u.withSq { u.sq with yieldWasOpen := u.ck.report.yieldOpen })) :=
      (motion.trans (.of_ge rfl)).counts h
    dsimp only
    split
    · exact reportHalt_counts evaluated
    · exact evaluated
  · exact h

theorem geWork_counts {s : State} (h : GroupCounts s) : GroupCounts (geWork s) := by
  unfold geWork
  split
  · exact h
  next img _ =>
    split
    · intro g
      rw [installGroups_ge, groupUpdate_e]
      exact firstPass_e_le_max _ _ _
    · exact h

theorem completeLoad_counts (m : Image) (n : Nat) {s : State} (h : GroupCounts s) : GroupCounts (completeLoad m n s) := fun g => by
  rw [completeLoad_eq, enterStartFlash_ge]
  split <;> exact h g

theorem reset_counts (s : State) : GroupCounts (resetStation s) := fun g => by
  rw [show (resetStation s).ge[g] = GroupState.reset from tab_get _ g]
  exact le_refl _

theorem groupCounts_event {c : Instr} {s t : State} (ht : touches [.ge] (Instr.reaches c) = true) (hc : Instr.isEvent c = true)
    (h : GroupCounts s) (hx : exec c s = .next t) : GroupCounts t := by
  have latched (x : SqState) : SameMotion s (readGreens (runSelection (testLatch (s.withSq x)))) :=
    (SameMotion.of_only ((withSq_only s x).trans (testLatch_only _)) (by simp)).trans ((runSelection_motion _).trans (.of_ge rfl))
  cases c with
  | powerOn => injection hx with hx; exact hx ▸ reset_counts s
  | resetPin => injection hx with hx; exact hx ▸ reset_counts s
  | loadEnd body =>
    rcases loadEnd_cases hx with e | hl | ⟨-, raw, position, -, e⟩
    · exact e ▸ h
    · exact groupCounts_reads.of_only hl.only rfl h
    · exact e ▸ completeLoad_counts _ _ (s := s.withCf _) h
  | prepEnd g =>
    injection hx with hx
    rw [← hx]
    split
    · exact h
    · exact whenDue_keeps (fun _ => put_counts h (by rw [discardRequests_e, endPrep_e]; exact h g)) h
  | minGreenEnd g =>
    injection hx with hx
    rw [← hx]
    split
    · exact h
    · exact whenDue_keeps (fun _ => put_counts h (by rw [discardRequests_e]; exact (takeLeave_e_le _ _).trans (h g))) h
  | clearanceEnd g =>
    injection hx with hx
    rw [← hx]
    split
    · exact h
    · refine whenDue_keeps (fun _ a => ?_) h
      rw [installGroups_ge, tryGate_e]
      exact put_counts h (by rw [discardRequests_e]; exact h g) a
  | passageTimerExpiry =>
    injection hx with hx
    rw [← hx]
    split
    · exact h
    · exact whenDue_keeps (fun _ => (latched _).counts h) h
  | maxTimerExpiry =>
    injection hx with hx
    rw [← hx]
    split
    · exact h
    · exact whenDue_keeps (fun _ => (latched _).counts h) h
  | holdExtensionExpiry =>
    injection hx with hx
    rw [← hx]
    exact whenDue_keeps (fun _ => (SameMotion.trans (.of_ge rfl) ((testYield_motion true (s.withSq _)).trans (.of_ge rfl))).counts h) h
  | stageChangeComplete =>
    injection hx with hx
    rw [← hx]
    split
    · exact h
    · exact whenDue_keeps (fun _ => ((completeChange_motion _ s).trans (.of_ge rfl)).counts h) h
  | peCommand target truncating =>
    injection hx with hx
    rw [← hx]
    exact whenDue_keeps (fun _ => ((takeCommand_motion _ _ s).trans (.of_ge rfl)).counts h) h
  | peCommandRelease downgrade =>
    injection hx with hx
    rw [← hx]
    split
    · exact h
    · split
      · exact whenDue_keeps (fun _ => ((dropTruncation_motion s).trans (.of_ge rfl)).counts h) h
      · exact (dropCommand_motion s).counts h
  | halt =>
    injection hx with hx
    rw [← hx]
    have taken : GroupCounts (readGreens (takeHalt s)) := ((takeHalt_motion s).trans (.of_ge rfl)).counts h
    refine whenDue_keeps (fun _ => ?_) h
    dsimp only
    split
    · exact reportHalt_counts taken
    · exact taken
  | haltDone => injection hx with hx; exact hx ▸ whenDue_keeps (fun _ => reportHalt_counts h) h
  | modeTimerExpiry =>
    injection hx with hx
    rw [← hx]
    exact whenDue_keeps (fun _ => modeAfterTimer_counts (s := s.withOs _) h) h
  | conflict a b =>
    injection hx with hx
    rw [← hx]
    split
    · exact h
    · exact whenDue_keeps (fun _ => latchFault_counts _ _ h) h
  | mismatch ch l => injection hx with hx; exact hx ▸ whenDue_keeps (fun _ => latchFault_counts _ _ h) h
  | _ => first | exact (Bool.false_ne_true ht).elim | exact (Bool.false_ne_true hc).elim

theorem groupCounts_kept : Kept GroupCounts := by
  refine groupCounts_reads.kept (by decide) (fun _ _ _ ht hc h hx => groupCounts_event ht hc h hx) (fun m s ht _ h => ?_)
    fun w began s ht hw h => ?_
  · cases m with
    | manualFlashOn =>
      show GroupCounts (manualFlashOnEffect s)
      unfold manualFlashOnEffect
      split
      · exact (enterFlashEntry_motion s).counts h
      · exact h
    | manualFlashOff => exact enterStartRed_counts h
    | restart => exact enterStartRed_counts h
    | reload =>
      intro g
      rw [show (carryOut s .reload).ge[g] = GroupState.reset from tab_get (fun _ : Group => GroupState.reset) g]
      exact le_refl _
    | _ => exact (Bool.false_ne_true ht).elim
  · cases w with
    | mp => exact absurd rfl hw
    | groups => exact geWork_counts h
    | sequencer => exact sqWork_counts h
    | supervisor => exact supervisorWork_keeps (P := GroupCounts) (fun _ => monitorWork_counts) (fun _ => modeTimerWork_counts) s h
    | _ => exact (Bool.false_ne_true ht).elim

/-! ## The counters of OS and of the loader -/

/-- R174: the additional faults counter. -/
def FaultCount (s : State) : Prop := s.os.additional ≤ 255

/-- R180: the count of clamped fields. -/
def ClampCount (s : State) : Prop := s.cf.clamped ≤ 255

theorem faultCount_reads : Reads [.os] FaultCount := fun s t same h => by
  have hos : t.os = s.os := same .os (by simp)
  unfold FaultCount
  rw [hos]
  exact h

theorem modeAfterTimer_additional (s : State) : (modeAfterTimer s).os.additional = s.os.additional := by
  unfold modeAfterTimer
  split
  · rfl
  · rw [enterRun_os]
  · rfl

theorem modeTimerWork_additional (began : Mode) (s : State) : (modeTimerWork began s).os.additional = s.os.additional := by
  unfold modeTimerWork
  dsimp only
  split
  · split
    · exact modeAfterTimer_additional _
    · rfl
  · rfl

theorem latchFault_additional (cause : FaultCause) (further : Nat) (s : State) : FaultCount (latchFault cause further s) := by
  unfold FaultCount latchFault enterFaultFlash
  rw [enterFlash_additional]
  exact Nat.min_le_right _ _

theorem monitorWork_additional {s : State} (h : FaultCount s) : FaultCount (monitorWork s) := by
  rcases monitorWork_cases s with e | ⟨img, -, -, e | ⟨c, further, e⟩⟩ <;> rw [e]
  · exact h
  · exact h
  · exact latchFault_additional _ _ _

theorem reportHalt_additional (s : State) : (reportHalt s).os.additional = s.os.additional := enterFlash_additional _ _ _

theorem sqWork_additional {s : State} (h : FaultCount s) : FaultCount (sqWork s) := by
  rcases sqWork_cases s with ho | ⟨u, ho, -, e⟩
  · exact faultCount_reads.of_only ho rfl h
  · rw [e, FaultCount, reportHalt_additional]
    exact faultCount_reads.of_only ho rfl h

theorem LoadGoesOn.additional {s t : State} (h : LoadGoesOn s t) : t.os.additional = s.os.additional := by
  obtain ⟨-, cf, -, -, rfl | rfl⟩ := h <;> rfl

theorem faultCount_event {c : Instr} {s t : State} (ht : touches [.os] (Instr.reaches c) = true) (hc : Instr.isEvent c = true)
    (h : FaultCount s) (hx : exec c s = .next t) : FaultCount t := by
  have loads (hl : LoadGoesOn s t) : FaultCount t := hl.additional.le.trans h
  cases c with
  | powerOn => injection hx with hx; exact hx ▸ Nat.zero_le 255
  | resetPin => injection hx with hx; exact hx ▸ Nat.zero_le 255
  | headerRead bs => exact (headerRead_cases hx).elim (fun e => e ▸ h) loads
  | memoryNoAcknowledge bs => exact (memoryNoAcknowledge_cases hx).elim (fun e => e ▸ h) loads
  | loadEnd body =>
    refine (loadEnd_cases hx).elim (fun e => e ▸ h) fun hl => hl.elim loads fun hl => ?_
    obtain ⟨-, raw, position, -, e⟩ := hl
    rw [e, completeLoad_eq, FaultCount, enterStartFlash_additional]
    exact h
  | halt =>
    injection hx with hx
    rw [← hx]
    have taken : FaultCount (readGreens (takeHalt s)) := faultCount_reads.of_only (readGreens_after (takeHalt_only s)) rfl h
    refine whenDue_keeps (fun _ => ?_) h
    dsimp only
    split
    · exact (reportHalt_additional _).le.trans taken
    · exact taken
  | haltDone => injection hx with hx; exact hx ▸ whenDue_keeps (fun _ => (reportHalt_additional s).le.trans h) h
  | modeTimerExpiry =>
    injection hx with hx
    rw [← hx]
    exact whenDue_keeps (fun _ => (modeAfterTimer_additional (s.withOs { s.os with timer := 0 })).le.trans h) h
  | conflict a b =>
    injection hx with hx
    rw [← hx]
    split
    · exact h
    · exact whenDue_keeps (fun _ => latchFault_additional _ _ s) h
  | mismatch ch l => injection hx with hx; exact hx ▸ whenDue_keeps (fun _ => latchFault_additional _ _ s) h
  | _ => first | exact (Bool.false_ne_true ht).elim | exact (Bool.false_ne_true hc).elim

theorem faultCount_kept : Kept FaultCount := by
  refine faultCount_reads.kept (by decide) (fun _ _ _ ht hc h hx => faultCount_event ht hc h hx) (fun m s ht _ h => ?_)
    fun w began s ht hw h => ?_
  · cases m with
    | manualFlashOn =>
      show FaultCount (manualFlashOnEffect s)
      unfold manualFlashOnEffect
      split
      · show (leaveRun s).os.additional ≤ 255
        rw [leaveRun_os]
        exact h
      · exact h
    | manualFlashOff => exact h
    | restart => exact Nat.zero_le _
    | reload => exact Nat.zero_le _
    | _ => exact (Bool.false_ne_true ht).elim
  · cases w with
    | mp => exact absurd rfl hw
    | sequencer => exact sqWork_additional h
    | supervisor =>
      exact supervisorWork_keeps (P := FaultCount) (fun _ => monitorWork_additional)
        (fun u hu => (modeTimerWork_additional began u).le.trans hu) s h
    | _ => exact (Bool.false_ne_true ht).elim

theorem clampCount_reads : Reads [.cf] ClampCount := fun s t same h => by
  have hcf : t.cf = s.cf := same .cf (by simp)
  unfold ClampCount
  rw [hcf]
  exact h

theorem clampCount_kept : Kept ClampCount := by
  have loads {s t : State} (h : ClampCount s) (hl : LoadGoesOn s t) : ClampCount t := by
    obtain ⟨-, cf, -, hcl, e⟩ := hl
    have hcf : t.cf = cf := by rcases e with rfl | rfl <;> rfl
    rw [ClampCount, hcf]
    exact hcl.elim (fun e => e ▸ h) id
  refine clampCount_reads.kept (by decide) (fun c s t ht hc h hx => ?_) (fun m s ht _ h => ?_) fun w began s ht hw h => ?_
  · cases c with
    | powerOn => injection hx with hx; exact hx ▸ Nat.zero_le 255
    | resetPin => injection hx with hx; exact hx ▸ Nat.zero_le 255
    | headerRead bs => exact (headerRead_cases hx).elim (fun e => e ▸ h) (loads h)
    | memoryNoAcknowledge bs => exact (memoryNoAcknowledge_cases hx).elim (fun e => e ▸ h) (loads h)
    | loadEnd body =>
      refine (loadEnd_cases hx).elim (fun e => e ▸ h) fun hl => hl.elim (loads h) fun hl => ?_
      obtain ⟨-, raw, position, -, e⟩ := hl
      rw [e]
      exact clampedCount_le _ _
    | _ => first | exact (Bool.false_ne_true ht).elim | exact (Bool.false_ne_true hc).elim
  · cases m with
    | reload => exact Nat.zero_le _
    | _ => exact (Bool.false_ne_true ht).elim
  · cases w with
    | mp => exact absurd rfl hw
    | _ => exact (Bool.false_ne_true ht).elim

end Sys2Proof.Machine


/-!
# The counters of NT, CK, PL, PE and LU, and the port (O27, third part)
-/

namespace Sys2Proof.Machine

/-! ## The refused beacons -/

/-- R123. -/
def TableCount (s : State) : Prop := s.nt.refused ≤ 255

theorem tableCount_reads : Reads [.nt] TableCount := fun s t same h => by
  have hnt : t.nt = s.nt := same .nt (by simp)
  unfold TableCount
  rw [hnt]
  exact h

theorem takeBeacon_counts (img : Image) (sender : Nat) (b : LastBeacon) {s : State} (h : TableCount s) :
    TableCount (takeBeacon img sender b s) := by
  rcases takeBeacon_cases img sender b s with ⟨p, -, e⟩ | ⟨-, ⟨p, -, e⟩ | ⟨-, ⟨p, -, e⟩ | ⟨-, e⟩⟩⟩ <;> rw [e]
  · exact h
  · exact h
  · exact h
  · exact satInc_le _ _

theorem receiveByte_tableCount (b : Byte) (framingError : Bool) {s : State} (h : TableCount s) :
    TableCount (receiveByte b framingError s) := by
  refine tableCount_reads.of_only (receiveByte_after b framingError s) rfl ?_
  rcases byteTaken_cases b framingError s with honly | ⟨img, f, u, -, -, -, hu, heq⟩
  · exact tableCount_reads.of_only honly rfl h
  · rw [heq]
    have hu' : TableCount u := tableCount_reads.of_only hu rfl h
    rcases dispatch_cases img f u with ⟨-, e⟩ | ⟨-, e⟩ | e | ⟨-, e⟩ | e
    · exact e ▸ takeBeacon_counts _ _ _ hu'
    · rw [e, TableCount, takeFlashAlert_nt, (takeFlashMode_rest _ u).1]
      exact hu'
    · rw [e]
      exact hu'
    · exact e ▸ tableCount_reads.of_only (takePreemptAlert_only _ _ _ u) rfl hu'
    · exact e ▸ tableCount_reads.of_only (takePlatoon_only _ _ _ _ u) rfl hu'

theorem completeLoad_refused (m : Image) (n : Nat) (s : State) : (completeLoad m n s).nt.refused = s.nt.refused :=
  (congrArg NtState.refused (completeLoad_rest m n s).2.2.2.2.1).trans rfl

theorem reloadStation_refused (s : State) : (reloadStation s).nt.refused = s.nt.refused := rfl

theorem LoadTaken.refused {s t : State} (h : LoadTaken s t) : t.nt.refused = s.nt.refused := by
  obtain ⟨-, raw, position, -, e⟩ := h
  rw [e]
  exact completeLoad_refused _ _ (s.withCf _)

theorem tableCount_kept : Kept TableCount := by
  refine tableCount_reads.kept (by decide) (fun c s t ht hc h hx => ?_) (fun m s ht _ h => ?_) fun w began s ht hw h => ?_
  · cases c with
    | powerOn => injection hx with hx; exact hx ▸ Nat.zero_le 255
    | resetPin => injection hx with hx; exact hx ▸ Nat.zero_le 255
    | loadEnd body =>
      rcases loadEnd_cases hx with e | hl | hl
      · exact e ▸ h
      · exact tableCount_reads.of_only hl.only rfl h
      · exact hl.refused.le.trans h
    | byteReceived b e => injection hx with hx; exact hx ▸ whenDue_keeps (fun _ => receiveByte_tableCount b e h) h
    | frameReceived b => injection hx with hx; exact hx ▸ whenDue_keeps (fun _ => receiveByte_tableCount b false h) h
    | entryStale p =>
      injection hx with hx
      rw [← hx]
      split
      · exact whenDue_keeps (fun _ => h) h
      · exact h
    | entryLost p =>
      injection hx with hx
      rw [← hx]
      split
      · exact whenDue_keeps (fun _ => h) h
      · exact h
    | _ => first | exact (Bool.false_ne_true ht).elim | exact (Bool.false_ne_true hc).elim
  · cases m with
    | reload => exact (reloadStation_refused s).le.trans h
    | blockRestart a =>
      show TableCount (blockRestartEffect a.toNat s)
      unfold blockRestartEffect
      split
      · exact tableCount_reads.of_only (restartLine_only s) rfl h
      · split
        · exact tableCount_reads.of_only (restartClock_only _) rfl (Nat.zero_le 255)
        · exact tableCount_reads.of_only (blockRestartDetectors_only s) rfl h
    | _ => exact (Bool.false_ne_true ht).elim
  · cases w with
    | mp => exact absurd rfl hw
    | neighbors => exact h
    | _ => exact (Bool.false_ne_true ht).elim

/-! ## The marks since the last evaluation -/

/-- R97. -/
def MarkCount (s : State) : Prop := s.ck.record.marks ≤ 255

theorem markCount_reads : Reads [.ck] MarkCount := fun s t same h => by
  have hck : t.ck = s.ck := same .ck (by simp)
  unfold MarkCount
  rw [hck]
  exact h

theorem followPlan_record (img : Image) (s : State) : (followPlan img s).ck.record = s.ck.record := by
  unfold followPlan
  split
  · rfl
  · split
    · rfl
    · split <;> rfl

theorem synchronise_counts (img : Image) (s : State) : MarkCount (synchronise img s) := by
  unfold synchronise
  split
  · split
    · split <;> exact satInc_le _ _
    · show (discipline img _ _ s.ck).record.marks ≤ 255
      unfold discipline
      dsimp only
      split <;> exact Nat.zero_le _
  · exact satInc_le _ _

theorem markStage_counts (img : Image) {s : State} (h : MarkCount s) : MarkCount (markStage img s) := by
  unfold markStage
  split
  · rw [MarkCount, followPlan_record]
    exact synchronise_counts img s
  · exact h

theorem secondStage_record (img : Image) (s : State) : (secondStage img s).ck.record = s.ck.record := by
  rw [secondStage_ck]
  split <;> rfl

theorem adoptPending_record (img : Image) (s : State) : (adoptPending img s).ck.record = s.ck.record := by
  unfold adoptPending
  split <;> rfl

theorem runCycle_record (img : Image) (r : PlanRecord) (s : State) : (runCycle img r s).ck.record = s.ck.record := by
  unfold runCycle
  dsimp only
  split
  · exact adoptPending_record img _
  · rfl

theorem ckWork_counts {s : State} (h : MarkCount s) : MarkCount (ckWork s) := by
  have staged (img : Image) : MarkCount (secondStage img (markStage img s)) := by
    rw [MarkCount, secondStage_record]
    exact markStage_counts img h
  unfold ckWork
  split
  · dsimp only
    split
    · split
      · exact staged _
      · exact (congrArg EvalRecord.marks (runCycle_record _ _ _)).le.trans (staged _)
    · split
      · exact (congrArg EvalRecord.marks (adoptPending_record _ _)).le.trans (staged _)
      · exact staged _
  · exact h

theorem reportFinished_record (f : TxFrame) (s : State) : (reportFinished f s).ck.record = s.ck.record := by
  unfold reportFinished
  split <;> rfl

theorem attemptFailed_record (s : State) : (attemptFailed s).ck.record = s.ck.record := by
  unfold attemptFailed
  split
  · rfl
  · dsimp only
    split
    · rfl
    · exact reportFinished_record _ _

theorem attemptSucceeded_record (s : State) : (attemptSucceeded s).ck.record = s.ck.record := by
  unfold attemptSucceeded
  split
  · rfl
  · exact reportFinished_record _ _

theorem receiveByte_record (b : Byte) (framingError : Bool) (s : State) :
    (receiveByte b framingError s).ck.record = s.ck.record := by
  have hck : (byteTaken b framingError s).ck = s.ck := (byteTaken_only b framingError s).ck (by simp)
  rw [receiveByte_eq]
  unfold readback
  rw [← hck]
  split
  · rfl
  · split
    · exact attemptFailed_record _
    · split
      · exact attemptSucceeded_record _
      · rfl

theorem restartLine_record (s : State) : (restartLine s).ck.record = s.ck.record := by
  unfold restartLine
  split
  · rfl
  · dsimp only
    split
    · exact reportFinished_record .beacon s
    · rfl

theorem restartClock_record (s : State) : (restartClock s).ck.record = s.ck.record := by
  unfold restartClock
  dsimp only
  split <;> rfl

theorem markCount_kept : Kept MarkCount := by
  have same {s t : State} (h : MarkCount s) (e : t.ck.record = s.ck.record) : MarkCount t :=
    (congrArg EvalRecord.marks e).le.trans h
  refine markCount_reads.kept (by decide) (fun c s t ht hc h hx => ?_) (fun m s ht _ h => ?_) fun w began s ht hw h => ?_
  · cases c with
    | powerOn => injection hx with hx; exact hx ▸ Nat.zero_le 255
    | resetPin => injection hx with hx; exact hx ▸ Nat.zero_le 255
    | loadEnd body =>
      rcases loadEnd_cases hx with e | hl | ⟨-, raw, position, -, e⟩
      · exact e ▸ h
      · exact markCount_reads.of_only hl.only rfl h
      · exact e ▸ Nat.zero_le 255
    | unsyncGiveUp =>
      injection hx with hx
      rw [← hx]
      refine whenDue_keeps (fun _ => same h ?_) h
      show (missJumpIn s.ck).record = _
      unfold missJumpIn
      split <;> rfl
    | holdEnd => injection hx with hx; exact hx ▸ whenDue_keeps (fun _ => h) h
    | planHoldExpiry => injection hx with hx; exact hx ▸ whenDue_keeps (fun _ => h) h
    | planAdoption =>
      injection hx with hx
      rw [← hx]
      split
      · exact h
      · exact whenDue_keeps (fun _ => same h (adoptPending_record _ s)) h
    | beaconDue =>
      injection hx with hx
      rw [← hx]
      split
      · exact h
      · exact whenDue_keeps (fun _ => same h (by rw [countBeacon_ck])) h
    | byteNotReceivedBack => injection hx with hx; exact hx ▸ whenDue_keeps (fun _ => same h (attemptFailed_record s)) h
    | byteReceived b e => injection hx with hx; exact hx ▸ whenDue_keeps (fun _ => same h (receiveByte_record b e s)) h
    | frameReceived b => injection hx with hx; exact hx ▸ whenDue_keeps (fun _ => same h (receiveByte_record b false s)) h
    | _ => first | exact (Bool.false_ne_true ht).elim | exact (Bool.false_ne_true hc).elim
  · cases m with
    | reload => exact Nat.zero_le _
    | selectPlan a =>
      show MarkCount (selectPlanEffect a s)
      unfold selectPlanEffect selectPlan
      split
      · split <;> exact h
      · exact h
    | blockRestart a =>
      show MarkCount (blockRestartEffect a.toNat s)
      unfold blockRestartEffect
      split
      · exact same h (restartLine_record s)
      · split
        · exact same h (restartClock_record (restartTable s))
        · exact markCount_reads.of_only (blockRestartDetectors_only s) rfl h
    | _ => exact (Bool.false_ne_true ht).elim
  · cases w with
    | mp => exact absurd rfl hw
    | clock => exact ckWork_counts h
    | _ => exact (Bool.false_ne_true ht).elim

/-! ## The counters of the Platoon Unit -/

/-- R146. -/
def PlatoonCounts (s : State) : Prop :=
  s.pl.withheld ≤ 65535 ∧ s.pl.unlinked ≤ 65535 ∧ s.pl.stale ≤ 65535 ∧ s.pl.overflow ≤ 65535

theorem platoonCounts_reads : Reads [.pl] PlatoonCounts := fun s t same h => by
  have hpl : t.pl = s.pl := same .pl (by simp)
  unfold PlatoonCounts
  rw [hpl]
  exact h

/-- R135, R161: the links and the queue of PL are set anew; its counters stand. -/
def SamePlatoonCounts (s t : State) : Prop :=
  t.pl.withheld = s.pl.withheld ∧ t.pl.unlinked = s.pl.unlinked ∧ t.pl.stale = s.pl.stale ∧ t.pl.overflow = s.pl.overflow

theorem SamePlatoonCounts.counts {s t : State} (h : SamePlatoonCounts s t) (hs : PlatoonCounts s) : PlatoonCounts t := by
  obtain ⟨hw, hu, hst, ho⟩ := h
  unfold PlatoonCounts
  rw [hw, hu, hst, ho]
  exact hs

theorem completeLoad_platoonCounts (m : Image) (n : Nat) (s : State) : SamePlatoonCounts s (completeLoad m n s) :=
  ⟨rfl, rfl, rfl, rfl⟩

theorem LoadTaken.platoonCounts {s t : State} (h : LoadTaken s t) : SamePlatoonCounts s t := by
  obtain ⟨-, raw, position, -, e⟩ := h
  have loaded := completeLoad_platoonCounts (clampImage raw) (clampedCount raw (clampImage raw))
    (s.withCf { s.cf with position := position })
  rw [← e] at loaded
  exact loaded

theorem reloadStation_platoonCounts (s : State) : SamePlatoonCounts s (reloadStation s) := ⟨rfl, rfl, rfl, rfl⟩

theorem enterStartRed_platoonCounts (s : State) : SamePlatoonCounts s (enterStartRed s) := ⟨rfl, rfl, rfl, rfl⟩

theorem restartStation_platoonCounts (s : State) : SamePlatoonCounts s (restartStation s) := ⟨rfl, rfl, rfl, rfl⟩

theorem formNotice_counts (p : Place) {s : State} (h : PlatoonCounts s) : PlatoonCounts (formNotice p s) := by
  obtain ⟨hw, hu, hs, ho⟩ := h
  unfold formNotice
  split
  · dsimp only
    split
    · split
      · exact ⟨satInc_le _ _, hu, hs, ho⟩
      · rw [PlatoonCounts, offer_pl]
        exact ⟨hw, hu, hs, ho⟩
    · exact ⟨satInc_le _ _, hu, hs, ho⟩
  · exact ⟨hw, hu, hs, ho⟩

theorem formNotices_counts : ∀ (ps : List Place) {s : State}, PlatoonCounts s → PlatoonCounts (ps.foldl (fun t p => formNotice p t) s)
  | [], _, h => h
  | p :: ps, _, h => formNotices_counts ps (formNotice_counts p h)

theorem onEdge_counts (r : DetectorRecord) (d : Detector) {s : State} (h : PlatoonCounts s) : PlatoonCounts (onEdge r d s) := by
  have called : PlatoonCounts (sendCall r (setDet d (onEdgeOf s.du[d]) s)) :=
    platoonCounts_reads.of_only (sendCall_only r _) rfl (platoonCounts_reads.of_only (setDet_only d _ s) rfl h)
  unfold onEdge
  dsimp only
  split
  · exact formNotices_counts _ (s := State.withPl _ _) called
  · exact called

theorem detectorTick_counts (img : Image) (d : Detector) {s : State} (h : PlatoonCounts s) : PlatoonCounts (detectorTick img s d) := by
  unfold detectorTick
  dsimp only
  split
  · exact h
  · split
    · split
      · exact h
      · exact onEdge_counts _ d h
    · exact h

theorem detectorTicks_counts (img : Image) : ∀ (ds : List Detector) {s : State}, PlatoonCounts s →
    PlatoonCounts (ds.foldl (detectorTick img) s)
  | [], _, h => h
  | d :: ds, _, h => detectorTicks_counts img ds (detectorTick_counts img d h)

theorem insertIntoQueue_counts (x : Notice) {s : State} (h : PlatoonCounts s) : PlatoonCounts (insertIntoQueue x s) := by
  have called : PlatoonCounts (if x.active then writeStageCalls x.stage s else s) := by
    split
    · exact platoonCounts_reads.of_only (writeStageCalls_only _ s) rfl h
    · exact h
  unfold insertIntoQueue
  dsimp only
  generalize (if x.active then writeStageCalls x.stage s else s) = u at called ⊢
  obtain ⟨hw, hu, hs, ho⟩ := called
  split
  · exact ⟨hw, hu, hs, satInc_le _ _⟩
  · exact ⟨hw, hu, hs, ho⟩

theorem takePlatoon_counts (sender serial elapsed duration : Nat) {s : State} (h : PlatoonCounts s) :
    PlatoonCounts (takePlatoon sender serial elapsed duration s) := by
  obtain ⟨hw, hu, hs, ho⟩ := h
  unfold takePlatoon
  split
  · exact ⟨hw, hu, hs, ho⟩
  · split
    · exact ⟨hw, satInc_le _ _, hs, ho⟩
    · dsimp only
      split
      · exact ⟨hw, hu, satInc_le _ _, ho⟩
      · split
        · exact ⟨hw, hu, hs, ho⟩
        · exact insertIntoQueue_counts _ ⟨hw, hu, hs, ho⟩

theorem receiveByte_platoonCounts (b : Byte) (framingError : Bool) {s : State} (h : PlatoonCounts s) :
    PlatoonCounts (receiveByte b framingError s) := by
  refine platoonCounts_reads.of_only (receiveByte_after b framingError s) rfl ?_
  rcases byteTaken_cases b framingError s with honly | ⟨img, f, u, -, -, -, hu, heq⟩
  · exact platoonCounts_reads.of_only honly rfl h
  · rw [heq]
    have hu' : PlatoonCounts u := platoonCounts_reads.of_only hu rfl h
    rcases dispatch_cases img f u with ⟨-, e⟩ | ⟨-, e⟩ | e | ⟨-, e⟩ | e
    · exact e ▸ platoonCounts_reads.of_only (takeBeacon_only _ _ _ u) rfl hu'
    · rw [e]
      have hm : PlatoonCounts (takeFlashMode (num f 1) u) := platoonCounts_reads.of_only (takeFlashMode_only _ u) rfl hu'
      have purged : PlatoonCounts (purgeSender (num f 1) (takeFlashMode (num f 1) u)) := hm
      exact platoonCounts_reads.of_only (cancelAlert_only _ _) rfl purged
    · rw [e]
      exact hu'
    · exact e ▸ platoonCounts_reads.of_only (takePreemptAlert_only _ _ _ u) rfl hu'
    · exact e ▸ takePlatoon_counts _ _ _ _ hu'

theorem enterFlash_platoonCounts (mode : Mode) (cause : AlertCause) {s : State} (h : PlatoonCounts s) :
    PlatoonCounts (enterFlash mode cause s) := by
  have left : PlatoonCounts (leaveRun s) := platoonCounts_reads.of_only (leaveRun_only s) rfl h
  rw [enterFlash_eq_offer, PlatoonCounts, offer_pl]
  exact left

theorem enterRun_pl (s : State) : (enterRun s).pl = s.pl := (enterRun_only s).pl (by simp)

theorem modeAfterTimer_platoonCounts {s : State} (h : PlatoonCounts s) : PlatoonCounts (modeAfterTimer s) := by
  unfold modeAfterTimer
  split
  · exact h
  · rw [PlatoonCounts, enterRun_pl]
    exact h
  · exact h

theorem modeTimerWork_platoonCounts {began : Mode} {s : State} (h : PlatoonCounts s) : PlatoonCounts (modeTimerWork began s) := by
  unfold modeTimerWork
  dsimp only
  split
  · split
    · exact modeAfterTimer_platoonCounts (s := s.withOs _) h
    · exact h
  · exact h

theorem latchFault_platoonCounts (cause : FaultCause) (further : Nat) {s : State} (h : PlatoonCounts s) :
    PlatoonCounts (latchFault cause further s) := enterFlash_platoonCounts .faultFlash .fault (s := s.withOs _) h

theorem monitorWork_platoonCounts {s : State} (h : PlatoonCounts s) : PlatoonCounts (monitorWork s) := by
  rcases monitorWork_cases s with e | ⟨img, -, -, e | ⟨c, further, e⟩⟩ <;> rw [e]
  · exact h
  · exact h
  · exact latchFault_platoonCounts c further (s := s.withOs (countedOs img s)) h

theorem reportHalt_platoonCounts {s : State} (h : PlatoonCounts s) : PlatoonCounts (reportHalt s) :=
  enterFlash_platoonCounts .manualFlash .manual (s := s.withSq _) h

/-- R135: a reading of the greens leaves the counters. -/
theorem readGreens_platoonCounts {s u : State} (h : PlatoonCounts s) (ho : Only [.ge, .sq] s u) : PlatoonCounts (readGreens u) := by
  have hu : PlatoonCounts u := platoonCounts_reads.of_only ho rfl h
  exact hu

theorem sqWork_platoonCounts {s : State} (h : PlatoonCounts s) : PlatoonCounts (sqWork s) := by
  unfold sqWork
  split
  · have steps := sqSteps_only s
    unfold sqEvaluation
    generalize runSelection (testTermination (takeOrders (followChange (countSqTimers s)))) = u at steps ⊢
    have evaluated : PlatoonCounts (readGreens (u.withSq { u.sq with yieldWasOpen := u.ck.report.yieldOpen })) :=
      readGreens_platoonCounts h (steps.trans ((withSq_only u _).mono (by simp)))
    dsimp only
    split
    · exact reportHalt_platoonCounts evaluated
    · exact evaluated
  · exact h

theorem plQueueWork_counts {s : State} (h : PlatoonCounts s) : PlatoonCounts (plQueueWork s) := by
  unfold plQueueWork
  split
  · exact platoonCounts_reads.of_only (writeNoticeCalls _ (setQueue _ s)).1 rfl h
  · exact h

theorem platoonCounts_event {c : Instr} {s t : State} (ht : touches [.pl] (Instr.reaches c) = true)
    (hc : Instr.isEvent c = true) (h : PlatoonCounts s) (hx : exec c s = .next t) : PlatoonCounts t := by
  have zero : PlatoonCounts State.reset := ⟨Nat.zero_le _, Nat.zero_le _, Nat.zero_le _, Nat.zero_le _⟩
  cases c with
  | powerOn => injection hx with hx; exact hx ▸ zero
  | resetPin => injection hx with hx; exact hx ▸ zero
  | loadEnd body =>
    rcases loadEnd_cases hx with e | hl | hl
    · exact e ▸ h
    · exact platoonCounts_reads.of_only hl.only rfl h
    · exact hl.platoonCounts.counts h
  | passageTimerExpiry =>
    injection hx with hx
    rw [← hx]
    split
    · exact h
    · exact whenDue_keeps (fun _ => readGreens_platoonCounts h (latched_only s _ (withSq_only s _))) h
  | maxTimerExpiry =>
    injection hx with hx
    rw [← hx]
    split
    · exact h
    · exact whenDue_keeps (fun _ => readGreens_platoonCounts h (latched_only s _ (withSq_only s _))) h
  | holdExtensionExpiry =>
    injection hx with hx
    rw [← hx]
    exact whenDue_keeps (fun _ => readGreens_platoonCounts (s := s.withSq _) h (testYield_only true _)) h
  | stageChangeComplete =>
    injection hx with hx
    rw [← hx]
    split
    · exact h
    · exact whenDue_keeps (fun _ => readGreens_platoonCounts h (completeChange_only _ s)) h
  | peCommand target truncating =>
    injection hx with hx
    rw [← hx]
    exact whenDue_keeps (fun _ => readGreens_platoonCounts h (takeCommand_only _ _ s)) h
  | halt =>
    injection hx with hx
    rw [← hx]
    have taken : PlatoonCounts (readGreens (takeHalt s)) := readGreens_platoonCounts h (takeHalt_only s)
    refine whenDue_keeps (fun _ => ?_) h
    dsimp only
    split
    · exact reportHalt_platoonCounts taken
    · exact taken
  | haltDone => injection hx with hx; exact hx ▸ whenDue_keeps (fun _ => reportHalt_platoonCounts h) h
  | onEdge d =>
    injection hx with hx
    rw [← hx]
    split
    · exact h
    · exact whenDue_keeps (fun _ => onEdge_counts _ d h) h
  | byteReceived b e => injection hx with hx; exact hx ▸ whenDue_keeps (fun _ => receiveByte_platoonCounts b e h) h
  | frameReceived b => injection hx with hx; exact hx ▸ whenDue_keeps (fun _ => receiveByte_platoonCounts b false h) h
  | noticeFormed p =>
    injection hx with hx
    rw [← hx]
    split
    · exact whenDue_keeps (fun _ => formNotice_counts p (s := s.withPl _) h) h
    · exact h
  | noticeActivation sender serial =>
    injection hx with hx
    rw [← hx]
    split
    · exact h
    · exact whenDue_keeps (fun _ => platoonCounts_reads.of_only (writeStageCalls_only _ (setQueue _ s)) rfl h) h
  | noticeEnd sender serial =>
    injection hx with hx
    rw [← hx]
    split
    · exact h
    · exact whenDue_keeps (fun _ => h) h
  | modeTimerExpiry =>
    injection hx with hx
    rw [← hx]
    exact whenDue_keeps (fun _ => modeAfterTimer_platoonCounts (s := s.withOs _) h) h
  | conflict a b =>
    injection hx with hx
    rw [← hx]
    split
    · exact h
    · exact whenDue_keeps (fun _ => latchFault_platoonCounts _ _ h) h
  | mismatch ch l => injection hx with hx; exact hx ▸ whenDue_keeps (fun _ => latchFault_platoonCounts _ _ h) h
  | _ => first | exact (Bool.false_ne_true ht).elim | exact (Bool.false_ne_true hc).elim

theorem platoonCounts_kept : Kept PlatoonCounts := by
  refine platoonCounts_reads.kept (by decide) (fun _ _ _ ht hc h hx => platoonCounts_event ht hc h hx) (fun m s ht _ h => ?_)
    fun w began s ht hw h => ?_
  · cases m with
    | manualFlashOff => exact (enterStartRed_platoonCounts s).counts h
    | restart => exact (restartStation_platoonCounts s).counts h
    | reload => exact (reloadStation_platoonCounts s).counts h
    | _ => exact (Bool.false_ne_true ht).elim
  · cases w with
    | mp => exact absurd rfl hw
    | sequencer => exact sqWork_platoonCounts h
    | detectors =>
      show PlatoonCounts (duWork s)
      unfold duWork
      split
      · exact h
      · exact detectorTicks_counts _ _ h
    | platoonCountdown => exact plQueueWork_counts h
    | greenTimers =>
      show PlatoonCounts (plTimerWork s)
      unfold plTimerWork
      split <;> exact h
    | supervisor =>
      exact supervisorWork_keeps (P := PlatoonCounts) (fun _ => monitorWork_platoonCounts) (fun _ => modeTimerWork_platoonCounts) s h
    | _ => exact (Bool.false_ne_true ht).elim

end Sys2Proof.Machine


/-!
# The counters of PE and LU, the marks and the port (O27, fourth part)
-/

namespace Sys2Proof.Machine

/-! ## The counters of the Preemption Unit -/

/-- R162. -/
def PeState.Counted (pe : PeState) : Prop := pe.withheld ≤ 65535 ∧ pe.ignored ≤ 65535

/-- The counters stay in their range from one state of the unit to the next. -/
def PeCounts (p q : PeState) : Prop := p.Counted → q.Counted

theorem PeCounts.of_same {p q : PeState} (hw : q.withheld = p.withheld) (hi : q.ignored = p.ignored) : PeCounts p q := fun h => by
  unfold PeState.Counted
  rw [hw, hi]
  exact h

theorem PeCounts.refl (p : PeState) : PeCounts p p := id

theorem PeCounts.trans {p q r : PeState} (h : PeCounts p q) (k : PeCounts q r) : PeCounts p r := k ∘ h

theorem PeCounts.of_only {bs : List Block} {s t : State} (h : Only bs s t) (hb : .pe ∉ bs) : PeCounts s.pe t.pe := by
  rw [h.pe hb]
  exact .refl _

theorem PeCounts.foldl {f : PeState → PreClass → PeState} (hf : ∀ p c, PeCounts p (f p c)) :
    ∀ (l : List PreClass) (p : PeState), PeCounts p (l.foldl f p)
  | [], p => .refl p
  | c :: l, p => (hf p c).trans (PeCounts.foldl hf l (f p c))

theorem PeCounts.after {f : State → State} (hf : ∀ u, PeCounts u.pe (f u).pe) {s : State} {pe : PeState} (h : PeCounts s.pe pe) :
    PeCounts s.pe (f (s.withPe pe)).pe := h.trans (hf (s.withPe pe))

theorem setRequest_counts (p : PeState) (c : PreClass) (r : Request) : PeCounts p (p.setRequest c r) := .of_same rfl rfl

theorem sampleRequests_counts (img : Image) (s : State) : PeCounts s.pe (sampleRequests img s).pe :=
  PeCounts.foldl (f := fun pe c => pe.setCls c (filterRequest (img.cls c).onDelay (rawInput s c) (pe.cls c)))
    (fun _ _ => .of_same rfl rfl) _ _

theorem moveRequest_counts (s : State) (pe : PeState) (c : PreClass) : PeCounts pe (moveRequest s pe c) := by
  unfold moveRequest
  dsimp only
  split <;> exact .of_same rfl rfl

theorem raiseLineRequest_counts (img : Image) (pe : PeState) : PeCounts pe (raiseLineRequest img pe) := by
  unfold raiseLineRequest
  split <;> exact .of_same rfl rfl

theorem takeLineAlert_counts (img : Image) (pe : PeState) : PeCounts pe (takeLineAlert img pe) := by
  unfold takeLineAlert
  split
  · split
    · exact raiseLineRequest_counts img pe
    · exact .refl pe
  · exact .refl pe

theorem endLineDwell_counts (pe : PeState) : PeCounts pe (endLineDwell pe) := by
  unfold endLineDwell
  split <;> exact .of_same rfl rfl

theorem moveRequests_counts (img : Image) (s : State) : PeCounts s.pe (moveRequests img s).pe := by
  have moved : PeCounts s.pe (allClasses.foldl (moveRequest s) s.pe) := .foldl (moveRequest_counts s) _ _
  unfold moveRequests
  rw [State.withPe_pe]
  generalize allClasses.foldl (moveRequest s) s.pe = pe at moved ⊢
  exact (moved.trans (takeLineAlert_counts img pe)).trans (endLineDwell_counts _)

theorem placeCommand_counts (y : Option Stage) (b : Bool) (s : State) : PeCounts s.pe (placeCommand y b s).pe := by
  cases y <;> exact .of_same rfl rfl

theorem startService_counts (img : Image) (c : PreClass) (s : State) : PeCounts s.pe (startService img c s).pe :=
  placeCommand_counts _ _ (s.withPe { s.pe with service := some _ })

theorem resumeService_counts (img : Image) (r : Stacked) (s : State) : PeCounts s.pe (resumeService img r s).pe :=
  placeCommand_counts _ _ (s.withPe { s.pe with service := some _ })

theorem startIfIdle_counts (img : Image) (s : State) : PeCounts s.pe (startIfIdle img s).pe := by
  unfold startIfIdle
  split
  · exact startService_counts img _ s
  · exact .refl _

/-- R158: an alert withheld is counted up to the counter's maximum. -/
theorem sendAlert_counts (img : Image) (v : Service) (s : State) : PeCounts s.pe (sendAlert img v s).pe := by
  unfold sendAlert
  split
  · split
    · exact .refl _
    · dsimp only
      split
      · rw [offer_pe]
        exact .of_same rfl rfl
      · exact fun ⟨_, hi⟩ => ⟨satInc_le _ _, hi⟩
  · exact .refl _

theorem enterDwell_counts (img : Image) (s : State) : PeCounts s.pe (enterDwell img s).pe := by
  unfold enterDwell
  split
  · split
    · dsimp only
      refine PeCounts.trans ?_ (sendAlert_counts img _ _)
      split <;> exact .of_same rfl rfl
    · exact .refl _
  · exact .refl _

theorem loadInhibit_counts (img : Image) (v : Service) (pe : PeState) : PeCounts pe (loadInhibit img v pe) := by
  unfold loadInhibit
  split <;> exact .of_same rfl rfl

theorem examineStack_counts : ∀ (l : List Stacked) (pe : PeState), PeCounts pe (examineStack pe l)
  | [], pe => .of_same rfl rfl
  | r :: rest, pe => by
    unfold examineStack
    split
    · exact examineStack_counts rest pe
    · split
      · exact (setRequest_counts pe r.cls .lockedOut).trans (examineStack_counts rest _)
      · exact .of_same rfl rfl

theorem chooseService_counts (img : Image) (s : State) : PeCounts s.pe (chooseService img s).pe := by
  unfold chooseService
  split
  · split
    · exact startService_counts img _ s
    · exact PeCounts.after (resumeService_counts img _) (.of_same rfl rfl)
  · exact PeCounts.after (resumeService_counts img _) (.of_same rfl rfl)
  · exact startService_counts img _ s
  · exact .of_same rfl rfl

theorem endService_counts (img : Image) (s : State) : PeCounts s.pe (endService img s).pe := by
  unfold endService
  split
  · exact .refl _
  next v hv =>
    dsimp only
    refine (loadInhibit_counts img v s.pe).trans ?_
    generalize loadInhibit img v s.pe = pe
    exact (examineStack_counts pe.stack { pe with service := none }).trans (chooseService_counts img (s.withPe _))

theorem enterExit_counts (img : Image) (v : Service) (s : State) : PeCounts s.pe (enterExit img v s).pe := by
  unfold enterExit
  dsimp only
  split
  · exact placeCommand_counts _ _ (s.withPe { s.pe with service := some { v with phase := .exit } })
  · exact endService_counts img (s.withPe { s.pe with service := some { v with phase := .exit } })

theorem maxDwellExit_counts (img : Image) (v : Service) (s : State) : PeCounts s.pe (maxDwellExit img v s).pe := by
  unfold maxDwellExit
  dsimp only
  refine PeCounts.trans ?_ (enterExit_counts img _ _)
  rw [State.withPe_pe]
  split <;> exact .of_same rfl rfl

theorem exitDwell_counts (img : Image) (s : State) : PeCounts s.pe (exitDwell img s).pe := by
  unfold exitDwell
  split
  · exact .refl _
  · split
    · exact maxDwellExit_counts img _ s
    · split
      · exact enterExit_counts img _ s
      · exact .refl _

theorem finishExit_counts (img : Image) (s : State) : PeCounts s.pe (finishExit img s).pe := by
  unfold finishExit
  split
  · exact endService_counts img s
  · exact .refl _

theorem takeOver_counts (img : Image) (s : State) : PeCounts s.pe (takeOver img s).pe := by
  unfold takeOver
  split
  · split
    · split
      · exact endService_counts img s
      · exact PeCounts.after (startService_counts img _) (.of_same rfl rfl)
    · exact .refl _
  · exact .refl _

theorem serviceDecisions_counts (img : Image) (s : State) : PeCounts s.pe (serviceDecisions img s).pe := by
  unfold serviceDecisions
  dsimp only
  refine (startIfIdle_counts img s).trans ?_
  generalize startIfIdle img s = u
  refine PeCounts.trans ?_ (enterDwell_counts img _)
  have decided : PeCounts u.pe (if Config.higherClassFirst s.free then exitDwell img (enterDwell img (takeOver img u))
      else takeOver img (exitDwell img (enterDwell img u))).pe := by
    split
    · exact ((takeOver_counts img u).trans (enterDwell_counts img _)).trans (exitDwell_counts img _)
    · exact ((enterDwell_counts img u).trans (exitDwell_counts img _)).trans (takeOver_counts img _)
  refine decided.trans ?_
  generalize (if Config.higherClassFirst s.free then exitDwell img (enterDwell img (takeOver img u))
      else takeOver img (exitDwell img (enterDwell img u))) = t
  split
  · exact finishExit_counts img t
  · exact .refl _

theorem peWork_counts (s : State) : PeCounts s.pe (peWork s).pe := by
  have inhibit : PeCounts s.pe (countInhibit s).pe := by
    unfold countInhibit
    split <;> exact .of_same rfl rfl
  unfold peWork
  split
  · exact .refl _
  next img _ =>
    split
    · unfold peEvaluation
      dsimp only
      refine inhibit.trans ((sampleRequests_counts img _).trans ?_)
      generalize sampleRequests img (countInhibit s) = u
      split
      · exact PeCounts.trans (q := countPeTimers u.pe) (.of_same rfl rfl)
          ((moveRequests_counts img (u.withPe (countPeTimers u.pe))).trans (serviceDecisions_counts img _))
      · exact (moveRequests_counts img u).trans (serviceDecisions_counts img _)
    · exact inhibit

theorem leaveRun_counts (s : State) : PeCounts s.pe (leaveRun s).pe := by
  unfold leaveRun
  split <;> exact .of_same rfl rfl

theorem enterFlash_peCounts (mode : Mode) (cause : AlertCause) (s : State) : PeCounts s.pe (enterFlash mode cause s).pe := by
  rw [enterFlash_eq_offer, offer_pe, flashEntered_pe]
  exact leaveRun_counts s

theorem latchFault_counted (cause : FaultCause) (further : Nat) (s : State) : PeCounts s.pe (latchFault cause further s).pe :=
  enterFlash_peCounts .faultFlash .fault (s.withOs { s.os with
    fault := some { cause := cause, mode := s.os.mode }, additional := satAdd 255 further s.os.additional })

theorem monitorWork_counted (s : State) : PeCounts s.pe (monitorWork s).pe := by
  rcases monitorWork_cases s with h | ⟨img, -, -, h | ⟨c, further, h⟩⟩ <;> rw [h]
  · exact .refl _
  · exact .refl _
  · exact latchFault_counted c further (s.withOs (countedOs img s))

theorem sqWork_counted (s : State) : PeCounts s.pe (sqWork s).pe := by
  rcases sqWork_cases s with h | ⟨u, h, hf, heq⟩
  · exact .of_only h (by simp)
  · rw [heq]
    exact (PeCounts.of_only h (by simp)).trans (.of_only (reportHalt_only_of_finished hf) (by simp))

theorem supervisorWork_counted (began : Mode) (s : State) : PeCounts s.pe (supervisorWork began s).pe :=
  supervisorWork_keeps (P := fun u => PeCounts s.pe u.pe) (fun u h => h.trans (monitorWork_counted u))
    (fun u h => h.trans (.of_only (modeTimerWork_only began u) (by simp))) s (.refl _)

/-- R159: an alert ignored is counted up to the counter's maximum. -/
theorem takePreemptAlert_counts (sender serial eta : Nat) (s : State) :
    PeCounts s.pe (takePreemptAlert sender serial eta s).pe := by
  unfold takePreemptAlert
  split
  · exact .refl _
  · dsimp only
    have ignored : PeCounts s.pe (countIgnored s).pe := fun h => ⟨h.1, satInc_le _ _⟩
    split_ifs
    · exact ignored
    · exact .of_same rfl rfl

theorem receiveByte_counts (b : Byte) (framingError : Bool) (s : State) : PeCounts s.pe (receiveByte b framingError s).pe := by
  rw [(receiveByte_after b framingError s).pe (by simp)]
  rcases byteTaken_cases b framingError s with honly | ⟨img, f, u, -, -, -, hu, heq⟩
  · exact .of_only honly (by simp)
  · rw [heq]
    refine (PeCounts.of_only hu (by simp)).trans ?_
    rcases dispatch_cases img f u with ⟨-, h⟩ | ⟨-, h⟩ | h | ⟨-, h⟩ | h
    · exact h ▸ .of_only (takeBeacon_only _ _ _ u) (by simp)
    · rw [h]
      unfold takeFlashAlert
      rw [cancelAlert_pe]
      refine ((PeCounts.of_only (takeFlashMode_only (num f 1) u) (by simp)).trans
        (.of_only (purgeSender_only (num f 1) _) (by simp))).trans (.of_same rfl rfl)
    · rw [h]
      exact .refl _
    · exact h ▸ takePreemptAlert_counts _ _ _ u
    · exact h ▸ .of_only (takePlatoon_only _ _ _ _ u) (by simp)

theorem decided_counts {s : State} {pe : PeState} (img : Image) (h : PeCounts s.pe pe) :
    PeCounts s.pe (serviceDecisions img (s.withPe pe)).pe :=
  h.trans (serviceDecisions_counts img (s.withPe pe))

theorem whenDue_counts {c : Bool} {s t : State} (h : PeCounts s.pe t.pe) : PeCounts s.pe (whenDue c t s).pe := by
  rcases whenDue_cases c t s with ⟨-, e⟩ | e <;> rw [e]
  · exact h
  · exact .refl _

theorem reset_counted (p : PeState) : PeCounts p PeState.reset := fun _ => ⟨Nat.zero_le _, Nat.zero_le _⟩

theorem reloadStation_peCounts (s : State) : PeCounts s.pe (reloadStation s).pe := .of_same rfl rfl

theorem restartStation_peCounts (s : State) : PeCounts s.pe (restartStation s).pe := .of_same rfl rfl

theorem LoadTaken.peCounts {s t : State} (h : LoadTaken s t) : PeCounts s.pe t.pe := by
  obtain ⟨-, raw, position, -, e⟩ := h
  have loaded : PeCounts s.pe (completeLoad (clampImage raw) (clampedCount raw (clampImage raw))
      (s.withCf { s.cf with position := position })).pe := .of_same rfl rfl
  rwa [← e] at loaded

theorem peCounts_event {c : Instr} {s t : State} (ht : touches [.pe] (Instr.reaches c) = true) (hc : Instr.isEvent c = true)
    (hx : exec c s = .next t) : PeCounts s.pe t.pe := by
  cases c with
  | powerOn => injection hx with hx; exact hx ▸ reset_counted _
  | resetPin => injection hx with hx; exact hx ▸ reset_counted _
  | loadEnd body =>
    rcases loadEnd_cases hx with h | h | h
    · exact h ▸ .refl _
    · exact .of_only h.only (by simp)
    · exact h.peCounts
  | byteReceived b e => injection hx with hx; exact hx ▸ whenDue_counts (receiveByte_counts b e s)
  | frameReceived b => injection hx with hx; exact hx ▸ whenDue_counts (receiveByte_counts b false s)
  | requestInputOn c =>
    unfold exec execRequestInputOn at hx
    obtain rfl | ⟨img, -, -, -, rfl⟩ := peEvent_cases hx
    · exact .refl _
    · have filtered : PeCounts s.pe (setFilter c true s).pe := .of_same rfl rfl
      generalize setFilter c true s = u at filtered ⊢
      dsimp only
      refine filtered.trans (decided_counts img ?_)
      split <;> exact .of_same rfl rfl
  | dwellEntry =>
    unfold exec execDwellEntry at hx
    obtain rfl | ⟨img, -, -, -, rfl⟩ := peEvent_cases hx
    · exact .refl _
    · exact ((enterDwell_counts img s).trans (exitDwell_counts img _)).trans (enterDwell_counts img _)
  | minDwellExpiry =>
    unfold exec execMinDwellExpiry at hx
    obtain rfl | ⟨img, -, -, -, rfl⟩ := peEvent_cases hx
    · exact .refl _
    · split
      · exact (enterExit_counts img _ s).trans (enterDwell_counts img _)
      · exact .refl _
  | maxDwellExpiry =>
    unfold exec execMaxDwellExpiry at hx
    obtain rfl | ⟨img, -, -, -, rfl⟩ := peEvent_cases hx
    · exact .refl _
    · split
      · exact (maxDwellExit_counts img _ s).trans (enterDwell_counts img _)
      · exact .refl _
  | serviceEnd =>
    unfold exec execServiceEnd at hx
    obtain rfl | ⟨img, -, -, -, rfl⟩ := peEvent_cases hx
    · exact .refl _
    · exact (endService_counts img s).trans (enterDwell_counts img _)
  | lineAlertCountdownExpiry =>
    unfold exec execLineAlertCountdownExpiry at hx
    obtain rfl | ⟨img, -, -, -, rfl⟩ := peEvent_cases hx
    · exact .refl _
    · exact decided_counts (pe := { raiseLineRequest img s.pe with alert := none }) img (raiseLineRequest_counts img s.pe)
  | lineDwellExpiry =>
    unfold exec execLineDwellExpiry at hx
    obtain rfl | ⟨img, -, -, -, rfl⟩ := peEvent_cases hx
    · exact .refl _
    · exact decided_counts img (endLineDwell_counts { s.pe with lineDwell := 0 })
  | inhibitExpiry =>
    unfold exec execInhibitExpiry at hx
    obtain rfl | ⟨img, -, -, -, rfl⟩ := peEvent_cases hx
    · exact .refl _
    · exact decided_counts (pe := PeState.setRequest { s.pe with inhibit := 0 } .transit
        (nextRequest (s.pe.cls .transit) true 0)) img (.of_same rfl rfl)
  | conflict a b =>
    injection hx with hx
    rw [← hx]
    split
    · exact .refl _
    · exact whenDue_counts (latchFault_counted _ _ s)
  | mismatch ch l => injection hx with hx; exact hx ▸ whenDue_counts (latchFault_counted _ _ s)
  | _ => first | exact (Bool.false_ne_true ht).elim | exact (Bool.false_ne_true hc).elim

/-- R162. -/
def PreemptionCounts (s : State) : Prop := s.pe.Counted

theorem preemptionCounts_reads : Reads [.pe] PreemptionCounts := fun s t same h => by
  have hpe : t.pe = s.pe := same .pe (by simp)
  unfold PreemptionCounts
  rw [hpe]
  exact h

theorem preemptionCounts_kept : Kept PreemptionCounts := by
  refine preemptionCounts_reads.kept (by decide) (fun _ _ _ ht hc h hx => peCounts_event ht hc hx h) (fun m s ht _ h => ?_)
    fun w began s ht hw h => ?_
  · cases m with
    | manualFlashOn =>
      show (manualFlashOnEffect s).pe.Counted
      unfold manualFlashOnEffect
      split
      · exact leaveRun_counts s h
      · exact h
    | restart => exact restartStation_peCounts s h
    | reload => exact reloadStation_peCounts s h
    | _ => exact (Bool.false_ne_true ht).elim
  · cases w with
    | mp => exact absurd rfl hw
    | sequencer => exact sqWork_counted s h
    | preemption => exact peWork_counts s h
    | supervisor => exact supervisorWork_counted began s h
    | _ => exact (Bool.false_ne_true ht).elim

/-! ## The counters of the Line Unit -/

/-- R116. -/
structure LineCounted (c : LineCounters) : Prop where
  sent : c.sent ≤ 65535
  collisions : c.collisions ≤ 65535
  dropped : c.dropped ≤ 65535
  received : c.received ≤ 65535
  crcErrors : c.crcErrors ≤ 65535
  fragments : c.fragments ≤ 65535
  malformed : c.malformed ≤ 65535
  clashes : c.clashes ≤ 65535

def LineCounts (s : State) : Prop := LineCounted s.lu.counters

theorem lineCounted_reset : LineCounted LineCounters.reset := by constructor <;> exact Nat.zero_le _

theorem lineCounts_reads : Reads [.lu] LineCounts := fun s t same h => by
  have hlu : t.lu = s.lu := same .lu (by simp)
  unfold LineCounts
  rw [hlu]
  exact h

theorem LineCounts.of_counters {s t : State} (h : LineCounts s) (e : t.lu.counters = s.lu.counters) : LineCounts t := by
  unfold LineCounts
  rw [e]
  exact h

theorem leaveIdle_counters (s : State) : (leaveIdle s).lu.counters = s.lu.counters := by
  unfold leaveIdle
  split
  · split
    · rfl
    · exact (drawBackoff_rest s).2.1
  · rfl

theorem offer_counters (f : TxFrame) (s : State) : (offer f s).lu.counters = s.lu.counters := leaveIdle_counters _

theorem Offers.lineCounts {s t : State} (h : Offers s t) (hs : LineCounts s) : LineCounts t :=
  h.keeps lineCounts_reads (by simp) (fun f s hs => hs.of_counters (offer_counters f s)) hs

theorem attemptSucceeded_counts {s : State} (h : LineCounts s) : LineCounts (attemptSucceeded s) := by
  unfold attemptSucceeded
  split
  · exact h
  · rw [LineCounts, reportFinished_lu]
    exact { h with sent := satInc_le _ _ }

theorem attemptFailed_counts {s : State} (h : LineCounts s) : LineCounts (attemptFailed s) := by
  have failed : LineCounted { s.lu.counters with collisions := satInc 65535 s.lu.counters.collisions } :=
    { h with collisions := satInc_le _ _ }
  unfold attemptFailed
  split
  · exact h
  · dsimp only
    split
    · exact failed
    · rw [LineCounts, reportFinished_lu]
      exact { failed with dropped := satInc_le _ _ }

theorem countFragment_counts {u : LuState} (h : LineCounted u.counters) : LineCounted (countFragment u).counters :=
  { h with fragments := satInc_le _ _ }

theorem lineBecomesFree_counts {u : LuState} (h : LineCounted u.counters) : LineCounted (lineBecomesFree u).counters := by
  unfold lineBecomesFree
  dsimp only
  split
  · exact countFragment_counts h
  · exact h

theorem judge_counts (echo : Bool) (bs : List Byte) {s : State} (h : LineCounts s) : LineCounts (judge echo bs s) := by
  unfold judge
  split
  · exact h
  · dsimp only
    split
    · exact { h with crcErrors := satInc_le _ _ }
    · split
      · exact { h with malformed := satInc_le _ _ }
      · split
        · split
          · exact h
          · exact { h with clashes := satInc_le _ _ }
        · rw [LineCounts, (dispatch_only _ bs _).lu (by simp)]
          exact { h with received := satInc_le _ _ }

theorem keepByte_counts (echo : Bool) (bs : List Byte) {s : State} (h : LineCounts s) : LineCounts (keepByte echo bs s) := by
  unfold keepByte
  split
  · exact h
  · split
    · exact { h with malformed := satInc_le _ _ }
    · split
      · exact h
      · exact judge_counts _ _ h

theorem assemble_counts (echo : Bool) (b : Byte) (framingError : Bool) {s : State} (h : LineCounts s) :
    LineCounts (assemble echo b framingError s) := by
  unfold assemble
  split
  · exact h
  · split
    · exact h
    · exact countFragment_counts h
  · split
    · exact countFragment_counts h
    · exact keepByte_counts _ _ h

theorem receiveByte_lineCounts (b : Byte) (framingError : Bool) {s : State} (h : LineCounts s) :
    LineCounts (receiveByte b framingError s) := by
  have taken : LineCounts (byteTaken b framingError s) := assemble_counts _ b framingError h
  rw [receiveByte_eq]
  unfold readback
  split
  · exact taken
  · split
    · exact attemptFailed_counts taken
    · split
      · exact attemptSucceeded_counts taken
      · exact taken

theorem restartLine_counts (s : State) : LineCounts (restartLine s) := by
  unfold restartLine
  split
  · exact lineCounted_reset
  · exact lineCounted_reset

theorem LoadTaken.lineCounters {s t : State} (h : LoadTaken s t) : t.lu.counters = s.lu.counters := by
  obtain ⟨-, raw, position, -, e⟩ := h
  have loaded : (completeLoad (clampImage raw) (clampedCount raw (clampImage raw))
      (s.withCf { s.cf with position := position })).lu.counters = s.lu.counters := rfl
  rwa [← e] at loaded

theorem lineCounts_event {c : Instr} {s t : State} (hl : Instr.isLineOwn c = true) (hx : exec c s = .next t)
    (h : LineCounts s) : LineCounts t := by
  cases c with
  | powerOn => injection hx with hx; exact hx ▸ lineCounted_reset
  | resetPin => injection hx with hx; exact hx ▸ lineCounted_reset
  | headerRead bs => exact lineCounts_reads.of_only (exec_only hx) rfl h
  | memoryNoAcknowledge bs => exact lineCounts_reads.of_only (exec_only hx) rfl h
  | loadEnd body =>
    rcases loadEnd_cases hx with e | hg | hg
    · exact e ▸ h
    · exact lineCounts_reads.of_only hg.only rfl h
    · exact h.of_counters hg.lineCounters
  | lineFree =>
    injection hx with hx
    rw [← hx]
    refine whenDue_keeps (fun _ => ?_) h
    have freed : LineCounts (s.withLu (lineBecomesFree s.lu)) := lineBecomesFree_counts h
    dsimp only
    split
    · exact freed.of_counters (drawBackoff_rest _).2.1
    · exact freed
  | lineBusy => injection hx with hx; exact hx ▸ whenDue_keeps (fun _ => h) h
  | backoffSlotEnd =>
    injection hx with hx
    rw [← hx]
    refine whenDue_keeps (fun _ => ?_) h
    dsimp only
    split
    · exact h.of_counters (startAttempt_rest (s.withLu { s.lu with slots := s.lu.slots - 1 })).2.2.1
    · exact h
  | byteNotReceivedBack => injection hx with hx; exact hx ▸ whenDue_keeps (fun _ => attemptFailed_counts h) h
  | intraFrameGap =>
    injection hx with hx
    rw [← hx]
    split
    · exact whenDue_keeps (fun _ => countFragment_counts h) h
    · exact h
  | byteReceived b e => injection hx with hx; exact hx ▸ whenDue_keeps (fun _ => receiveByte_lineCounts b e h) h
  | frameReceived b => injection hx with hx; exact hx ▸ whenDue_keeps (fun _ => receiveByte_lineCounts b false h) h
  | _ => exact (Bool.false_ne_true hl).elim

theorem lineCounts_kept : Kept LineCounts := by
  refine lineCounts_reads.kept (by decide) (fun c s t _ hc h hx => ?_) (fun m s ht _ h => ?_) fun w began s _ hw h =>
    (work_offers hw).lineCounts h
  · cases hl : Instr.isLineOwn c with
    | false => exact (exec_offers hc hl hx).lineCounts h
    | true => exact lineCounts_event hl hx h
  · cases m with
    | reload => exact h.of_counters (t := reloadStation s) (by rw [reloadStation_lu])
    | blockRestart a =>
      show LineCounts (blockRestartEffect a.toNat s)
      unfold blockRestartEffect
      split
      · exact restartLine_counts s
      · split
        · exact lineCounts_reads.of_only (cs := [.nt, .ck]) (((restartTable_only s).mono (by simp)).trans
            ((restartClock_only _).mono (by simp))) rfl h
        · exact lineCounts_reads.of_only (blockRestartDetectors_only s) rfl h
    | _ => exact (Bool.false_ne_true ht).elim

/-! ## The marks and the port -/

/-- A law is kept by every step where it does not speak of the queue and every command keeps it. -/
theorem Reads.kept_of_exec {bs : List Block} {L : State → Prop} (hr : Reads bs L) (hb : .pending ∉ bs)
    (h : ∀ c s t, touches bs (Instr.reaches c) = true → L s → exec c s = .next t → L t) : Kept L := by
  have hp : touches bs [.pending] = false := by
    simp only [touches, List.any_eq_false, List.contains_iff_mem, List.mem_singleton, forall_eq]
    exact hb
  intro s t hs hx
  unfold step at hx
  split at hx
  · injection hx with hx
    exact hx ▸ hs
  next c rest _ =>
    have popped : L (s.withPending rest) :=
      hr.of_only (cs := [.pending]) (fun b hb => by cases b <;> first | rfl | simp at hb) hp hs
    exact hr.of_touched (exec_only hx) (fun ht => h _ _ t ht popped hx) popped

/-- R66. -/
def MarkLaw (s : State) : Prop := s.tb.m < 1000

theorem markLaw_reads : Reads [.tb] MarkLaw := fun s t same h => by
  have htb : t.tb = s.tb := same .tb (by simp)
  unfold MarkLaw
  rw [htb]
  exact h

theorem markLaw_kept : Kept MarkLaw := by
  refine markLaw_reads.kept_of_exec (by simp) fun c s t ht h hx => ?_
  cases c with
  | powerOn => injection hx with hx; exact hx ▸ (by decide : 0 < 1000)
  | resetPin => injection hx with hx; exact hx ▸ (by decide : 0 < 1000)
  | tick d r x =>
    injection hx with hx
    rw [← hx]
    have advanced : MarkLaw (beginTick d r x s) := Nat.mod_lt _ (by decide)
    refine markLaw_reads.of_only (nextFree_only _) rfl (works_keep (fun w u hu => ?_) _ _ advanced)
    exact markLaw_reads.of_only (doWork_blocks s.os.mode u w) (by cases w <;> rfl) hu
  | _ => exact (Bool.false_ne_true ht).elim

theorem portLaw_reads : Reads [.pins, .mp] PortLaw := fun s t same h => by
  have hpins : t.pins = s.pins := same .pins (by simp)
  have hmp : t.mp = s.mp := same .mp (by simp)
  unfold PortLaw
  rw [hpins, hmp]
  exact h

theorem recordAnswer_ignoring (c : MpCommand) (x : List Byte) (mp : MpState) : (recordAnswer c x mp).ignoring = mp.ignoring := by
  unfold recordAnswer
  split <;> rfl

/-- R182: an answer ends PENDING alone; an IDLE transaction stays IDLE. -/
theorem recordAnswer_idle (c : MpCommand) (x : List Byte) {mp : MpState} (h : mp.phase = .idle) :
    (recordAnswer c x mp).phase = .idle := by
  have hp : pendingCommand mp ≠ some c := by simp [pendingCommand, h]
  rw [recordAnswer, if_neg hp]
  exact h

theorem transfer_ignoring (b : Byte) (mp : MpState) : (transfer b mp).ignoring = mp.ignoring := by
  unfold transfer
  split <;> rfl

theorem transfer_idle (b : Byte) {mp : MpState} (h : mp.phase = .idle) : (transfer b mp).phase = .idle := by
  simp [transfer, h]

/-- The port's law holds where the pins stand and an IDLE transaction stays IDLE. -/
theorem PortLaw.of_idle {s t : State} (h : PortLaw s) (hp : t.pins = s.pins) (hi : t.mp.ignoring = s.mp.ignoring)
    (hidle : s.mp.phase = .idle → t.mp.phase = .idle) : PortLaw t := by
  unfold PortLaw
  rw [hp, hi]
  exact ⟨fun hs => ⟨hidle (h.1 hs).1, (h.1 hs).2⟩, fun hs => hidle (h.2 hs)⟩

theorem deliver_port (m : MpCommand) {s : State} (h : PortLaw s) : PortLaw (deliver m s) := by
  by_cases ha : mpStatus s m = .accepted
  · rw [deliver_accepted ha]
    have carried : PortLaw (carryOut s m) := portLaw_reads.of_only (carryOut_only m s) rfl h
    exact carried.of_idle rfl (recordAnswer_ignoring _ _ _) (recordAnswer_idle _ _)
  · rw [deliver_refused ha]
    exact h.of_idle rfl (recordAnswer_ignoring _ _ _) (recordAnswer_idle _ _)

theorem doWork_port (began : Mode) (w : Work) {s : State} (h : PortLaw s) : PortLaw (doWork began s w) := by
  cases w with
  | mp =>
    show PortLaw (mpWork s)
    unfold mpWork
    split
    · exact deliver_port _ h
    · exact h
  | _ => exact portLaw_reads.of_only (doWork_blocks began s _) rfl h

theorem resetStation_port (s : State) : PortLaw (resetStation s) := ⟨fun h => ⟨rfl, h⟩, fun _ => rfl⟩

theorem portLaw_kept : Kept PortLaw := by
  refine portLaw_reads.kept_of_exec (by simp) fun c s t ht h hx => ?_
  cases hm : Instr.delivers c with
  | some m =>
    rw [exec_of_delivers hm] at hx
    injection hx with hx
    exact hx ▸ deliver_port m h
  | none =>
    cases c with
    | powerOn => injection hx with hx; exact hx ▸ resetStation_port s
    | resetPin => injection hx with hx; exact hx ▸ resetStation_port s
    | tick d r x =>
      injection hx with hx
      rw [← hx]
      have begun : PortLaw (beginTick d r x s) := h
      exact portLaw_reads.of_only (nextFree_only _) rfl (works_keep (fun w _ hu => doWork_port s.os.mode w hu) _ _ begun)
    | selectFall =>
      injection hx with hx
      exact hx ▸ whenDue_keeps (fun _ => ⟨(nomatch ·), (nomatch ·)⟩) h
    | selectRise =>
      injection hx with hx
      exact hx ▸ whenDue_keeps (fun _ => ⟨fun _ => ⟨rfl, rfl⟩, fun _ => rfl⟩) h
    | spiByteTransfer b =>
      injection hx with hx
      exact hx ▸ whenDue_keeps (fun _ => h.of_idle rfl (transfer_ignoring b _) (transfer_idle b)) h
    | unknownCommand code =>
      injection hx with hx
      exact hx ▸ whenDue_keeps (fun _ => deliver_port _ h) h
    | _ => first | exact (Bool.false_ne_true ht).elim | exact (Option.some_ne_none _ hm).elim

/-! ## The counters together -/

theorem counterLaw_iff (s : State) : CounterLaw s ↔ MarkLaw s ∧ GroupCounts s ∧ FaultCount s ∧ ClampCount s ∧ TableCount s ∧
    MarkCount s ∧ PlatoonCounts s ∧ PreemptionCounts s ∧ LineCounts s := by
  unfold CounterLaw MarkLaw GroupCounts FaultCount ClampCount TableCount MarkCount PlatoonCounts PreemptionCounts
    PeState.Counted LineCounts
  constructor
  · rintro ⟨h1, h2, h3, h4, h5, h6, h7, h8, h9, h10, h11, h12, h⟩
    simp only [List.mem_cons, List.not_mem_nil, or_false, forall_eq_or_imp, forall_eq] at h
    obtain ⟨hs, hc, hd, hr, hcrc, hf, hm, hcl⟩ := h
    exact ⟨h1, h2, h3, h4, h5, h6, ⟨h7, h8, h9, h10⟩, ⟨h11, h12⟩, hs, hc, hd, hr, hcrc, hf, hm, hcl⟩
  · rintro ⟨h1, h2, h3, h4, h5, h6, ⟨h7, h8, h9, h10⟩, ⟨h11, h12⟩, hs, hc, hd, hr, hcrc, hf, hm, hcl⟩
    refine ⟨h1, h2, h3, h4, h5, h6, h7, h8, h9, h10, h11, h12, ?_⟩
    simp only [List.mem_cons, List.not_mem_nil, or_false, forall_eq_or_imp, forall_eq]
    exact ⟨hs, hc, hd, hr, hcrc, hf, hm, hcl⟩

theorem counterLaw_kept : Kept CounterLaw := by
  intro s t h hx
  rw [counterLaw_iff] at h ⊢
  obtain ⟨hmark, hgroup, hfault, hclamp, htable, hmarks, hplatoon, hpreemption, hline⟩ := h
  exact ⟨markLaw_kept s t hmark hx, groupCounts_kept s t hgroup hx, faultCount_kept s t hfault hx,
    clampCount_kept s t hclamp hx, tableCount_kept s t htable hx, markCount_kept s t hmarks hx,
    platoonCounts_kept s t hplatoon hx, preemptionCounts_kept s t hpreemption hx, lineCounts_kept s t hline hx⟩

/-- Settles O27: four laws, each kept by every command and work that reaches its blocks. -/
theorem sequencerPortAndCountersHold : Obligations.SequencerPortAndCountersHold :=
  ⟨stoppedLaw_kept, phaseLaw_kept, portLaw_kept, counterLaw_kept⟩

end Sys2Proof.Machine


/-!
# The Maintenance Port: the transaction, its delivery and the status of every command (O57, O58)
-/

namespace Sys2Proof.Machine

/-! ## The answer of a delivered command (R182, R183) -/

@[simp] theorem recordAnswer_response (c : MpCommand) (x : List Byte) (mp : MpState) : (recordAnswer c x mp).response = x := by
  unfold recordAnswer
  split <;> rfl

theorem deliver_response (c : MpCommand) (s : State) : (deliver c s).mp.response = mpResponse s c := recordAnswer_response _ _ _

theorem mpResponse_of_accepted {s : State} {c : MpCommand} (h : mpStatus s c = .accepted) :
    mpResponse s c = 0x81 :: mpData s c := by
  simp [mpResponse, h, MpStatus.byte]

theorem mpResponse_of_refused {s : State} {c : MpCommand} (h : mpStatus s c ≠ .accepted) :
    mpResponse s c = [(mpStatus s c).byte] := by
  simp [mpResponse, h]

/-- The answer to a command that is pending is put into the transaction. -/
theorem deliver_mp {c : MpCommand} {s : State} (h : pendingCommand s.mp = some c) :
    (deliver c s).mp = { s.mp with response := mpResponse s c, phase := .answer, shift := mpResponse s c } := by
  have hmp : (if mpStatus s c = .accepted then carryOut s c else s).mp = s.mp := by
    split
    · exact carryOut_mp s c
    · rfl
  show recordAnswer c (mpResponse s c) _ = _
  rw [hmp, recordAnswer, if_pos h]

theorem answered {c : Instr} {m : MpCommand} {s : State} (hx : exec c s = .next (deliver m s)) (ha : mpStatus s m = .accepted)
    (hd : mpData s m = []) : Answered 0x81 c s :=
  ⟨_, hx, by rw [deliver_response, mpResponse_of_accepted ha, hd]⟩

/-- R183: a command turned away leaves its answer alone. -/
theorem turnedAway {c : Instr} {m : MpCommand} {s : State} {b : Byte} (hx : exec c s = .next (deliver m s))
    (ha : mpStatus s m ≠ .accepted) (hb : (mpStatus s m).byte = b) : TurnedAway b c s := by
  refine ⟨_, hx, ?_, ?_⟩
  · rw [deliver_response, mpResponse_of_refused ha, hb]
  · rw [deliver_refused ha]
    exact withMp_only _ _

/-! ## The status by mode and argument (Table 11.5) -/

theorem mpStatus_loading {s : State} (h : s.os.mode = .loading) (c : MpCommand) : mpStatus s c = .wait := if_pos h

theorem mpStatus_outside {s : State} (h : s.os.mode ≠ .loading) (c : MpCommand) : mpStatus s c = statusOutsideLoading s c :=
  if_neg h

theorem commandOf_unknown {k : Byte} (h : k.toNat ∉ knownCodes) : commandOf k [] = .unknown k := by
  simp only [knownCodes, List.mem_cons, List.not_mem_nil, or_false, not_or] at h
  unfold commandOf
  split <;> simp_all

theorem exec_unknownCommand {k : Byte} (h : k.toNat ∉ knownCodes) (s : State) :
    exec (.unknownCommand k) s = .next (deliver (.unknown k) s) :=
  congrArg Host.Outcome.next (whenDue_true (by simp [commandOf_unknown h]) _ _)

/-- R183: in LOADING every command is answered WAIT. -/
theorem turnedAway_loading {c : Instr} {m : MpCommand} {s : State} (h : s.os.mode = .loading)
    (hx : exec c s = .next (deliver m s)) : TurnedAway 0x82 c s :=
  turnedAway hx (by simp [mpStatus_loading h]) (by simp [mpStatus_loading h, MpStatus.byte])

theorem exec_some_command {c : Instr}
    (h : c ∈ [.status, .readGroups, .readNeighbors, .readPlatoons, .readPreemption, .manualFlashOn, .manualFlashOff, .restart,
          .reload, .blockRestartLine, .blockRestartNeighbors, .blockRestartDetectors] ∨ (∃ m, c = .exchangePending m) ∨
        (∃ a, c = .placeCall a) ∨ (∃ a, c = .selectPlan a) ∨ ∃ k : Byte, c = .unknownCommand k ∧ k.toNat ∉ knownCodes)
    (s : State) : ∃ m, exec c s = .next (deliver m s) := by
  rcases h with h | ⟨m, rfl⟩ | ⟨a, rfl⟩ | ⟨a, rfl⟩ | ⟨k, rfl, hk⟩
  · simp only [List.mem_cons, List.not_mem_nil, or_false] at h
    rcases h with rfl | rfl | rfl | rfl | rfl | rfl | rfl | rfl | rfl | rfl | rfl | rfl <;> exact ⟨_, rfl⟩
  · exact ⟨_, rfl⟩
  · exact ⟨_, rfl⟩
  · exact ⟨_, rfl⟩
  · exact ⟨_, exec_unknownCommand hk s⟩

/-- R184: PLACE CALL names an enabled group. -/
theorem placeCallStatus_eq (s : State) (a : Byte) : placeCallStatus s a =
    if ∃ g : Group, a.toNat = g.val + 1 ∧ groupEnabled s g = true then .accepted else .invalid := by
  unfold placeCallStatus
  split
  next g hg =>
    rw [codeItem_eq_some] at hg
    have named : (∃ g' : Group, a.toNat = g'.val + 1 ∧ groupEnabled s g' = true) ↔ groupEnabled s g = true := by
      refine ⟨fun ⟨g', h1, h2⟩ => ?_, fun h => ⟨g, hg, h⟩⟩
      have : g' = g := Fin.ext (by omega)
      exact this ▸ h2
    simp only [named]
  next hn =>
    rw [if_neg]
    rintro ⟨g, hg, -⟩
    rw [codeItem_eq_some.mpr hg] at hn
    exact nomatch hn

/-- R184: SELECT PLAN names a plan by 1 to 4. -/
theorem selectPlanStatus_eq (m : Mode) (a : Byte) : selectPlanStatus m a =
    if a.toNat = 0 ∨ 4 < a.toNat then .invalid else if m = .noPlanFlash then .refused else .accepted := by
  unfold selectPlanStatus
  split
  next p hp =>
    rw [codeItem_eq_some] at hp
    have hlt := p.isLt
    rw [if_neg (show ¬(a.toNat = 0 ∨ 4 < a.toNat) by omega)]
  next hn =>
    rw [if_pos]
    by_contra h
    have hlt : a.toNat - 1 < 4 := by omega
    have he : codeItem 4 a.toNat = some ⟨a.toNat - 1, hlt⟩ := codeItem_eq_some.mpr (by simp only []; omega)
    rw [he] at hn
    exact nomatch hn

theorem railActive_iff (s : State) : railActive s = true ↔ ∃ v, s.pe.service = some v ∧ v.cls = .rail := by
  unfold railActive
  cases h : s.pe.service <;> simp

/-! ## The delivery at a tick -/

theorem works_mp {began : Mode} : ∀ (ws : List Work) (s : State), .mp ∉ ws → (ws.foldl (doWork began) s).mp = s.mp
  | [], _, _ => rfl
  | w :: ws, s, h => by
    rw [List.mem_cons, not_or] at h
    exact (works_mp ws (doWork began s w) h.2).trans (doWork_mp (Ne.symm h.1))

/-- R183: a TICK takes some works, then the delivery of the pending command, then the rest of its works. -/
theorem tick_delivers (d : BitVec 24) (r : BitVec 3) (x : BitVec 48) {s : State} {c : MpCommand}
    (hp : pendingCommand s.mp = some c) : ∃ before after, workOrder s.free = before ++ .mp :: after ∧ .mp ∉ before ∧ .mp ∉ after ∧
      (before.foldl (doWork s.os.mode) (beginTick d r x s)).mp = s.mp ∧
      exec (.tick d r x) s = .next (nextFree (after.foldl (doWork s.os.mode)
        (deliver c (before.foldl (doWork s.os.mode) (beginTick d r x s))))) := by
  obtain ⟨before, after, horder, hbefore, hafter⟩ := workOrder_split s.free .mp
  have hmp : (before.foldl (doWork s.os.mode) (beginTick d r x s)).mp = s.mp := works_mp before _ hbefore
  refine ⟨before, after, horder, hbefore, hafter, hmp, ?_⟩
  rw [exec_tick, horder, List.foldl_append, List.foldl_cons]
  show Host.Outcome.next (nextFree (after.foldl _ (mpWork _))) = _
  rw [mpWork_of_some (by rw [hmp, hp])]

/-- The transaction after the TICK that delivers its command: in ANSWER, with the response to shift out. -/
theorem tick_answer (d : BitVec 24) (r : BitVec 3) (x : BitVec 48) {s : State} {c : MpCommand}
    (hp : pendingCommand s.mp = some c) : ∃ before after t, workOrder s.free = before ++ .mp :: after ∧ .mp ∉ before ∧
      exec (.tick d r x) s = .next t ∧
      let u := before.foldl (doWork s.os.mode) (beginTick d r x s)
      t.mp = { s.mp with response := mpResponse u c, phase := .answer, shift := mpResponse u c } := by
  obtain ⟨before, after, horder, hbefore, hafter, hmp, ht⟩ := tick_delivers d r x hp
  refine ⟨before, after, _, horder, hbefore, ht, ?_⟩
  refine (works_mp after _ hafter).trans ?_
  rw [deliver_mp (by rw [hmp, hp]), hmp]

/-! ### The loading mode stands through the works -/

theorem reportHalt_mode (s : State) : (reportHalt s).os.mode = .manualFlash := enterFlash_os .. 

theorem modeAfterTimer_loading (s : State) : (modeAfterTimer s).os.mode = .loading ↔ s.os.mode = .loading := by
  unfold modeAfterTimer
  split
  next h => exact ⟨(nomatch ·), fun e => absurd (h.symm.trans e) (by decide)⟩
  next h =>
    rw [enterRun_os]
    exact ⟨(nomatch ·), fun e => absurd (h.symm.trans e) (by decide)⟩
  next => exact Iff.rfl

theorem modeTimerWork_loading (began : Mode) (s : State) : (modeTimerWork began s).os.mode = .loading ↔ s.os.mode = .loading := by
  unfold modeTimerWork
  dsimp only
  split
  · split
    · exact modeAfterTimer_loading (s.withOs { s.os with timer := s.os.timer - 1 })
    · exact Iff.rfl
  · exact Iff.rfl

theorem monitorWork_loading (s : State) : (monitorWork s).os.mode = .loading ↔ s.os.mode = .loading := by
  rcases monitorWork_cases s with h | ⟨img, -, hm, h | ⟨c, further, h⟩⟩ <;> rw [h]
  · exact Iff.rfl
  · have hmode : (latchFault c further (s.withOs (countedOs img s))).os.mode = .faultFlash := enterFlash_os ..
    rw [hmode]
    exact ⟨(nomatch ·), fun e => absurd (e ▸ hm) (by decide)⟩

theorem sqWork_loading (s : State) : (sqWork s).os.mode = .loading ↔ s.os.mode = .loading := by
  by_cases hm : s.os.mode = .loading
  · have hs : sqWork s = s := if_neg (by simp [hm])
    rw [hs]
  · rcases sqWork_cases s with h | ⟨u, -, -, h⟩
    · rw [h.os (by simp)]
    · rw [h, reportHalt_mode]
      exact ⟨(nomatch ·), fun e => absurd e hm⟩

theorem doWork_loading (began : Mode) (s : State) {w : Work} (hw : w ≠ .mp) :
    (doWork began s w).os.mode = .loading ↔ s.os.mode = .loading := by
  cases w with
  | mp => exact absurd rfl hw
  | sequencer => exact sqWork_loading s
  | supervisor =>
    exact supervisorWork_keeps (P := fun u => u.os.mode = .loading ↔ s.os.mode = .loading)
      (fun u h => (monitorWork_loading u).trans h) (fun u h => (modeTimerWork_loading began u).trans h) s Iff.rfl
  | groups | detectors | clock | neighbors | platoonCountdown | greenTimers | preemption =>
    rw [(doWork_blocks began s _).os (by simp [Work.blocks])]

theorem works_loading {began : Mode} : ∀ (ws : List Work) (s : State), .mp ∉ ws →
    ((ws.foldl (doWork began) s).os.mode = .loading ↔ s.os.mode = .loading)
  | [], _, _ => Iff.rfl
  | w :: ws, s, h => by
    rw [List.mem_cons, not_or] at h
    exact (works_loading ws (doWork began s w) h.2).trans (doWork_loading began s (Ne.symm h.1))

/-! ## The transaction (O57) -/

theorem mpStatus_byte (st : MpStatus) (h : st ≠ .accepted) : st.byte = 0x82 ∨ st.byte = 0x84 ∨ st.byte = 0x88 := by
  cases st <;> simp_all [MpStatus.byte]

theorem exec_spiByteTransfer {s : State} (hs : s.pins.selectLow = true) (b : Byte) :
    exec (.spiByteTransfer b) s = .next (s.withMp (transfer b s.mp)) :=
  congrArg Host.Outcome.next (whenDue_true hs _ _)

/-- Settles O57: the transaction's rows by its phase, and the delivery among the works of a tick. -/
theorem transactionMovesByteByByte : Obligations.TransactionMovesByteByByte := by
  refine ⟨fun s => ⟨fun h => ?_, fun h => ?_⟩, fun b s hs => ?_, fun d r x s hp => ?_⟩
  · exact congrArg Host.Outcome.next (whenDue_true (by simp [h]) _ _)
  · exact congrArg Host.Outcome.next (whenDue_true h _ _)
  · rw [exec_spiByteTransfer hs]
    refine ⟨fun h => ?_, fun h => ?_, fun h => ?_, fun h y rest hy => ?_, fun h hy => ?_⟩
    · rcases h with h | h <;> simp [transfer, h]
    · simp [transfer, h, takeCode, argCount]
    · simp [transfer, h, takeArgument, argCount]
    · simp [transfer, h, hy, byteAt]
    · have hsame : s.mp.shift.tail = s.mp.shift := by simp [hy]
      simp [transfer, h, hy, byteAt]
  · obtain ⟨before, after, t, -, -, ht, hmp⟩ := tick_answer d r x (s := s) (c := commandOf s.mp.code s.mp.args) (if_pos hp)
    refine ⟨t, (mpStatus _ _).byte, _, ht, by rw [hmp], by rw [hmp]; rfl, by rw [hmp]; rfl, ?_⟩
    split
    next ha => exact .inl (by rw [ha]; rfl)
    next ha => exact .inr ⟨mpStatus_byte _ ha, rfl⟩

/-! ## The status of every command (O58) -/

theorem answers_placeCall {s : State} (hm : s.os.mode ≠ .loading) (a : Byte) :
    ((∃ g : Group, a.toNat = g.val + 1 ∧ groupEnabled s g = true) → Answered 0x81 (.placeCall a) s) ∧
      (¬(∃ g : Group, a.toNat = g.val + 1 ∧ groupEnabled s g = true) → TurnedAway 0x88 (.placeCall a) s) := by
  have hst : mpStatus s (.placeCall a) = _ := (mpStatus_outside hm _).trans (placeCallStatus_eq s a)
  refine ⟨fun h => ?_, fun h => ?_⟩
  · rw [if_pos h] at hst
    exact answered rfl hst rfl
  · rw [if_neg h] at hst
    exact turnedAway (m := .placeCall a) rfl (by simp [hst]) (by simp [hst, MpStatus.byte])

theorem answers_selectPlan {s : State} (hm : s.os.mode ≠ .loading) (a : Byte) :
    (a.toNat = 0 ∨ 4 < a.toNat → TurnedAway 0x88 (.selectPlan a) s) ∧
      (1 ≤ a.toNat → a.toNat ≤ 4 → s.os.mode = .noPlanFlash → TurnedAway 0x84 (.selectPlan a) s) ∧
      (1 ≤ a.toNat → a.toNat ≤ 4 → s.os.mode ≠ .noPlanFlash → Answered 0x81 (.selectPlan a) s) := by
  have hst : mpStatus s (.selectPlan a) = _ := (mpStatus_outside hm _).trans (selectPlanStatus_eq s.os.mode a)
  refine ⟨fun h => ?_, fun h1 h4 h => ?_, fun h1 h4 h => ?_⟩
  · rw [if_pos h] at hst
    exact turnedAway (m := .selectPlan a) rfl (by simp [hst]) (by simp [hst, MpStatus.byte])
  · rw [if_neg (by omega), if_pos h] at hst
    exact turnedAway (m := .selectPlan a) rfl (by simp [hst]) (by simp [hst, MpStatus.byte])
  · rw [if_neg (by omega), if_neg h] at hst
    exact answered rfl hst rfl

/-- R168: MANUAL FLASH ON in RUN, by the class of the service. -/
theorem flashOnStatus_run {s : State} (h : s.os.mode = .run) :
    flashOnStatus s = if ∃ v, s.pe.service = some v ∧ v.cls = .rail then .refused else .accepted := by
  simp only [flashOnStatus, h, railActive_iff]

theorem answers_manualFlashOn {s : State} (hm : s.os.mode ≠ .loading) :
    (s.os.mode = .run → (∀ v, s.pe.service = some v → v.cls ≠ .rail) → Answered 0x81 .manualFlashOn s) ∧
      (s.os.mode = .flashEntry ∨ s.os.mode = .manualFlash → TurnedAway 0x81 .manualFlashOn s) ∧
      (s.os.mode = .run → (∃ v, s.pe.service = some v ∧ v.cls = .rail) → TurnedAway 0x84 .manualFlashOn s) ∧
      (s.os.mode = .startFlash ∨ s.os.mode = .startRed ∨ s.os.mode = .faultFlash ∨ s.os.mode = .noPlanFlash →
        TurnedAway 0x84 .manualFlashOn s) := by
  have hst : mpStatus s .manualFlashOn = flashOnStatus s := mpStatus_outside hm _
  refine ⟨fun h hv => ?_, fun h => ?_, fun h hv => ?_, fun h => ?_⟩
  · rw [flashOnStatus_run h, if_neg fun ⟨v, h1, h2⟩ => hv v h1 h2] at hst
    exact answered rfl hst rfl
  · have ha : mpStatus s .manualFlashOn = .accepted := by
      rcases h with h | h <;> rw [hst, flashOnStatus, h]
    have hnot : s.os.mode ≠ .run := by
      rcases h with h | h <;> rw [h] <;> decide
    refine ⟨_, rfl, by rw [deliver_response, mpResponse_of_accepted ha]; rfl, ?_⟩
    rw [deliver_accepted ha, show carryOut s .manualFlashOn = s from if_neg hnot]
    exact withMp_only _ _
  · rw [flashOnStatus_run h, if_pos hv] at hst
    exact turnedAway (m := .manualFlashOn) rfl (by simp [hst]) (by simp [hst, MpStatus.byte])
  · have hs : flashOnStatus s = .refused := by
      rcases h with h | h | h | h <;> simp [flashOnStatus, h]
    rw [hs] at hst
    exact turnedAway (m := .manualFlashOn) rfl (by simp [hst]) (by simp [hst, MpStatus.byte])

theorem answers_manualFlashOff {s : State} (hm : s.os.mode ≠ .loading) :
    (s.os.mode = .manualFlash → Answered 0x81 .manualFlashOff s) ∧
      (s.os.mode ≠ .manualFlash → TurnedAway 0x84 .manualFlashOff s) := by
  have hst : mpStatus s .manualFlashOff = flashOffStatus s.os.mode := mpStatus_outside hm _
  refine ⟨fun h => ?_, fun h => ?_⟩
  · exact answered rfl (hst.trans (if_pos h)) rfl
  · have hr : mpStatus s .manualFlashOff = .refused := hst.trans (if_neg h)
    exact turnedAway (m := .manualFlashOff) rfl (by simp [hr]) (by simp [hr, MpStatus.byte])

theorem restartStatus_eq (m : Mode) : restartStatus m = if m = .manualFlash ∨ m = .faultFlash then .accepted else .refused := by
  cases m <;> rfl

theorem answers_restart {s : State} (hm : s.os.mode ≠ .loading) :
    (s.os.mode = .manualFlash ∨ s.os.mode = .faultFlash → Answered 0x81 .restart s) ∧
      (s.os.mode ≠ .manualFlash → s.os.mode ≠ .faultFlash → TurnedAway 0x84 .restart s) := by
  have hst : mpStatus s .restart = _ := (mpStatus_outside hm _).trans (restartStatus_eq s.os.mode)
  refine ⟨fun h => ?_, fun h1 h2 => ?_⟩
  · exact answered rfl (hst.trans (if_pos h)) rfl
  · have hr : mpStatus s .restart = .refused := hst.trans (if_neg (by simp [h1, h2]))
    exact turnedAway (m := .restart) rfl (by simp [hr]) (by simp [hr, MpStatus.byte])

theorem answers_reload {s : State} (hm : s.os.mode ≠ .loading) :
    (s.os.mode = .startRed ∨ s.os.mode = .run ∨ s.os.mode = .flashEntry → TurnedAway 0x84 .reload s) ∧
      (s.os.mode = .startFlash ∨ s.os.mode = .manualFlash ∨ s.os.mode = .faultFlash ∨ s.os.mode = .noPlanFlash →
        Answered 0x81 .reload s) := by
  have hst : mpStatus s .reload = reloadStatus s.os.mode := mpStatus_outside hm _
  refine ⟨fun h => ?_, fun h => ?_⟩
  · have hr : mpStatus s .reload = .refused := by
      rcases h with h | h | h <;> rw [hst, h] <;> rfl
    exact turnedAway (m := .reload) rfl (by simp [hr]) (by simp [hr, MpStatus.byte])
  · have hr : mpStatus s .reload = .accepted := by
      rcases h with h | h | h | h <;> rw [hst, h] <;> rfl
    exact answered rfl hr rfl

theorem answers_read {s : State} (hm : s.os.mode ≠ .loading) {c : Instr}
    (h : c ∈ [.status, .readGroups, .readNeighbors, .readPlatoons, .readPreemption] ∨ ∃ m, c = .exchangePending m) :
    ∃ t data, exec c s = .next t ∧ t.mp.response = 0x81 :: data := by
  have accepted (m : MpCommand) (ha : statusOutsideLoading s m = .accepted) (hx : exec c s = .next (deliver m s)) :
      ∃ t data, exec c s = .next t ∧ t.mp.response = 0x81 :: data :=
    ⟨_, _, hx, by rw [deliver_response, mpResponse_of_accepted ((mpStatus_outside hm m).trans ha)]⟩
  rcases h with h | ⟨m, rfl⟩
  · simp only [List.mem_cons, List.not_mem_nil, or_false] at h
    rcases h with rfl | rfl | rfl | rfl | rfl <;> exact accepted _ rfl rfl
  · exact accepted (.exchangePending m) rfl rfl

theorem answers_blockRestart {s : State} (hm : s.os.mode ≠ .loading) {c : Instr}
    (h : c ∈ [.blockRestartLine, .blockRestartNeighbors, .blockRestartDetectors]) : Answered 0x81 c s := by
  simp only [List.mem_cons, List.not_mem_nil, or_false] at h
  rcases h with rfl | rfl | rfl <;> exact answered (m := .blockRestart _) rfl (mpStatus_outside hm _) rfl

/-- R184: the answer to a BLOCK RESTART of any argument, delivered at a TICK. -/
theorem tick_blockRestart (d : BitVec 24) (r : BitVec 3) (x : BitVec 48) {s : State} {a : Byte} (hp : s.mp.phase = .pending)
    (hc : s.mp.code = 0x50) (ha : s.mp.args = [a]) : ∃ t, exec (.tick d r x) s = .next t ∧ t.mp.shift =
      if s.os.mode = .loading then [0x82] else if 1 ≤ a.toNat ∧ a.toNat ≤ 3 then [0x81] else [0x88] := by
  have hpending : pendingCommand s.mp = some (.blockRestart a) := by simp [pendingCommand, hp, hc, ha, commandOf, byteAt]
  obtain ⟨before, after, t, -, hbefore, ht, hmp⟩ := tick_answer d r x hpending
  have hmode := works_loading (began := s.os.mode) before (beginTick d r x s) hbefore
  refine ⟨t, ht, ?_⟩
  rw [hmp]
  generalize before.foldl (doWork s.os.mode) (beginTick d r x s) = u at hmode
  show mpResponse u (.blockRestart a) = _
  have hmode' : u.os.mode = .loading ↔ s.os.mode = .loading := hmode
  by_cases h : s.os.mode = .loading
  · simp [mpResponse, mpStatus_loading (hmode'.mpr h), h, MpStatus.byte]
  · simp only [mpResponse, mpStatus_outside (mt hmode'.mp h), statusOutsideLoading, h, if_false, mpData]
    split_ifs <;> rfl

/-- Settles O58: the status of each command outside LOADING, and WAIT in it. -/
theorem commandsAnswerByTheTable : Obligations.CommandsAnswerByTheTable := by
  intro s
  refine ⟨fun hl c hc => ?_, fun hm => ⟨fun k hk => ?_, fun a => ?_, fun c hc => answers_read hm hc,
    fun c hc => answers_blockRestart hm hc, ?_⟩, fun d r x a hp hc ha => tick_blockRestart d r x hp hc ha⟩
  · obtain ⟨m, hx⟩ := exec_some_command hc s
    exact turnedAway_loading hl hx
  · have hst : mpStatus s (.unknown k) = .invalid := mpStatus_outside hm _
    exact turnedAway (exec_unknownCommand hk s) (by simp [hst]) (by simp [hst, MpStatus.byte])
  · obtain ⟨h1, h2⟩ := answers_placeCall hm a
    exact ⟨h1, h2, answers_selectPlan hm a⟩
  · obtain ⟨h1, h2, h3, h4⟩ := answers_manualFlashOn hm
    obtain ⟨h5, h6⟩ := answers_manualFlashOff hm
    obtain ⟨h7, h8⟩ := answers_restart hm
    exact ⟨h1, h2, h3, h4, h5, h6, h7, h8, answers_reload hm⟩

end Sys2Proof.Machine


/-!
# The read commands and the commands that act on one block (O59, O60)
-/

namespace Sys2Proof.Machine

/-! ## Bytes of a joined list -/

theorem num_append_right {bs : List Byte} {i : Nat} (h : bs.length ≤ i) (cs : List Byte) :
    num (bs ++ cs) i = num cs (i - bs.length) := by
  simp [num, byteAt, List.getElem?_append_right h]

/-- The bytes of a part that stands behind `n` others. -/
theorem num_behind {bs : List Byte} {n : Nat} (h : bs.length = n) (cs : List Byte) (i : Nat) : num (bs ++ cs) (n + i) = num cs i := by
  rw [num_append_right (by omega), h, Nat.add_sub_cancel_left]

theorem num16_congr {bs cs : List Byte} {i j : Nat} (h0 : num bs i = num cs j) (h1 : num bs (i + 1) = num cs (j + 1)) :
    num16 bs i = num16 cs j := by
  rw [num16_eq, num16_eq, h0, h1]

/-- The records of a table, all of one length, one after another. -/
theorem num_flatMap {α : Type} {f : α → List Byte} {w : Nat} (hw : ∀ x, (f x).length = w) {j : Nat} (hj : j < w) :
    ∀ (xs : List α) (i : Nat) (x : α), xs[i]? = some x → num (xs.flatMap f) (w * i + j) = num (f x) j
  | y :: xs, 0, x, h => by
    obtain rfl : y = x := by simpa using h
    rw [List.flatMap_cons, Nat.mul_zero, Nat.zero_add, num_append (by rw [hw]; exact hj)]
  | y :: xs, i + 1, x, h => by
    rw [List.flatMap_cons, show w * (i + 1) + j = w + (w * i + j) by rw [Nat.mul_succ]; omega, num_behind (hw y)]
    exact num_flatMap hw hj xs i x (by simpa using h)

theorem length_flatMap {α : Type} {f : α → List Byte} {w : Nat} (hw : ∀ x, (f x).length = w) (xs : List α) :
    (xs.flatMap f).length = w * xs.length := by
  simp [List.length_flatMap, hw, Nat.mul_comm]

theorem finRange_getElem? {n : Nat} (i : Fin n) : (List.finRange n)[i.val]? = some i := by simp

theorem padRecords_length {k w : Nat} {xs : List (List Byte)} (h : ∀ x ∈ xs, x.length = w) : (padRecords k w xs).length = k * w := by
  have hw (i : Nat) : (xs.getD i (List.replicate w 0)).length = w := by
    rcases lt_or_ge i xs.length with hi | hi
    · rw [List.getD_eq_getElem _ _ hi]
      exact h _ (List.getElem_mem hi)
    · rw [List.getD_eq_default _ _ hi]
      exact List.length_replicate ..
  unfold padRecords
  rw [List.length_flatMap, List.map_congr_left fun i _ => hw i]
  simp

/-! ## A read command -/

/-- A command accepted: its answer, and nothing else but its effect. -/
theorem exec_accepted {c : Instr} {m : MpCommand} {s : State} (hx : exec c s = .next (deliver m s))
    (ha : mpStatus s m = .accepted) :
    ∃ t, exec c s = .next t ∧ Only [.mp] (carryOut s m) t ∧ t.mp.response = 0x81 :: mpData s m := by
  refine ⟨_, hx, ?_, by rw [deliver_response, mpResponse_of_accepted ha]⟩
  rw [deliver_accepted ha]
  exact withMp_only _ _

/-! ### STATUS -/

theorem stationBytes_length (s : State) : (stationBytes s).length = 8 := by simp [stationBytes, beBytes_length]

theorem lampBytes_length (s : State) : (lampBytes s).length = 22 := by simp [lampBytes, beBytes_length]

theorem faultBytes_length (f : Option FaultRecord) : (faultBytes f).length = 5 := by
  unfold faultBytes
  split
  · rfl
  · rw [List.length_append]
    split <;> rfl

theorem sequencerBytes_length (q : SqState) : (sequencerBytes q).length = 14 := by simp [sequencerBytes, beBytes_length]

theorem clockBytes_length (s : State) : (clockBytes s).length = 25 := by simp [clockBytes, beBytes_length]

theorem handBytes_length (h : Option InHand) : (handBytes h).length = 3 := by
  unfold handBytes
  split <;> rfl

/-- The bytes of the Line Unit up to its counters. -/
def lineHead (lu : LuState) : List Byte :=
  [byte (accessCode lu.access), byte (bit lu.busy + 2 * bit lu.clash + 16 * (lu.exponent % 8))] ++ handBytes lu.inHand ++
  padRecords 6 2 (lu.queue.map fun q => [byte (kindCode q.frame), byte (frameTarget q.frame)])

def lineTail (c : LineCounters) : List Byte :=
  [c.sent, c.collisions, c.dropped, c.received, c.crcErrors, c.fragments, c.malformed, c.clashes].flatMap (beBytes 2)

theorem lineBytes_eq (lu : LuState) : lineBytes lu = lineHead lu ++ lineTail lu.counters := rfl

theorem lineHead_length (lu : LuState) : (lineHead lu).length = 17 := by
  have hq : (padRecords 6 2 (lu.queue.map fun q => [byte (kindCode q.frame), byte (frameTarget q.frame)])).length = 6 * 2 :=
    padRecords_length (by simp)
  simp [lineHead, handBytes_length, hq]

theorem lineTail_length (c : LineCounters) : (lineTail c).length = 16 := by simp [lineTail, beBytes_length]

/-- The bytes before those of the Stage Sequencer. -/
def statusHead (s : State) : List Byte := stationBytes s ++ lampBytes s ++ faultBytes s.os.fault ++ [byte s.os.additional]

def detectorBytes (s : State) : List Byte := beBytes 6 (packItems 2 ((List.finRange 24).map fun d => detCode s.du[d].state))

theorem statusData_eq (s : State) : statusData s =
    statusHead s ++ (sequencerBytes s.sq ++ (detectorBytes s ++ (clockBytes s ++ (lineHead s.lu ++ lineTail s.lu.counters)))) := by
  simp only [statusData, statusHead, detectorBytes, lineBytes_eq, List.append_assoc]

theorem statusHead_length (s : State) : (statusHead s).length = 36 := by
  simp [statusHead, stationBytes_length, lampBytes_length, faultBytes_length]

theorem detectorBytes_length (s : State) : (detectorBytes s).length = 6 := beBytes_length _ _

theorem statusData_length (s : State) : (statusData s).length = 114 := by
  simp [statusData_eq, statusHead_length, sequencerBytes_length, detectorBytes_length, clockBytes_length, lineHead_length,
    lineTail_length]

theorem num_statusData_station (s : State) {i : Nat} (h : i < 8) : num (statusData s) i = num (stationBytes s) i := by
  rw [statusData_eq, num_append (by rw [statusHead_length]; omega)]
  simp only [statusHead, List.append_assoc]
  rw [num_append (by rw [stationBytes_length]; exact h)]

theorem num_statusData_sequencer (s : State) {i : Nat} (h : i < 14) :
    num (statusData s) (36 + i) = num (sequencerBytes s.sq) i := by
  rw [statusData_eq, num_behind (statusHead_length s), num_append (by rw [sequencerBytes_length]; exact h)]

theorem num_statusData_clock (s : State) {i : Nat} (h : i < 25) : num (statusData s) (56 + i) = num (clockBytes s) i := by
  rw [statusData_eq, show 56 + i = 36 + (14 + (6 + i)) by omega, num_behind (statusHead_length s),
    num_behind (sequencerBytes_length _), num_behind (detectorBytes_length s), num_append (by rw [clockBytes_length]; exact h)]

theorem num_statusData_line (s : State) {i : Nat} (h : i < 17) : num (statusData s) (81 + i) = num (lineHead s.lu) i := by
  rw [statusData_eq, show 81 + i = 36 + (14 + (6 + (25 + i))) by omega, num_behind (statusHead_length s),
    num_behind (sequencerBytes_length _), num_behind (detectorBytes_length s), num_behind (clockBytes_length s),
    num_append (by rw [lineHead_length]; exact h)]

theorem num_statusData_counters (s : State) (i : Nat) : num (statusData s) (98 + i) = num (lineTail s.lu.counters) i := by
  rw [statusData_eq, show 98 + i = 36 + (14 + (6 + (25 + (17 + i)))) by omega, num_behind (statusHead_length s),
    num_behind (sequencerBytes_length _), num_behind (detectorBytes_length s), num_behind (clockBytes_length s),
    num_behind (lineHead_length _)]

theorem num16_statusData_clock (s : State) {i : Nat} (h : i < 24) : num16 (statusData s) (56 + i) = num16 (clockBytes s) i :=
  num16_congr (num_statusData_clock s (by omega)) (num_statusData_clock s (i := i + 1) (by omega))

theorem num16_statusData_counters (s : State) (i : Nat) : num16 (statusData s) (98 + i) = num16 (lineTail s.lu.counters) i :=
  num16_congr (num_statusData_counters s i) (num_statusData_counters s (i + 1))

theorem modeCode_lt (m : Mode) : modeCode m < 256 := by cases m <;> decide

theorem stationBytes_fields (s : State) : num (stationBytes s) 0 = modeCode s.os.mode ∧
    num16 (stationBytes s) 1 = s.os.timer % 65536 ∧ num16 (stationBytes s) 6 = s.tb.m % 65536 := by
  simp only [stationBytes, num16_eq, num, byteAt, byte, beBytes_two, List.cons_append, List.nil_append,
    List.getD_cons_zero, List.getD_cons_succ, BitVec.toNat_ofNat]
  exact ⟨Nat.mod_eq_of_lt (modeCode_lt _), by omega, by omega⟩

theorem optNum_lt {n : Nat} (hn : n < 255) (x : Option (Fin n)) : optNum x < 256 := by
  unfold optNum
  split <;> omega

theorem clockBytes_fields (s : State) : num16 (clockBytes s) 2 = s.ck.c % 65536 ∧ num16 (clockBytes s) 4 = s.ck.o % 65536 ∧
    num16 (clockBytes s) 6 = s.ck.p % 65536 ∧ num16 (clockBytes s) 8 = reference s % 65536 ∧
    (num16 (clockBytes s) 11 : Int) = s.ck.b % 65536 := by
  simp only [clockBytes, signed16, num16_eq, num, byteAt, byte, beBytes_two, List.cons_append, List.nil_append,
    List.getD_cons_zero, List.getD_cons_succ, BitVec.toNat_ofNat]
  omega

theorem accessCode_lt (a : Access) : accessCode a < 256 := by cases a <;> decide

theorem lineTail_fields (c : LineCounters) : num16 (lineTail c) 0 = c.sent % 65536 ∧ num16 (lineTail c) 14 = c.clashes % 65536 := by
  simp only [lineTail, List.flatMap_cons, List.flatMap_nil, num16_eq, num, byteAt, beBytes_two, List.cons_append, List.nil_append,
    List.getD_cons_zero, List.getD_cons_succ, BitVec.toNat_ofNat]
  omega

/-! ### READ GROUPS -/

theorem groupRecord_length (s : State) (g : Group) : (groupRecord s g).length = 7 := by simp [groupRecord, beBytes_length]

theorem groupsData_length (s : State) : (groupsData s).length = 112 := by
  rw [groupsData, length_flatMap (groupRecord_length s)]
  simp [groups]

theorem num_groupsData (s : State) (g : Group) {j : Nat} (hj : j < 7) :
    num (groupsData s) (7 * g.val + j) = num (groupRecord s g) j :=
  num_flatMap (groupRecord_length s) hj groups g.val g (finRange_getElem? g)

theorem groupCode_lt (p : GroupPhase) : groupCode p < 256 := by cases p <;> decide

theorem groupsData_fields (s : State) (g : Group) : num (groupsData s) (7 * g.val) = groupCode s.ge[g].phase ∧
    num16 (groupsData s) (7 * g.val + 2) = s.ge[g].timer % 65536 ∧ num (groupsData s) (7 * g.val + 4) = s.ge[g].e % 256 := by
  have h0 := num_groupsData s g (j := 0) (by decide)
  have h2 : num16 (groupsData s) (7 * g.val + 2) = num16 (groupRecord s g) 2 :=
    num16_congr (num_groupsData s g (by decide)) (num_groupsData s g (j := 3) (by decide))
  rw [Nat.add_zero] at h0
  rw [h0, h2, num_groupsData s g (by decide)]
  simp only [groupRecord, num16_eq, num, byteAt, byte, beBytes_two, List.cons_append, List.nil_append,
    List.getD_cons_zero, List.getD_cons_succ, BitVec.toNat_ofNat]
  exact ⟨Nat.mod_eq_of_lt (groupCode_lt _), by omega, trivial⟩

/-! ### READ NEIGHBORS -/

theorem lastBytes_length (last : Option LastBeacon) : (lastBytes last).1.length = 6 := by
  unfold lastBytes
  split
  · simp [beBytes_length]
  · rfl

theorem neighborRecord_length (c : Nat) (x : Option Entry) : (neighborRecord c x).length = 15 := by
  unfold neighborRecord
  split
  · rfl
  · simp [lastBytes_length, beBytes_length]

theorem neighborsData_length (s : State) : (neighborsData s).length = 121 := by
  rw [neighborsData, List.length_append, length_flatMap fun p => neighborRecord_length s.ck.c s.nt.places[p]]
  simp [places]

theorem neighborsTable_length (s : State) : (places.flatMap fun p => neighborRecord s.ck.c s.nt.places[p]).length = 120 := by
  rw [length_flatMap fun p => neighborRecord_length s.ck.c s.nt.places[p]]
  simp [places]

theorem num_neighborsData (s : State) (p : Place) {j : Nat} (hj : j < 15) :
    num (neighborsData s) (15 * p.val + j) = num (neighborRecord s.ck.c s.nt.places[p]) j := by
  rw [neighborsData, num_append (by rw [neighborsTable_length]; omega)]
  exact num_flatMap (fun p => neighborRecord_length s.ck.c s.nt.places[p]) hj places p.val p (finRange_getElem? p)

theorem entryCode_lt (x : EntryState) : entryCode x < 256 := by cases x <;> decide

theorem neighborsData_free {s : State} {p : Place} (h : s.nt.places[p] = none) : num (neighborsData s) (15 * p.val) = 0 := by
  have h0 := num_neighborsData s p (j := 0) (by decide)
  rw [Nat.add_zero, h] at h0
  exact h0

theorem neighborsData_entry {s : State} {p : Place} {e : Entry} (h : s.nt.places[p] = some e) :
    num (neighborsData s) (15 * p.val) = (if e.pinned = true then 1 else 2) ∧
      num (neighborsData s) (15 * p.val + 1) = e.address % 256 ∧ num (neighborsData s) (15 * p.val + 2) = entryCode e.state := by
  have h0 := num_neighborsData s p (j := 0) (by decide)
  rw [Nat.add_zero] at h0
  rw [h0, num_neighborsData s p (by decide), num_neighborsData s p (by decide), h]
  simp only [neighborRecord, List.cons_append, List.nil_append, num, byteAt, byte, List.getD_cons_zero,
    List.getD_cons_succ, BitVec.toNat_ofNat]
  refine ⟨Nat.mod_eq_of_lt ?_, trivial, Nat.mod_eq_of_lt (entryCode_lt _)⟩
  split <;> decide

theorem neighborsData_refused (s : State) : num (neighborsData s) 120 = s.nt.refused % 256 := by
  rw [neighborsData, show 120 = 120 + 0 from rfl, num_behind (neighborsTable_length s)]
  rfl

/-! ### READ PLATOONS -/

/-- The queue and the links of READ PLATOONS. -/
def platoonsHead (s : State) : List Byte :=
  [byte s.pl.queue.length, byte (bit s.pl.accepting)] ++ padRecords 16 8 (s.pl.queue.map noticeRecord) ++
    padRecords 8 6 (linkRecords s)

def platoonCounters (pl : PlState) : List Byte :=
  beBytes 2 pl.withheld ++ (beBytes 2 pl.unlinked ++ (beBytes 2 pl.stale ++ beBytes 2 pl.overflow))

theorem platoonsData_eq (s : State) : platoonsData s = platoonsHead s ++ platoonCounters s.pl := by
  simp only [platoonsData, platoonsHead, platoonCounters, List.append_assoc]

theorem noticeRecord_length (n : Notice) : (noticeRecord n).length = 8 := by simp [noticeRecord, beBytes_length]

theorem linkRecord_length (s : State) (p : Place) (l : LinkSend) : (linkRecord s p l).length = 6 := by
  simp [linkRecord, beBytes_length]

theorem linkRecords_length (s : State) : ∀ x ∈ linkRecords s, x.length = 6 := by
  intro x hx
  simp only [linkRecords, List.mem_filterMap, Option.map_eq_some_iff] at hx
  obtain ⟨p, -, l, -, rfl⟩ := hx
  exact linkRecord_length s p l

theorem platoonsHead_length (s : State) : (platoonsHead s).length = 178 := by
  have hq : (padRecords 16 8 (s.pl.queue.map noticeRecord)).length = 16 * 8 := padRecords_length (by simp [noticeRecord_length])
  simp [platoonsHead, hq, padRecords_length (k := 8) (linkRecords_length s)]

theorem platoonsData_length (s : State) : (platoonsData s).length = 186 := by
  simp [platoonsData_eq, platoonsHead_length, platoonCounters, beBytes_length]

theorem platoonsData_fields (s : State) : num (platoonsData s) 0 = s.pl.queue.length % 256 ∧
    num (platoonsData s) 1 = (if s.pl.accepting = true then 1 else 0) ∧
    num16 (platoonsData s) 178 = s.pl.withheld % 65536 ∧ num16 (platoonsData s) 184 = s.pl.overflow % 65536 := by
  have counters (i : Nat) : num16 (platoonsData s) (178 + i) = num16 (platoonCounters s.pl) i := by
    rw [platoonsData_eq]
    exact num16_congr (num_behind (platoonsHead_length s) _ i) (num_behind (platoonsHead_length s) _ (i + 1))
  refine ⟨?_, ?_, (counters 0).trans ?_, (counters 6).trans ?_⟩
  · rw [platoonsData_eq, num_append (by rw [platoonsHead_length]; decide)]
    exact BitVec.toNat_ofNat _ _
  · rw [platoonsData_eq, num_append (by rw [platoonsHead_length]; decide)]
    show (byte (bit s.pl.accepting)).toNat = _
    cases s.pl.accepting <;> rfl
  · simp only [platoonCounters, num16_eq, num, byteAt, beBytes_two, List.cons_append, List.nil_append, List.getD_cons_zero,
      List.getD_cons_succ, BitVec.toNat_ofNat]
    omega
  · simp only [platoonCounters, num16_eq, num, byteAt, beBytes_two, List.cons_append, List.nil_append, List.getD_cons_zero,
      List.getD_cons_succ, BitVec.toNat_ofNat]
    omega

/-! ### READ PREEMPTION -/

theorem classRecord_length (pe : PeState) (c : PreClass) : (classRecord pe c).length = 6 := by simp [classRecord, beBytes_length]

theorem classRecords_length (pe : PeState) : (allClasses.flatMap (classRecord pe)).length = 18 := by
  rw [length_flatMap (classRecord_length pe)]
  rfl

theorem serviceRecord_length (v : Option Service) : (serviceRecord v).length = 7 := by
  unfold serviceRecord
  split
  · simp [beBytes_length]
  · rfl

theorem commandRecord_length (c : Option (Stage × Bool)) : (commandRecord c).length = 2 := by
  unfold commandRecord
  split <;> rfl

theorem alertRecord_length (a : Option LineAlert) : (alertRecord a).length = 4 := by
  unfold alertRecord
  split
  · simp [beBytes_length]
  · rfl

/-- The bytes of READ PREEMPTION between the active service and the alert serial. -/
def preemptionMiddle (pe : PeState) : List Byte :=
  commandRecord pe.command ++ padRecords 2 5 (pe.stack.map stackRecord) ++ alertRecord pe.alert

theorem preemptionMiddle_length (pe : PeState) : (preemptionMiddle pe).length = 16 := by
  have hs : (padRecords 2 5 (pe.stack.map stackRecord)).length = 2 * 5 := padRecords_length (by simp [stackRecord, beBytes_length])
  simp [preemptionMiddle, commandRecord_length, alertRecord_length, hs]

theorem preemptionData_eq (s : State) : preemptionData s = allClasses.flatMap (classRecord s.pe) ++
    (serviceRecord s.pe.service ++ (preemptionMiddle s.pe ++
      (byte s.pe.alertSerial :: (beBytes 2 s.pe.withheld ++ beBytes 2 s.pe.ignored)))) := by
  simp only [preemptionData, preemptionMiddle, List.append_assoc, List.cons_append, List.nil_append]

theorem preemptionData_length (s : State) : (preemptionData s).length = 46 := by
  simp [preemptionData_eq, classRecords_length, serviceRecord_length, preemptionMiddle_length, beBytes_length,
    -List.length_flatMap]

theorem requestCode_lt (r : Request) : requestCode r < 256 := by cases r <;> decide

theorem allClasses_getElem? (c : PreClass) : allClasses[(classIndex c).val]? = some c := by cases c <;> rfl

theorem preemptionData_fields (s : State) :
    (∀ c, num (preemptionData s) (6 * (classIndex c).val) = requestCode (s.pe.cls c).request) ∧
      num (preemptionData s) 18 = classCode (s.pe.service.map fun v => v.cls) ∧
      num (preemptionData s) 41 = s.pe.alertSerial % 256 := by
  rw [preemptionData_eq]
  refine ⟨fun c => ?_, ?_, ?_⟩
  · have hc := (classIndex c).isLt
    have h0 := num_flatMap (classRecord_length s.pe) (j := 0) (by decide) allClasses _ c (allClasses_getElem? c)
    rw [num_append (by rw [classRecords_length]; omega), ← Nat.add_zero (6 * _), h0]
    exact toNat_byte (requestCode_lt _)
  · rw [show 18 = 18 + 0 from rfl, num_behind (classRecords_length s.pe), num_append (by rw [serviceRecord_length]; decide)]
    cases s.pe.service with
    | none => rfl
    | some v => cases h : v.cls <;> simp [serviceRecord, h, num, byteAt, byte, classCode]
  · rw [show 41 = 18 + (7 + (16 + 0)) from rfl, num_behind (classRecords_length s.pe), num_behind (serviceRecord_length _),
      num_behind (preemptionMiddle_length _)]
    exact BitVec.toNat_ofNat _ _

/-- Settles O59: each field stands behind parts of fixed lengths. -/
theorem readCommandsShowTheState : Obligations.ReadCommandsShowTheState := by
  intro s hm
  have accepted (m : MpCommand) (ha : statusOutsideLoading s m = .accepted) : mpStatus s m = .accepted :=
    (mpStatus_outside hm m).trans ha
  refine ⟨?_, ?_, ?_, ?_, ?_⟩
  · obtain ⟨t, hx, ho, hr⟩ := exec_accepted (c := .status) rfl (accepted .status rfl)
    obtain ⟨hmode, htimer, hmark⟩ := stationBytes_fields s
    obtain ⟨hc, ho', hp, hreference, hb⟩ := clockBytes_fields s
    obtain ⟨hsent, hclashes⟩ := lineTail_fields s.lu.counters
    refine ⟨t, _, hx, ho, hr, statusData_length s, (num_statusData_station s (by decide)).trans hmode, ?_, ?_, ?_, ?_,
      (num16_statusData_clock s (i := 2) (by decide)).trans hc, (num16_statusData_clock s (i := 4) (by decide)).trans ho',
      (num16_statusData_clock s (i := 6) (by decide)).trans hp, (num16_statusData_clock s (i := 8) (by decide)).trans hreference,
      (congrArg Nat.cast (num16_statusData_clock s (i := 11) (by decide))).trans hb,
      (num_statusData_line s (i := 0) (by decide)).trans (toNat_byte (accessCode_lt _)),
      (num16_statusData_counters s 0).trans hsent, (num16_statusData_counters s 14).trans hclashes⟩
    · exact (num16_congr (num_statusData_station s (by decide)) (num_statusData_station s (by decide))).trans htimer
    · exact (num16_congr (num_statusData_station s (by decide)) (num_statusData_station s (by decide))).trans hmark
    · exact (num_statusData_sequencer s (i := 0) (by decide)).trans (toNat_byte (optNum_lt (by decide) _))
    · exact (num_statusData_sequencer s (i := 1) (by decide)).trans (toNat_byte (optNum_lt (by decide) _))
  · obtain ⟨t, hx, ho, hr⟩ := exec_accepted (c := .readGroups) rfl (accepted .readGroups rfl)
    exact ⟨t, _, hx, ho, hr, groupsData_length s, groupsData_fields s⟩
  · obtain ⟨t, hx, ho, hr⟩ := exec_accepted (c := .readNeighbors) rfl (accepted .readNeighbors rfl)
    exact ⟨t, _, hx, ho, hr, neighborsData_length s, neighborsData_refused s,
      fun p => ⟨neighborsData_free, fun e => neighborsData_entry⟩⟩
  · obtain ⟨t, hx, ho, hr⟩ := exec_accepted (c := .readPlatoons) rfl (accepted .readPlatoons rfl)
    exact ⟨t, _, hx, ho, hr, platoonsData_length s, platoonsData_fields s⟩
  · obtain ⟨t, hx, ho, hr⟩ := exec_accepted (c := .readPreemption) rfl (accepted .readPreemption rfl)
    exact ⟨t, _, hx, ho, hr, preemptionData_length s, preemptionData_fields s⟩

end Sys2Proof.Machine


/-!
# The commands that act on one block (O60)
-/

namespace Sys2Proof.Machine

/-! ### The pending set as bytes (R56) -/

theorem packItems_bits_testBit : ∀ (xs : List Bool) (i : Nat), (packItems 1 (xs.map bit)).testBit i = xs.getD i false
  | [], i => by simp [packItems]
  | b :: xs, 0 => by
    rw [Nat.testBit_zero]
    show decide ((bit b + 2 ^ 1 * packItems 1 (xs.map bit)) % 2 = 1) = b
    cases b <;> simp [bit]
  | b :: xs, i + 1 => by
    rw [Nat.testBit_succ, show packItems 1 ((b :: xs).map bit) / 2 = packItems 1 (xs.map bit) from ?_]
    · exact packItems_bits_testBit xs i
    · show (bit b + 2 ^ 1 * packItems 1 (xs.map bit)) / 2 = _
      have hb : bit b ≤ 1 := by cases b <;> decide
      omega

theorem packItems_bits_lt : ∀ xs : List Bool, packItems 1 (xs.map bit) < 2 ^ xs.length
  | [] => by simp [packItems]
  | b :: xs => by
    have ih := packItems_bits_lt xs
    have hb : bit b ≤ 1 := by cases b <;> simp [bit]
    show bit b + 2 ^ 1 * packItems 1 (xs.map bit) < 2 ^ (xs.length + 1)
    rw [Nat.pow_succ]
    omega

theorem three_bytes {v : Nat} (h : v < 2 ^ 24) :
    65536 * (BitVec.ofNat 8 (v / 256 / 256)).toNat + 256 * (BitVec.ofNat 8 (v / 256)).toNat + (BitVec.ofNat 8 v).toNat = v := by
  simp only [BitVec.toNat_ofNat]
  omega

/-- The pending flags, detector 1 first. -/
def pendingFlags (s : State) : List Bool := (List.finRange 24).map fun d => s.du[d].pending

theorem pendingFlags_getD (s : State) (d : Detector) : (pendingFlags s).getD d.val false = s.du[d].pending := by
  rw [pendingFlags, List.getD_eq_getElem?_getD, List.getElem?_map, finRange_getElem?]
  rfl

theorem pendingData_eq (s : State) : pendingData s = beBytes 3 (packItems 1 ((pendingFlags s).map bit)) := by
  rw [pendingData, pendingFlags, List.map_map]
  rfl

theorem beBytes_three (v : Nat) : beBytes 3 v = [BitVec.ofNat 8 (v / 256 / 256), BitVec.ofNat 8 (v / 256), BitVec.ofNat 8 v] := by
  simp [beBytes]

theorem pendingFlags_bits (s : State) (d : Detector) :
    (packItems 1 ((pendingFlags s).map bit)).testBit d.val = s.du[d].pending :=
  (packItems_bits_testBit _ _).trans (pendingFlags_getD s d)

theorem pendingFlags_lt (s : State) : packItems 1 ((pendingFlags s).map bit) < 2 ^ 24 := by
  have hlength : (pendingFlags s).length = 24 := by simp [pendingFlags]
  exact hlength ▸ packItems_bits_lt (pendingFlags s)

theorem pendingData_bits (s : State) : ∃ a b c, pendingData s = [a, b, c] ∧
    ∀ d : Detector, (65536 * a.toNat + 256 * b.toNat + c.toNat).testBit d.val = s.du[d].pending := by
  refine ⟨_, _, _, (pendingData_eq s).trans (beBytes_three _), fun d => ?_⟩
  rw [three_bytes (pendingFlags_lt s)]
  exact pendingFlags_bits s d

/-! ### The effects -/

theorem clearPending_du (mask : BitVec 24) (s : State) (d : Detector) :
    (clearPending mask s).du[d] = { s.du[d] with pending := s.du[d].pending && !mask.getLsbD d.val } := by
  show (tab 24 _)[d] = _
  rw [tab_get]

theorem writeCall_eq (g : Group) (s : State) : (writeCall g s).sq = { s.sq with
    calls := if s.ge[g].phase = .green ∨ s.ge[g].phase = .off then s.sq.calls else put s.sq.calls g true } := by
  rcases writeCall_cases g s with ⟨hphase, heq⟩ | ⟨hphase, heq⟩
  · rw [heq, if_pos hphase]
  · rw [heq, if_neg (not_or.mpr hphase)]
    rfl

theorem resetDetectors_reset (s : State) : DetectorsReset (resetDetectors s) := fun d => tab_get (fun _ : Detector => Det.reset) d

theorem selectPlan_ck (img : Image) (p : Plan) (s : State) : (selectPlan img p s).ck =
    if s.ck.active = some p ∧ s.ck.pendingPlan = some p then s.ck
      else { s.ck with pendingPlan := some p, planHold := 60 * img.planHold } := by
  unfold selectPlan
  by_cases h : s.ck.active = some p
  · rw [h]
    split_ifs <;> rfl
  · rw [if_neg (fun hc => h hc.1), if_neg (fun hc => h hc.1)]
    rfl

theorem restartClock_ck (s : State) : (restartClock s).ck =
    if coordinatedActive s then { s.ck with b := 0, hold := 0, unsync := true, unsyncCount := 0 }
      else { s.ck with b := 0, hold := 0 } := rfl

theorem restartTable_places (s : State) (p : Place) : (restartTable s).nt.places[p] = (s.nt.places[p]).bind fun e =>
    if e.pinned = true then some { e with state := .absent, last := none, age := 65535 } else none := by
  refine (tab_get (fun p : Place => (s.nt.places[p]).bind loseEntry) p).trans ?_
  cases s.nt.places[p] <;> rfl

theorem holdsBeacon_iff (u : LuState) : holdsBeacon u = true ↔
    (∃ q ∈ u.queue, q.frame = .beacon) ∨ u.inHand.map (fun h => h.frame) = some .beacon := by
  unfold holdsBeacon
  cases u.inHand <;> simp

/-- R117. -/
theorem restartLine_restarted (s : State) : LineCountersZero (restartLine s).lu ∧
    (s.lu.access = .disabled → (restartLine s).ck = s.ck ∧
      (restartLine s).lu = { s.lu with counters := (restartLine s).lu.counters, clash := false }) ∧
    (s.lu.access ≠ .disabled → (restartLine s).lu.access = .idle ∧ LineQuiet (restartLine s).lu ∧
      (restartLine s).lu.sequence = BitVec.ofNat 16 (stationAddress s) ∧
      ((∃ q ∈ s.lu.queue, q.frame = .beacon) ∨ s.lu.inHand.map (fun h => h.frame) = some .beacon →
        (restartLine s).ck = { s.ck with beaconCount := 0 }) ∧
      ((∀ q ∈ s.lu.queue, q.frame ≠ .beacon) → s.lu.inHand.map (fun h => h.frame) ≠ some .beacon →
        (restartLine s).ck = s.ck)) := by
  unfold restartLine
  split
  next hd => exact ⟨⟨rfl, rfl⟩, fun _ => ⟨rfl, rfl⟩, fun h => absurd hd h⟩
  next hd =>
    refine ⟨⟨rfl, rfl⟩, fun h => absurd h hd, fun _ => ⟨rfl, ⟨rfl, rfl, rfl, rfl, rfl, rfl, rfl⟩, rfl, fun h => ?_, fun h h' => ?_⟩⟩
    · have hb := (holdsBeacon_iff s.lu).mpr h
      simp only [hb, if_true]
      rfl
    · have hb : holdsBeacon s.lu = false := by
        by_contra hc
        rcases (holdsBeacon_iff s.lu).mp (by simpa using hc) with ⟨q, hq, hqf⟩ | hi
        · exact h q hq hqf
        · exact h' hi
      simp [hb]

/-- Settles O60: what each accepted command carries out, in its own blocks. -/
theorem commandsActOnTheirBlocks : Obligations.CommandsActOnTheirBlocks := by
  intro s hm
  refine ⟨fun mask => ?_, fun arg g hg hon => ?_, fun arg p img hp hi hn => ?_, ?_, ?_, ?_⟩
  · obtain ⟨t, hx, ho, hr⟩ := exec_accepted (c := .exchangePending mask) rfl (mpStatus_outside hm (.exchangePending mask))
    obtain ⟨a, b, c, hdata, hbits⟩ := pendingData_bits s
    refine ⟨t, a, b, c, hx, ((carryOut_blocks (.exchangePending mask) s).mono (by simp [MpCommand.blocks])).trans
      (ho.mono (by simp)), hr.trans (congrArg _ hdata), hbits, fun d => ?_⟩
    rw [ho.du (by simp)]
    exact clearPending_du mask s d
  · have ha : mpStatus s (.placeCall arg) = .accepted :=
      (mpStatus_outside hm _).trans ((placeCallStatus_eq s arg).trans (if_pos ⟨g, hg, hon⟩))
    obtain ⟨t, hx, ho, hr⟩ := exec_accepted (c := .placeCall arg) rfl ha
    have hcall : carryOut s (.placeCall arg) = writeCall g s := by
      show placeCallEffect arg s = _
      simp only [placeCallEffect, codeItem_eq_some.mpr hg]
    refine ⟨t, hx, ((carryOut_blocks (.placeCall arg) s).mono (by simp [MpCommand.blocks])).trans (ho.mono (by simp)), hr, ?_⟩
    rw [ho.sq (by simp), hcall]
    exact writeCall_eq g s
  · have hlt := p.isLt
    have ha : mpStatus s (.selectPlan arg) = .accepted :=
      (mpStatus_outside hm _).trans ((selectPlanStatus_eq _ arg).trans (by
        rw [if_neg (show ¬(arg.toNat = 0 ∨ 4 < arg.toNat) by omega), if_neg hn]))
    obtain ⟨t, hx, ho, hr⟩ := exec_accepted (c := .selectPlan arg) rfl ha
    have hplan : carryOut s (.selectPlan arg) = selectPlan img p s := by
      show selectPlanEffect arg s = _
      simp only [selectPlanEffect, hi, codeItem_eq_some.mpr hp]
    refine ⟨t, hx, ((carryOut_blocks (.selectPlan arg) s).mono (by simp [MpCommand.blocks])).trans (ho.mono (by simp)), hr, ?_⟩
    rw [ho.ck (by simp), hplan]
    exact selectPlan_ck img p s
  · obtain ⟨t, hx, ho, hr⟩ := exec_accepted (c := .blockRestartDetectors) rfl (mpStatus_outside hm (.blockRestart 3))
    have hreset : carryOut s (.blockRestart 3) = blockRestartDetectors s := rfl
    rw [hreset] at ho
    refine ⟨t, hx, ((blockRestartDetectors_only s).mono (by simp)).trans (ho.mono (by simp)), hr, fun hi d => ?_, fun hi => ?_⟩
    · obtain ⟨img, hi⟩ := Option.ne_none_iff_exists'.mp hi
      rw [ho.du (by simp), show blockRestartDetectors s = resetDetectors s by simp [blockRestartDetectors, hi]]
      exact resetDetectors_reset s d
    · rw [ho.du (by simp), show blockRestartDetectors s = s by simp [blockRestartDetectors, hi]]
  · obtain ⟨t, hx, ho, hr⟩ := exec_accepted (c := .blockRestartNeighbors) rfl (mpStatus_outside hm (.blockRestart 2))
    have hreset : carryOut s (.blockRestart 2) = restartClock (restartTable s) := rfl
    rw [hreset] at ho
    have hnt : t.nt = (restartTable s).nt := (ho.nt (by simp)).trans ((restartClock_only _).nt (by simp))
    have hck : t.ck = (restartClock s).ck := ho.ck (by simp)
    refine ⟨t, hx, ?_, hr, by rw [hnt]; rfl, fun p => ?_, fun p => ?_, fun hc => ?_, fun hc => ?_⟩
    · exact (((restartTable_only s).mono (by simp)).trans ((restartClock_only _).mono (by simp))).trans (ho.mono (by simp))
    · rw [hnt]
      exact restartTable_places s p
    · rw [hnt]
      exact tab_get (fun _ : Place => false) p
    · rw [hck, restartClock_ck, if_pos hc]
    · rw [hck, restartClock_ck, if_neg (by simp [hc])]
  · obtain ⟨t, hx, ho, hr⟩ := exec_accepted (c := .blockRestartLine) rfl (mpStatus_outside hm (.blockRestart 1))
    have hreset : carryOut s (.blockRestart 1) = restartLine s := rfl
    rw [hreset] at ho
    refine ⟨t, hx, ((restartLine_only s).mono (by simp)).trans (ho.mono (by simp)), hr, ?_⟩
    rw [ho.lu (by simp), ho.ck (by simp)]
    exact restartLine_restarted s

end Sys2Proof.Machine


/-!
# Mode entries by event and command, and the halt (O26, O53, O56)
-/

namespace Sys2Proof.Machine

/-! ## The entries of START RED and of RUN -/

/-- Table 10.3: all that the entry of START RED does. -/
theorem enterStartRed_entered {s : State} {img : Image} (hi : s.cf.image = some img) :
    EnteredStartRed img s (enterStartRed s) ∧ GreensEnded s (enterStartRed s) := by
  refine ⟨⟨rfl, ?_, fun g => ?_, clearCounts_countsZero s.os, fun g => ?_, ?_⟩, ?_⟩
  · show startRedTime s = img.startRed
    simp [startRedTime, hi]
  · rw [← groupEnabled_eq hi]
    exact setSources_source .sequencer _ g
  · rw [enterStartRed_ge, groupEnabled_eq hi]
  · exact ⟨⟨rfl, rfl, rfl, rfl, rfl, rfl, rfl, rfl, rfl, rfl, rfl, rfl, rfl, rfl⟩, rfl, rfl⟩
  · exact stopSequencer_greensEnded (t := groupsStartRed (setSources .sequencer (s.withOs _))) rfl

theorem enterStartRed_fault (s : State) :
    (enterStartRed s).os.fault = s.os.fault ∧ (enterStartRed s).os.additional = s.os.additional := ⟨rfl, rfl⟩

/-- R40: RUN begins with the change toward the start stage. -/
theorem enterRun_entered {s : State} {img : Image} {st : Stage} (hi : s.cf.image = some img) (hst : img.startStage = some st) :
    (enterRun s).os = { s.os with mode := .run, timer := 0 } ∧
      (enterRun s).sq = { s.sq with
        target := some st, phase := .changing, changeTruncating := false, entering := (enterRun s).sq.entering } ∧
      ∀ g : Group, (enterRun s).ge[g] =
        if img.stages[st].groups[g] = true then { s.ge[g] with entry := true } else s.ge[g] := by
  have hrun : enterRun s = startRun (some st) (s.withOs { s.os with mode := .run, timer := 0 }) := by
    simp only [enterRun, hi, Option.bind_some, hst]
  refine ⟨enterRun_os s, ?_, fun g => ?_⟩
  · rw [hrun]
    rfl
  · rw [hrun]
    have hg : (startRun (some st) (s.withOs { s.os with mode := .run, timer := 0 })).ge[g] =
        if inStage s st g then { s.ge[g] with entry := true } else s.ge[g] := mapGroups_ge _ _ g
    rw [hg]
    simp [inStage, hi]

/-! ## MODE_TIMER_EXPIRY, CONFLICT and MISMATCH (O53) -/

theorem exec_modeTimerExpiry {s : State} (ht : s.os.timer ≤ 1) (hm : s.os.mode = .startFlash ∨ s.os.mode = .startRed) :
    exec .modeTimerExpiry s = .next (modeAfterTimer (s.withOs { s.os with timer := 0 })) :=
  congrArg Host.Outcome.next (whenDue_true (by simpa [modeTimerRuns, ht] using hm) _ _)

theorem lampCommand_flashes_iff (c : LampCommand) : c.flashes = false ↔ c = .steady ∨ c = .off := by
  cases c <;> simp [LampCommand.flashes]

/-- Settles O53: each row leads to its mode's entry. -/
theorem modeEventsEnterTheirModes : Obligations.ModeEventsEnterTheirModes := by
  refine ⟨fun s img hi ht => ⟨fun hm => ?_, fun st hm hst => ?_⟩, fun a b s img hi hm hlt hc hn => ?_, fun ch l s p hp => ?_,
    fun ch l s img hi hl hm hn => ?_⟩
  · have hafter : modeAfterTimer (s.withOs { s.os with timer := 0 }) = enterStartRed (s.withOs { s.os with timer := 0 }) := by
      simp only [modeAfterTimer, State.withOs_os, hm]
    obtain ⟨entered, ended⟩ := enterStartRed_entered (s := s.withOs { s.os with timer := 0 }) hi
    refine ⟨_, (exec_modeTimerExpiry ht (.inl hm)).trans (congrArg _ hafter), ?_, entered, ended, rfl, rfl⟩
    exact ((withOs_only s _).mono (by simp)).trans (enterStartRed_only _)
  · have hafter : modeAfterTimer (s.withOs { s.os with timer := 0 }) = enterRun (s.withOs { s.os with timer := 0 }) := by
      simp only [modeAfterTimer, State.withOs_os, hm]
    refine ⟨_, (exec_modeTimerExpiry ht (.inr hm)).trans (congrArg _ hafter), ?_,
      enterRun_entered (s := s.withOs { s.os with timer := 0 }) hi hst⟩
    exact ((withOs_only s _).mono (by simp)).trans (enterRun_only _)
  · have hx : exec (.conflict a b) s = .next (latchFault (.conflict a b) 0 s) := by
      show execConflict a b s = _
      unfold execConflict
      rw [hi]
      exact congrArg Host.Outcome.next (whenDue_true (by simp [(monitored_iff _).mpr hm, hlt, hc, hn, -Fin.getElem_fin]) _ _)
    exact ⟨_, hx, latchFault_only _ _ s, latchFault_latched hi _ 0⟩
  · refine congrArg Host.Outcome.next (whenDue_false ?_ _ _)
    simp [hp, LampCommand.flashes]
  · have hx : exec (.mismatch ch l) s = .next (latchFault (.mismatch ch l) 0 s) :=
      congrArg Host.Outcome.next (whenDue_true (by
        simp [(monitored_iff _).mpr hm, (lampCommand_flashes_iff _).mpr hl, hn, -Fin.getElem_fin]) _ _)
    exact ⟨_, hx, latchFault_only _ _ s, latchFault_latched hi _ 0⟩

/-! ## HALT and HALT_DONE (O26) -/

theorem allRedOrOff_iff (s : State) : allRedOrOff s = true ↔ ∀ g : Group, s.ge[g].phase = .red ∨ s.ge[g].phase = .off := by
  simp [allRedOrOff, -Fin.getElem_fin]

theorem SameMotion.allRedOrOff {s t : State} (h : SameMotion s t) : allRedOrOff t = allRedOrOff s := by
  rw [Bool.eq_iff_iff, allRedOrOff_iff, allRedOrOff_iff]
  exact forall_congr' fun g => by rw [(h.get g).1]

/-- R45: what the halt does to the sequencer's own state. -/
theorem takeHalt_sq (s : State) : (takeHalt s).sq.lastCause = some .flash ∧ (takeHalt s).sq.calls = s.sq.calls ∧
    (takeHalt s).sq.target = none ∧ (takeHalt s).sq.phase = .changing ∧ (takeHalt s).sq.command = none ∧
    (takeHalt s).sq.passageRunning = false ∧ (takeHalt s).sq.maxRunning = false ∧ (takeHalt s).sq.holdRunning = false ∧
    (takeHalt s).sq.hold = 0 ∧ (takeHalt s).sq.latch = some .flash ∧ (takeHalt s).sq.current = s.sq.current ∧
    (takeHalt s).sq.haltRequest = s.sq.haltRequest := by
  have hdrop : (dropCommand s).sq.calls = s.sq.calls ∧ (dropCommand s).sq.current = s.sq.current ∧
      (dropCommand s).sq.haltRequest = s.sq.haltRequest := by
    unfold dropCommand
    dsimp only
    split <;> exact ⟨rfl, rfl, rfl⟩
  obtain ⟨hcalls, hcurrent, hhalt⟩ := hdrop
  exact ⟨rfl, hcalls, rfl, rfl, rfl, rfl, rfl, rfl, rfl, rfl, hcurrent, hhalt⟩

theorem dropCommand_ge (s : State) (g : Group) :
    (dropCommand s).ge[g] = if commandTruncates s.sq then downgradeLeave s.ge[g] else s.ge[g] := by
  unfold dropCommand
  dsimp only
  split
  · exact mapGroups_ge _ s g
  · rfl

theorem addLeaveIfNone_isSome (k : Leave) (x : GroupState) : (addLeaveIfNone k x).leave.isSome = true := by
  unfold addLeaveIfNone
  split
  · rfl
  next h => simp [h]

theorem addLeaveIfNone_ordinary {x : GroupState} (h : x.leave ≠ some .truncating) :
    (addLeaveIfNone .ordinary x).leave = some .ordinary := by
  unfold addLeaveIfNone
  split
  · rfl
  next k hk => cases k <;> simp_all

theorem addLeaveIfNone_entry (k : Leave) (x : GroupState) : (addLeaveIfNone k x).entry = x.entry := by
  unfold addLeaveIfNone
  split <;> rfl

theorem downgradeLeave_green {x : GroupState} (h : x.phase = .green) : (downgradeLeave x).leave ≠ some .truncating := by
  unfold downgradeLeave
  split <;> simp_all

/-- R45: what the halt does to one group. -/
theorem takeHalt_ge (s : State) (g : Group) : (takeHalt s).ge[g].entry = false ∧
    (s.ge[g].phase = .green → (takeHalt s).ge[g].leave.isSome = true ∧
      (commandTruncates s.sq = true ∨ s.ge[g].leave ≠ some .truncating → (takeHalt s).ge[g].leave = some .ordinary)) := by
  have hg : (takeHalt s).ge[g] = if (dropCommand s).ge[g].phase = .green then
      addLeaveIfNone .ordinary (withdrawEntry (dropCommand s).ge[g]) else withdrawEntry (dropCommand s).ge[g] :=
    mapGroups_ge (fun _ x => if x.phase = .green then addLeaveIfNone .ordinary (withdrawEntry x) else withdrawEntry x)
      (dropCommand s) g
  have hphase : (dropCommand s).ge[g].phase = s.ge[g].phase := ((dropCommand_motion s).get g).1
  rw [hg, hphase]
  refine ⟨?_, fun hgreen => ?_⟩
  · split
    · rw [addLeaveIfNone_entry, withdrawEntry]
    · rw [withdrawEntry]
  · rw [if_pos hgreen]
    refine ⟨addLeaveIfNone_isSome _ _, fun h => addLeaveIfNone_ordinary ?_⟩
    show (dropCommand s).ge[g].leave ≠ _
    rw [dropCommand_ge]
    split
    · exact downgradeLeave_green hgreen
    next hc => exact h.resolve_left hc

/-- R45, R169: the halt that is done, reported. -/
theorem reportHalt_entered {s : State} {img : Image} (hi : s.cf.image = some img) :
    EnteredFlash img .manualFlash .manual s (reportHalt s) :=
  enterFlash_entered (s := s.withSq { s.sq with current := none }) hi .manualFlash .manual

/-- Settles O26: the halt request taken, and the report once every group is in RED or OFF. -/
theorem haltWindsDownToManualFlash : Obligations.HaltWindsDownToManualFlash := by
  refine ⟨fun s img hi hm hr hl => ?_, fun s img hi hm hr hl hall => ?_⟩
  · have hx : exec .halt s = .next (if haltFinished (readGreens (takeHalt s)) then reportHalt (readGreens (takeHalt s))
        else readGreens (takeHalt s)) :=
      congrArg Host.Outcome.next (whenDue_true (by simp [hm, haltWaiting, hr, hl]) _ _)
    have hmotion : SameMotion s (readGreens (takeHalt s)) := (takeHalt_motion s).trans (.of_ge rfl)
    have hreach : Only [.ge, .sq, .pl] s (readGreens (takeHalt s)) := readGreens_after (takeHalt_only s)
    obtain ⟨hlast, hcalls, htarget, hphase, hcommand, hpassage, hmax, hhold, hhold0, hlatch, hcurrent, hhalt⟩ := takeHalt_sq s
    have hfinished : haltFinished (readGreens (takeHalt s)) = allRedOrOff s := by
      rw [haltFinished, hmotion.allRedOrOff, hreach.os (by simp)]
      show (s.os.mode == .flashEntry && (takeHalt s).sq.haltRequest && (takeHalt s).sq.latch == some .flash && _) = _
      simp [hm, hhalt, hr, hlatch]
    rw [hx]
    cases hall : allRedOrOff s with
    | false =>
      rw [hfinished, hall]
      refine ⟨_, rfl, hreach.mono (by simp), hlast, hcalls, htarget, hphase, hcommand, hpassage, hmax, hhold, hhold0,
        fun _ => ⟨hreach.os (by simp), hreach.lu (by simp), readGreens_reread ((takeHalt_only s).pl (by simp)), hlatch, hcurrent,
          hhalt.trans hr, fun g => ?_⟩, (nomatch ·)⟩
      obtain ⟨h1, h2, h3⟩ := (takeHalt_motion s).get g
      obtain ⟨hentry, hleave⟩ := takeHalt_ge s g
      exact ⟨h1, h2, h3, hentry, hleave⟩
    | true =>
      rw [hfinished, hall, if_pos rfl]
      have hi' : (readGreens (takeHalt s)).cf.image = some img := by rw [hreach.cf (by simp), hi]
      obtain ⟨hmode, -, hsources, -, hforced, ⟨hstopped, hkeptLast, hkeptCalls⟩, -, hqueue, -, -, hoffered⟩ :=
        reportHalt_entered hi'
      obtain ⟨-, h1, h2, -, -, h3, -, h4, -, h5, h6, h7, -, -⟩ := id hstopped
      refine ⟨_, rfl, (hreach.mono (by simp)).trans (reportHalt_only_of_finished (by rw [hfinished, hall])),
        hkeptLast.trans hlast, hkeptCalls.trans hcalls, h1, h2, h7, h3, h4, h6, h5, (nomatch ·), fun _ =>
        ⟨hmode, hstopped, hqueue, hsources, fun g hon => by rw [hforced g, if_pos hon], ?_⟩⟩
      unfold Offered at hoffered ⊢
      rwa [hreach.lu (by simp)] at hoffered
  · have hfinished : haltFinished s = true := by simp [haltFinished, hm, hr, hl, (allRedOrOff_iff s).mpr hall]
    refine ⟨_, congrArg Host.Outcome.next (whenDue_true hfinished _ _), reportHalt_only_of_finished hfinished,
      reportHalt_entered hi, ?_, ?_⟩
    · exact enterFlash_fault _ _ (s.withSq { s.sq with current := none })
    · exact enterFlash_additional _ _ (s.withSq { s.sq with current := none })

end Sys2Proof.Machine


/-!
# The commands that change the station mode (O56)
-/

namespace Sys2Proof.Machine

/-! ## MANUAL FLASH ON (R15, R160, R168) -/

theorem mpStatus_manualFlashOn {s : State} (hm : s.os.mode = .run) (hv : ∀ v, s.pe.service = some v → v.cls ≠ .rail) :
    mpStatus s .manualFlashOn = .accepted := by
  refine (mpStatus_outside (by simp [hm]) _).trans ((flashOnStatus_run hm).trans (if_neg ?_))
  rintro ⟨v, h1, h2⟩
  exact hv v h1 h2

theorem addLeaveIfNone_ordinary_eq (x : GroupState) : (if x.phase = .green then addLeaveIfNone .ordinary x else x) =
    { x with leave := if x.phase = .green ∧ x.leave = none then some .ordinary else x.leave } := by
  obtain ⟨phase, timer, done, e, entry, leave⟩ := x
  by_cases hp : phase = .green
  · cases leave <;> simp [hp, addLeaveIfNone]
  · simp [hp]

/-- R15: FLASH ENTRY takes every entry request, and gives each group in GREEN its leave. -/
theorem enterFlashEntry_entered {s : State} (hm : s.os.mode = .run) :
    (enterFlashEntry s).os = { s.os with mode := .flashEntry, timer := 0 } ∧
      (enterFlashEntry s).sq = { s.sq with haltRequest := true, arrivals := [] } ∧ ServiceCancelled s (enterFlashEntry s) ∧
      ∀ g : Group, (enterFlashEntry s).ge[g] = { s.ge[g] with
        entry := false, leave := if s.ge[g].phase = .green ∧ s.ge[g].leave = none then some .ordinary else s.ge[g].leave } := by
  have hleft : leaveRun s = clearEntries (cancelService s) := leaveRun_of_run hm
  have hpe : (enterFlashEntry s).pe = (cancelService s).pe := by
    unfold enterFlashEntry
    rw [hleft]
    rfl
  refine ⟨?_, ?_, ?_, fun g => ?_⟩
  · show ({ (leaveRun s).os with mode := .flashEntry, timer := 0 } : OsState) = _
    rw [leaveRun_os]
  · unfold enterFlashEntry
    rw [hleft]
    rfl
  · unfold ServiceCancelled
    rw [hpe]
    exact cancelService_cancelled s
  · have hg : (enterFlashEntry s).ge[g] = if (leaveRun s).ge[g].phase = .green then
        addLeaveIfNone .ordinary (leaveRun s).ge[g] else (leaveRun s).ge[g] :=
      mapGroups_ge (fun _ x => if x.phase = .green then addLeaveIfNone .ordinary x else x) _ g
    rw [hg, addLeaveIfNone_ordinary_eq, leaveRun_ge]
    simp [hm]

/-! ## RESTART (R170) -/

theorem mpStatus_restart {s : State} (hm : s.os.mode = .manualFlash ∨ s.os.mode = .faultFlash) :
    mpStatus s .restart = .accepted := by
  refine (mpStatus_outside ?_ _).trans ((restartStatus_eq _).trans (if_pos hm))
  rcases hm with h | h <;> simp [h]

/-- The blocks as RESTART leaves them, before START RED is entered. -/
def restarted (s : State) : State :=
  restartLinks (emptyQueue (restartPe (s.withOs { s.os with fault := none, additional := 0 })))

theorem restartStation_links (s : State) (p : Place) : (restartStation s).pl.links[p] = (s.pl.links[p]).map fun l =>
    { green := false, greenTimer := 0, exitCount := 0, sent := false, serial := l.serial } := by
  have hstop : (restartStation s).pl.links[p] = ((restarted s).pl.links[p]).map (readGreen false) :=
    stopSequencer_links (groupsStartRed (setSources .sequencer ((restarted s).withOs _))) p
  have hlinks : (restarted s).pl.links[p] =
      (s.pl.links[p]).map fun l => { l with green := false, greenTimer := 0, exitCount := 0, sent := false } := by
    show (tab 8 _)[p] = _
    rw [tab_get]
    rfl
  rw [hstop, hlinks, Option.map_map]
  refine congrArg (fun f => Option.map f s.pl.links[p]) (funext fun l => ?_)
  exact readGreen_of_ended rfl

theorem restartStation_entered {s : State} {img : Image} (hi : s.cf.image = some img) :
    EnteredStartRed img s (restartStation s) ∧ (restartStation s).os.fault = none ∧ (restartStation s).os.additional = 0 ∧
      QueueEmptied (restartStation s).pl ∧ PreemptionCleared (restartStation s).pe :=
  ⟨(enterStartRed_entered (s := restarted s) hi).1, rfl, rfl, ⟨rfl, rfl⟩, preemptionCleared_reset s.pe.withheld s.pe.ignored⟩

/-! ## RESTART delivered at a TICK (R164) -/

/-- In MANUAL FLASH and FAULT FLASH no work of a tick but a delivery touches OS. -/
theorem doWork_os_of_flash {began : Mode} {s : State} {w : Work} (hm : s.os.mode = .manualFlash ∨ s.os.mode = .faultFlash)
    (hw : w ≠ .mp) : (doWork began s w).os = s.os := by
  cases w with
  | mp => exact absurd rfl hw
  | sequencer => exact congrArg State.os (if_neg (by rcases hm with h | h <;> simp [h]))
  | supervisor =>
    have monitor : monitorWork s = s := monitorWork_of_unmonitored (by rcases hm with h | h <;> simp [h, Mode.monitored])
    have timer : modeTimerWork began s = s := modeTimerWork_of_idle (.inr (.inr (by rcases hm with h | h <;> simp [h])))
    show (supervisorWork began s).os = s.os
    simp [supervisorWork, monitor, timer]
  | groups | detectors | clock | neighbors | platoonCountdown | greenTimers | preemption =>
    exact (doWork_blocks began s _).os (by simp [Work.blocks])

theorem works_os_of_flash {began : Mode} : ∀ (ws : List Work) (s : State), (s.os.mode = .manualFlash ∨ s.os.mode = .faultFlash) →
    .mp ∉ ws → (ws.foldl (doWork began) s).os = s.os ∧ (ws.foldl (doWork began) s).cf = s.cf
  | [], _, _, _ => ⟨rfl, rfl⟩
  | w :: ws, s, hm, h => by
    rw [List.mem_cons, not_or] at h
    have hos : (doWork began s w).os = s.os := doWork_os_of_flash hm (Ne.symm h.1)
    obtain ⟨h1, h2⟩ := works_os_of_flash ws (doWork began s w) (by rwa [hos]) h.2
    exact ⟨h1.trans hos, h2.trans (doWork_cf (Ne.symm h.1))⟩

/-- R164: START RED stands with its whole time to run. -/
def RedFrom (img : Image) (s : State) : Prop := s.cf.image = some img ∧ s.os.mode = .startRed ∧ s.os.timer = img.startRed

/-- R172, R173: one evaluation after the counts were cleared reaches no limit. -/
theorem conditions_of_countsZero {img : Image} {s : State} (h : CountsZero s.os) : conditions (countedOs img s) = [] := by
  obtain ⟨hconflict, hmismatch⟩ := h
  rw [conditions_eq_append, conflictConditions_eq_nil, mismatchConditions_eq_nil, List.append_nil]
  · intro ch l
    show (mismatchCounts s)[ch][lampIndex l] < 50
    rw [mismatchCounts_get, hmismatch]
    split <;> decide
  · intro a b
    show (conflictCounts img s)[a][b] < 20
    rw [conflictCounts_get, hconflict]
    split <;> decide

theorem monitorWork_redFrom {img : Image} {s : State} (h : RedFrom img s) (hz : CountsZero s.os) : RedFrom img (monitorWork s) := by
  obtain ⟨hi, hm, ht⟩ := h
  rw [monitorWork_of_nil hi (by simp [hm, Mode.monitored]) (conditions_of_countsZero hz)]
  exact ⟨hi, hm, ht⟩

theorem modeTimerWork_redFrom {img : Image} {began : Mode} (hb : began ≠ .startRed) {s : State} (h : RedFrom img s) :
    modeTimerWork began s = s := modeTimerWork_of_idle (.inl (by rw [h.2.1]; exact Ne.symm hb))

theorem supervisorWork_redFrom {img : Image} {began : Mode} (hb : began ≠ .startRed) {s : State} (h : RedFrom img s)
    (hz : CountsZero s.os) : RedFrom img (supervisorWork began s) := by
  have monitored := monitorWork_redFrom h hz
  unfold supervisorWork
  split
  · rwa [modeTimerWork_redFrom hb monitored]
  · rwa [modeTimerWork_redFrom hb h]

/-- In START RED no work but the Output Supervisor's and a delivery touches OS. -/
theorem doWork_os_of_startRed {began : Mode} {s : State} {w : Work} (hm : s.os.mode = .startRed) (hw : w ≠ .mp)
    (hs : w ≠ .supervisor) : (doWork began s w).os = s.os := by
  cases w with
  | mp => exact absurd rfl hw
  | supervisor => exact absurd rfl hs
  | sequencer => exact congrArg State.os (if_neg (by simp [hm]))
  | groups | detectors | clock | neighbors | platoonCountdown | greenTimers | preemption =>
    exact (doWork_blocks began s _).os (by simp [Work.blocks])

/-- R164: a START RED entered at this tick is not counted at it, and the monitor, taken once, reaches no limit. -/
theorem works_redFrom {img : Image} {began : Mode} (hb : began ≠ .startRed) : ∀ (ws : List Work) (s : State), ws.Nodup → .mp ∉ ws →
    RedFrom img s → (.supervisor ∈ ws → CountsZero s.os) → RedFrom img (ws.foldl (doWork began) s)
  | [], _, _, _, h, _ => h
  | w :: ws, s, hn, hmp, h, hz => by
    rw [List.nodup_cons] at hn
    rw [List.mem_cons, not_or] at hmp
    by_cases hw : w = .supervisor
    · subst hw
      exact works_redFrom hb ws _ hn.2 hmp.2 (supervisorWork_redFrom hb h (hz (by simp))) fun hs => absurd hs hn.1
    · have hos : (doWork began s w).os = s.os := doWork_os_of_startRed h.2.1 (Ne.symm hmp.1) hw
      have hcf : (doWork began s w).cf = s.cf := doWork_cf (Ne.symm hmp.1)
      refine works_redFrom hb ws (doWork began s w) hn.2 hmp.2 ?_ fun hs => ?_
      · unfold RedFrom
        rwa [hos, hcf]
      · rw [hos]
        exact hz (List.mem_cons_of_mem w hs)

theorem tick_restart (d : BitVec 24) (r : BitVec 3) (x : BitVec 48) {s : State} {img : Image} (hi : s.cf.image = some img)
    (hm : s.os.mode = .manualFlash ∨ s.os.mode = .faultFlash) (hp : pendingCommand s.mp = some .restart) :
    ∃ t, exec (.tick d r x) s = .next t ∧ RedFrom img t := by
  obtain ⟨before, after, horder, hbefore, hafter, -, ht⟩ := tick_delivers d r x hp
  obtain ⟨hos, hcf⟩ := works_os_of_flash (began := s.os.mode) before (beginTick d r x s) hm hbefore
  refine ⟨_, ht, ?_⟩
  generalize before.foldl (doWork s.os.mode) (beginTick d r x s) = u at hos hcf
  have hos' : u.os = s.os := hos
  have hcf' : u.cf.image = some img := (congrArg CfState.image hcf).trans hi
  obtain ⟨⟨hmode, htimer, -, hzero, -⟩, -⟩ := restartStation_entered hcf'
  have hdeliver : (deliver .restart u).os = (restartStation u).os ∧ (deliver .restart u).cf = u.cf := by
    rw [deliver_accepted (mpStatus_restart (by rwa [hos']))]
    exact ⟨rfl, (restartStation_only u).cf (by simp)⟩
  have hnodup : after.Nodup := by
    have hn := horder ▸ workOrder_nodup s.free
    rw [List.nodup_middle, List.nodup_cons] at hn
    exact (List.nodup_append.mp hn.2).2.1
  have hb : s.os.mode ≠ .startRed := by rcases hm with h | h <;> simp [h]
  refine works_redFrom hb after _ hnodup hafter ?_ fun _ => ?_
  · unfold RedFrom
    rw [hdeliver.1, hdeliver.2]
    exact ⟨hcf', hmode, htimer⟩
  · rw [hdeliver.1]
    exact hzero

/-! ## RELOAD (R163, R170) -/

theorem mpStatus_reload {s : State} (hm : s.os.mode = .startFlash ∨ s.os.mode = .manualFlash ∨ s.os.mode = .faultFlash ∨
    s.os.mode = .noPlanFlash) : mpStatus s .reload = .accepted := by
  refine (mpStatus_outside ?_ _).trans ?_
  · rcases hm with h | h | h | h <;> simp [h]
  · show reloadStatus s.os.mode = _
    rcases hm with h | h | h | h <;> simp [h, reloadStatus]

/-- What RELOAD keeps of the blocks that it clears. -/
theorem reloadStation_blocks (s : State) : (reloadStation s).os = OsState.reset ∧ (reloadStation s).cf = CfState.reset ∧
    (reloadStation s).ge = (tab 16 fun _ => GroupState.reset) ∧ (reloadStation s).sq = SqState.reset ∧
    (reloadStation s).du = (tab 24 fun _ => Det.reset) ∧ (reloadStation s).ck = CkState.reset ∧
    (reloadStation s).nt = { NtState.reset with refused := s.nt.refused } ∧
    (reloadStation s).pl = { s.pl with queue := [], accepting := true, links := tab 8 fun _ => none } ∧
    (reloadStation s).pe = { PeState.reset with withheld := s.pe.withheld, ignored := s.pe.ignored } :=
  ⟨rfl, rfl, rfl, rfl, rfl, rfl, rfl, rfl, rfl⟩

/-- Settles O56: each accepted command enters its mode. -/
theorem modeCommandsEnterTheirModes : Obligations.ModeCommandsEnterTheirModes := by
  refine ⟨fun s img hi => ⟨fun hm hv => ?_, fun hm => ?_, fun hm => ?_, fun hm => ?_, fun d r x hm hp hc => ?_⟩, fun s hm => ?_⟩
  · obtain ⟨t, hx, ho, hr⟩ := exec_accepted (c := .manualFlashOn) rfl (mpStatus_manualFlashOn hm hv)
    have heffect : carryOut s .manualFlashOn = enterFlashEntry s := if_pos hm
    rw [heffect] at ho
    obtain ⟨hos, hsq, hcancelled, hge⟩ := enterFlashEntry_entered hm
    refine ⟨t, hx, ((enterFlashEntry_only s).mono (by simp)).trans (ho.mono (by simp)), hr, ?_, ?_, ?_, fun g => ?_⟩
    · rw [ho.os (by simp), hos]
    · rw [ho.sq (by simp), hsq]
    · unfold ServiceCancelled
      rw [ho.pe (by simp)]
      exact hcancelled
    · rw [ho.ge (by simp)]
      exact hge g
  · have hload : s.os.mode ≠ .loading := by rcases hm with h | h <;> simp [h]
    exact (answers_manualFlashOn hload).2.1 hm
  · obtain ⟨t, hx, ho, hr⟩ := exec_accepted (c := .manualFlashOff) (s := s) rfl
      ((mpStatus_outside (by simp [hm]) _).trans (if_pos hm))
    have heffect : carryOut s .manualFlashOff = enterStartRed s := rfl
    rw [heffect] at ho
    obtain ⟨entered, ended⟩ := enterStartRed_entered hi
    refine ⟨t, hx, ((enterStartRed_only s).mono (by simp)).trans (ho.mono (by simp)), hr, ?_, ?_, ?_⟩
    · unfold EnteredStartRed SetToRed StoppedFrom
      rw [ho.os (by simp), ho.ge (by simp), ho.sq (by simp)]
      exact entered
    · unfold GreensEnded
      rw [ho.pl (by simp)]
      exact ended
    · rw [ho.os (by simp)]
      exact (enterStartRed_fault s).1
  · obtain ⟨t, hx, ho, hr⟩ := exec_accepted (c := .restart) rfl (mpStatus_restart hm)
    have heffect : carryOut s .restart = restartStation s := rfl
    rw [heffect] at ho
    obtain ⟨entered, hfault, hadditional, hqueue, hcleared⟩ := restartStation_entered hi
    refine ⟨t, hx, ((restartStation_only s).mono (by simp)).trans (ho.mono (by simp)), hr, ?_, ?_⟩
    · unfold EnteredStartRed SetToRed StoppedFrom
      rw [ho.os (by simp), ho.ge (by simp), ho.sq (by simp)]
      exact entered
    · rw [ho.os (by simp), ho.pl (by simp), ho.pe (by simp)]
      exact ⟨hfault, hadditional, hqueue, restartStation_links s, hcleared, rfl, rfl, rfl⟩
  · obtain ⟨t, ht, -, hmode, htimer⟩ := tick_restart d r x hi hm (by simp [pendingCommand, hp, hc, commandOf])
    exact ⟨t, ht, hmode, htimer⟩
  · obtain ⟨t, hx, ho, hr⟩ := exec_accepted (c := .reload) rfl (mpStatus_reload hm)
    have heffect : carryOut s .reload = reloadStation s := rfl
    rw [heffect] at ho
    obtain ⟨hos, hcf, hge, hsq, hdu, hck, hnt, hpl, hpe⟩ := reloadStation_blocks s
    obtain ⟨ros, rcf, rge, rsq, rcalls, rdu, rck, -, -, -, -, rplaces, -, -, rlinks, -⟩ : PowerOnValues State.reset :=
      powerOnValues_of_eq rfl rfl rfl rfl rfl rfl rfl rfl rfl rfl
    refine ⟨t, hx, ((reloadStation_only s).mono (by simp)).trans (ho.mono (by simp)), hr, ?_⟩
    unfold GroupsOff DetectorsReset
    rw [ho.os (by simp), ho.cf (by simp), ho.ge (by simp), ho.sq (by simp), ho.du (by simp), ho.ck (by simp), ho.lu (by simp),
      ho.nt (by simp), ho.pl (by simp), ho.pe (by simp), hos, hcf, hge, hsq, hdu, hck, reloadStation_lu, hnt, hpl, hpe]
    exact ⟨ros, rcf, rge, rsq, rcalls, rdu, rck, rfl, ⟨rfl, rfl, rfl, rfl, rfl, rfl, rfl⟩, rfl, rfl, rfl, rplaces, rfl, ⟨rfl, rfl⟩,
      rlinks, rfl, rfl, rfl, rfl, preemptionCleared_reset _ _, rfl, rfl, rfl⟩

end Sys2Proof.Machine


/-!
# The Detector Unit: its rows and its work of a tick (O14, O28, O29)
-/

namespace Sys2Proof.Machine

/-! ## One detector's state -/

@[simp] theorem setDet_get (d a : Detector) (x : Det) (s : State) : (setDet d x s).du[a] = if d = a then x else s.du[a] :=
  put_get s.du d a x

theorem exec_detectorEvent {d : Detector} {due : DetectorRecord → Det → Bool} {act : DetectorRecord → State → State} {s : State}
    {img : Image} (hi : s.cf.image = some img) (hdue : due img.detectors[d] s.du[d] = true) :
    detectorEvent d due act s = .next (act img.detectors[d] s) := by
  unfold detectorEvent
  rw [hi]
  exact congrArg Host.Outcome.next (whenDue_true hdue _ _)

/-- Settles O29: each row moves its own detector. -/
theorem detectorEventsMoveOneDetector : Obligations.DetectorEventsMoveOneDetector := by
  refine ⟨fun d s img hi hf hn => ?_, fun d s img hi hs hpos hmax hn => ?_, fun d s img hi hs hpos hmax hn => ?_⟩
  · show execOffEdge d s = _
    unfold execOffEdge
    exact exec_detectorEvent hi (by simp [hf, filterTime, hn, -Fin.getElem_fin])
  · show execFailedOn d s = _
    unfold execFailedOn
    refine (exec_detectorEvent hi (by simp [hs, hpos, hn, -Fin.getElem_fin])).trans ?_
    have hreached : 10 * img.detectors[d].maxPresence ≤ satInc 2550 s.du[d].presence := by unfold satInc; omega
    have hcount : countPresence img.detectors[d] s.du[d] =
        { s.du[d] with presence := min (s.du[d].presence + 1) 2550, state := .failedOn } := by
      rw [countPresence, if_pos ⟨hs, hpos⟩]
      dsimp only
      rw [if_pos hreached]
      rfl
    rw [hcount]
    rfl
  · show execFailedQuiet d s = _
    unfold execFailedQuiet
    refine (exec_detectorEvent hi (by simp [hs, hpos, hn, -Fin.getElem_fin])).trans ?_
    have hreached : 60 * img.detectors[d].noActivity ≤ satInc 14400 s.du[d].noActivity := by unfold satInc; omega
    have hcount : countQuiet img.detectors[d] s.du[d] =
        { s.du[d] with noActivity := min (s.du[d].noActivity + 1) 14400, state := .failedQuiet } := by
      rw [countQuiet, if_pos ⟨hs, hpos⟩]
      dsimp only
      rw [if_pos hreached]
      rfl
    rw [hcount]
    rfl

/-! ## ON_EDGE (R52, R53, R62, R136) -/

/-- R53: the calls after an on-edge. -/
theorem sendCall_calls (r : DetectorRecord) (s : State) (g : Group) : (sendCall r s).sq.calls[g] = true ↔
    s.sq.calls[g] = true ∨
      (r.callGroup = some g ∧ (r.kind = .pulse ∨ r.locking = true) ∧ s.ge[g].phase ≠ .green ∧ s.ge[g].phase ≠ .off) := by
  have hlatch : latchesCall r = true ↔ r.kind = .pulse ∨ r.locking = true := by
    unfold latchesCall
    cases r.kind <;> simp
  unfold sendCall
  split
  next h hg =>
    split
    next hl =>
      rw [writeCall_calls]
      refine or_congr_right ⟨fun ⟨he, h1, h2⟩ => ⟨he ▸ hg, hlatch.mp hl, h1, h2⟩, fun ⟨he, _, h1, h2⟩ => ⟨?_, h1, h2⟩⟩
      exact (Option.some.inj (hg.symm.trans he)).symm
    next hl => exact ⟨.inl, fun h => h.elim id fun ⟨_, h2, _⟩ => absurd (hlatch.mpr h2) hl⟩
  next hg => exact ⟨.inl, fun h => h.elim id fun ⟨h1, _⟩ => absurd (hg.symm.trans h1) (by simp)⟩

/-- R137: what the forming of a notice leaves of a link's send state. -/
def LinkCounts (l l' : LinkSend) : Prop := l'.exitCount = l.exitCount ∧ l'.green = l.green ∧ l'.greenTimer = l.greenTimer

/-- R137: notices formed for some places leave the queue, every other link and what each link has counted. -/
def FormedFor (ps : List Place) (s t : State) : Prop :=
  t.pl.queue = s.pl.queue ∧ ∀ p : Place, (p ∉ ps → t.pl.links[p] = s.pl.links[p]) ∧
    ∀ l, s.pl.links[p] = some l → ∃ l', t.pl.links[p] = some l' ∧ LinkCounts l l'

theorem FormedFor.refl (ps : List Place) (s : State) : FormedFor ps s s :=
  ⟨rfl, fun _ => ⟨fun _ => rfl, fun l h => ⟨l, h, rfl, rfl, rfl⟩⟩⟩

theorem formedFor_put {s t : State} {p : Place} {l l' : LinkSend} (hq : t.pl.queue = s.pl.queue) (hl : s.pl.links[p] = some l)
    (ht : t.pl.links = put s.pl.links p (some l')) (hk : LinkCounts l l') : FormedFor [p] s t := by
  refine ⟨hq, fun q => ⟨fun hn => ?_, fun m hm => ?_⟩⟩
  · rw [List.mem_singleton] at hn
    rw [ht, put_get, if_neg (Ne.symm hn)]
  · rw [ht, put_get]
    split
    next he =>
      obtain rfl := he
      obtain rfl := Option.some.inj (hl.symm.trans hm)
      exact ⟨l', rfl, hk⟩
    next => exact ⟨m, hm, rfl, rfl, rfl⟩

theorem formNotice_formed (p : Place) (s : State) : FormedFor [p] s (formNotice p s) := by
  unfold formNotice
  split
  next e l ls _ hls =>
    dsimp only
    split
    · split
      · exact formedFor_put (s := s) rfl hls rfl ⟨rfl, rfl, rfl⟩
      · exact formedFor_put (s := s) ((congrArg PlState.queue (offer_pl _ _)).trans rfl) hls
          ((congrArg PlState.links (offer_pl _ _)).trans rfl) ⟨rfl, rfl, rfl⟩
    · exact formedFor_put (s := s) rfl hls rfl ⟨rfl, rfl, rfl⟩
  next => exact .refl _ s

theorem FormedFor.trans {ps qs : List Place} {s t u : State} (h : FormedFor ps s t) (k : FormedFor qs t u) :
    FormedFor (ps ++ qs) s u := by
  refine ⟨k.1.trans h.1, fun p => ⟨fun hn => ?_, fun l hl => ?_⟩⟩
  · rw [List.mem_append, not_or] at hn
    exact ((k.2 p).1 hn.2).trans ((h.2 p).1 hn.1)
  · obtain ⟨l', hl', h1, h2, h3⟩ := (h.2 p).2 l hl
    obtain ⟨l'', hl'', k1, k2, k3⟩ := (k.2 p).2 l' hl'
    exact ⟨l'', hl'', k1.trans h1, k2.trans h2, k3.trans h3⟩

theorem formNotices_formed : ∀ (ps : List Place) (s : State), FormedFor ps s (ps.foldl (fun t p => formNotice p t) s)
  | [], s => .refl _ s
  | p :: ps, s => (formNotice_formed p s).trans (formNotices_formed ps (formNotice p s))

theorem mem_insertByAddress {s : State} {p q : Place} {ps : List Place} : q ∈ insertByAddress s p ps ↔ q = p ∨ q ∈ ps := by
  induction ps with
  | nil => simp [insertByAddress]
  | cons a ps ih =>
    unfold insertByAddress
    split
    · simp
    · simp [ih, or_left_comm]

theorem mem_byAddress {s : State} {q : Place} {ps : List Place} : q ∈ ps.foldr (insertByAddress s) [] ↔ q ∈ ps := by
  induction ps with
  | nil => simp
  | cons a ps ih => simp [mem_insertByAddress, ih]

/-- R136: the exit counts after an on-edge of a COUNT detector, before any notice is formed. -/
def countedExits (d : Detector) (s : State) : State :=
  s.withPl { s.pl with links := tab 8 fun p => if countsEdge s d p then (s.pl.links[p]).map raiseExit else s.pl.links[p] }

theorem countedExits_links (d : Detector) (s : State) (p : Place) : (countedExits d s).pl.links[p] =
    if countsEdge s d p then (s.pl.links[p]).map raiseExit else s.pl.links[p] :=
  tab_get (fun p : Place => if countsEdge s d p then (s.pl.links[p]).map raiseExit else s.pl.links[p]) p

theorem exitEdge_formed (d : Detector) (s : State) :
    ∃ ps, (∀ p ∈ ps, countsEdge s d p = true) ∧ FormedFor ps (countedExits d s) (exitEdge d s) := by
  refine ⟨((places.filter (countsEdge s d)).filter (atThreshold (countedExits d s))).foldr (insertByAddress (countedExits d s)) [],
    fun p hp => ?_, formNotices_formed _ (countedExits d s)⟩
  rw [mem_byAddress, List.mem_filter, List.mem_filter] at hp
  exact hp.1.2

theorem linkAt_eq_some {s : State} {p : Place} {e : Entry} {l : Link} :
    linkAt s p = some (e, l) ↔ s.nt.places[p] = some e ∧ e.link = some l := by
  refine ⟨fun h => ?_, fun ⟨he, hl⟩ => linkAt_of he hl⟩
  unfold linkAt at h
  split at h
  next e' he =>
    split at h
    next l' hl =>
      obtain ⟨rfl, rfl⟩ := Prod.mk.inj (Option.some.inj h)
      exact ⟨he, hl⟩
    next => exact nomatch h
  next => exact nomatch h

theorem countsEdge_iff (s : State) (d : Detector) (p : Place) : countsEdge s d p = true ↔
    (∃ e l, s.nt.places[p] = some e ∧ e.link = some l ∧ l.exitDetector = some d) ∧
      ∃ ls, s.pl.links[p] = some ls ∧ ls.green = true := by
  unfold countsEdge
  split
  next e l ls hl hls =>
    obtain ⟨he, hlink⟩ := linkAt_eq_some.mp hl
    rw [he, hls]
    simp [hlink]
  next hn =>
    simp only [Bool.false_eq_true, false_iff, not_and]
    rintro ⟨e, l, he, hl, -⟩ ⟨ls, hls, -⟩
    exact hn e l ls (linkAt_of he hl) hls

/-- R136, R137: what an on-edge of a COUNT detector does to the links. -/
theorem exitEdge_links (d : Detector) (s : State) (p : Place) : (exitEdge d s).pl.queue = s.pl.queue ∧
    (countsEdge s d p = false → (exitEdge d s).pl.links[p] = s.pl.links[p]) ∧
    (countsEdge s d p = true → ∀ ls, s.pl.links[p] = some ls → ∃ ls', (exitEdge d s).pl.links[p] = some ls' ∧
      ls'.exitCount = min (ls.exitCount + 1) 255 ∧ ls'.green = ls.green ∧ ls'.greenTimer = ls.greenTimer) := by
  obtain ⟨ps, hps, hq, hlinks⟩ := exitEdge_formed d s
  refine ⟨hq, fun hc => ?_, fun hc ls hls => ?_⟩
  · rw [(hlinks p).1 fun hp => by simp [hps p hp] at hc, countedExits_links, hc]
    rfl
  · have hraised : (countedExits d s).pl.links[p] = some (raiseExit ls) := by
      rw [countedExits_links, if_pos hc, hls]
      rfl
    obtain ⟨ls', hls', h1, h2, h3⟩ := (hlinks p).2 _ hraised
    exact ⟨ls', hls', h1, h2, h3⟩

/-- Settles O28: the edge moves its detector, sends its call, and a COUNT detector's edge goes to the links. -/
theorem onEdgeActsByTheDetectorRecord : Obligations.OnEdgeActsByTheDetectorRecord := by
  intro d s img hi hf hn r counts
  have hx : exec (.onEdge d) s = .next (onEdge r d s) := by
    show execOnEdge d s = _
    unfold execOnEdge
    exact exec_detectorEvent hi (by simp [hf, filterTime, hn, -Fin.getElem_fin])
  have hreach := onEdge_only r d s
  have hmoved : Only [.du] s (setDet d (onEdgeOf s.du[d]) s) := setDet_only d _ s
  have hcalled : Only [.sq, .du] s (sendCall r (setDet d (onEdgeOf s.du[d]) s)) :=
    (hmoved.mono (by simp)).trans ((sendCall_only r _).mono (by simp))
  have hdu : (sendCall r (setDet d (onEdgeOf s.du[d]) s)).du = (setDet d (onEdgeOf s.du[d]) s).du :=
    (sendCall_only r _).du (by simp)
  have hafter : Only [.pl, .lu] (sendCall r (setDet d (onEdgeOf s.du[d]) s)) (onEdge r d s) := by
    unfold onEdge
    dsimp only
    split
    · exact exitEdge_only d _
    · exact .refl _ _
  refine ⟨_, hx, hreach, ?_, fun a ha => ?_, onEdge_callsOnly r d s, fun g => ?_, fun hk => ?_, fun hk => ?_⟩
  · rw [hafter.du (by simp), hdu, setDet_get, if_pos rfl]
    rfl
  · rw [hafter.du (by simp), hdu, setDet_get, if_neg (Ne.symm ha)]
  · rw [hafter.sq (by simp), sendCall_calls, hmoved.sq (by simp), hmoved.ge (by simp)]
  · have hsame : onEdge r d s = sendCall r (setDet d (onEdgeOf s.du[d]) s) := if_neg hk
    rw [hsame]
    exact ⟨hcalled.pl (by simp), hcalled.lu (by simp)⟩
  · have hedge : onEdge r d s = exitEdge d (sendCall r (setDet d (onEdgeOf s.du[d]) s)) := if_pos hk
    rw [hedge]
    generalize sendCall r (setDet d (onEdgeOf s.du[d]) s) = u at hcalled
    have hpl : u.pl = s.pl := hcalled.pl (by simp)
    have hcounts (p : Place) : countsEdge u d p = true ↔ counts p := by
      rw [countsEdge_iff, hcalled.nt (by simp), hpl]
    refine ⟨((exitEdge_links d u 0).1).trans (by rw [hpl]), fun p => ⟨fun hc => ?_, fun ls hc hls => ?_⟩⟩
    · rw [(exitEdge_links d u p).2.1 (Bool.eq_false_iff.mpr (mt (hcounts p).mp hc)), hpl]
    · obtain ⟨ls', hls', hcount, hgreen, htimer⟩ := (exitEdge_links d u p).2.2 ((hcounts p).mpr hc) ls (by rw [hpl, hls])
      obtain ⟨-, ls0, hls0, hgreen0⟩ := hc
      obtain rfl := Option.some.inj (hls.symm.trans hls0)
      exact ⟨ls', hls', hcount, hgreen.trans hgreen0, htimer⟩

/-! ## The work of a tick (R50, R51, R57, R59) -/

/-- R51, R52: one detector's state after its work of a tick. -/
def detAtTick (r : DetectorRecord) (s : State) (d : Detector) (x : Det) : Det :=
  if sample r s d == x.filtered then supervise r s { x with count := 0 }
  else if filterTime r x < x.count + 1 then (if x.filtered then offEdgeOf x else onEdgeOf x)
  else supervise r s { x with count := x.count + 1 }

theorem onEdge_du (r : DetectorRecord) (d : Detector) (s : State) : (onEdge r d s).du = (setDet d (onEdgeOf s.du[d]) s).du := by
  have hcalled : (sendCall r (setDet d (onEdgeOf s.du[d]) s)).du = (setDet d (onEdgeOf s.du[d]) s).du :=
    (sendCall_only r _).du (by simp)
  unfold onEdge
  dsimp only
  split
  · rw [(exitEdge_only d _).du (by simp), hcalled]
  · exact hcalled

theorem detectorTick_du (img : Image) (s : State) (d : Detector) :
    (detectorTick img s d).du = put s.du d (detAtTick img.detectors[d] s d s.du[d]) := by
  unfold detectorTick detAtTick
  dsimp only
  split
  · rfl
  · split
    · split
      · rfl
      · exact onEdge_du _ d s
    · rfl

theorem supervise_of_tb {s t : State} (h : t.tb = s.tb) (r : DetectorRecord) (x : Det) : supervise r t x = supervise r s x := by
  have htenth : tenthMark t = tenthMark s := by simp [tenthMark, h]
  have hsecond : secondMark t = secondMark s := by simp [secondMark, h]
  unfold supervise
  rw [htenth, hsecond]

theorem detAtTick_of_same {s t : State} (hp : t.pins = s.pins) (htb : t.tb = s.tb) (r : DetectorRecord) (d : Detector) (x : Det) :
    detAtTick r t d x = detAtTick r s d x := by
  have hs : sample r t d = sample r s d := by simp [sample, hp]
  unfold detAtTick
  rw [hs, supervise_of_tb htb, supervise_of_tb htb]

/-- Each detector is taken once, and reads no other. -/
theorem detectorTicks_du (img : Image) : ∀ (ds : List Detector) (s : State), ds.Nodup → ∀ d,
    (ds.foldl (detectorTick img) s).du[d] = if d ∈ ds then detAtTick img.detectors[d] s d s.du[d] else s.du[d]
  | [], s, _, d => by simp
  | a :: ds, s, hn, d => by
    rw [List.nodup_cons] at hn
    have hreach := detectorTick_only img s a
    rw [List.foldl_cons, detectorTicks_du img ds (detectorTick img s a) hn.2 d,
      detAtTick_of_same (hreach.pins (by simp)) (hreach.tb (by simp)), detectorTick_du, put_get]
    by_cases hd : a = d
    · subst hd
      simp [hn.1, -Fin.getElem_fin]
    · rw [if_neg hd]
      simp [Ne.symm hd, -Fin.getElem_fin]

theorem duWork_du {s : State} {img : Image} (hi : s.cf.image = some img) (d : Detector) :
    (duWork s).du[d] = detAtTick img.detectors[d] s d s.du[d] := by
  have hw : duWork s = (List.finRange 24).foldl (detectorTick img) s := by simp only [duWork, hi]
  rw [hw, detectorTicks_du img _ s (List.nodup_finRange 24), if_pos (List.mem_finRange d)]

theorem countPresence_of_ne {r : DetectorRecord} {x : Det} (h : x.state ≠ .occupied ∨ r.maxPresence = 0) : countPresence r x = x := by
  rw [countPresence, if_neg]
  rintro ⟨h1, h2⟩
  rcases h with h | h
  · exact h h1
  · omega

theorem countQuiet_of_ne {r : DetectorRecord} {x : Det} (h : x.state ≠ .idle ∨ r.noActivity = 0) : countQuiet r x = x := by
  rw [countQuiet, if_neg]
  rintro ⟨h1, h2⟩
  rcases h with h | h
  · exact h h1
  · omega

/-- R57: the presence timer of an OCCUPIED detector counts at a tenth mark; the no-activity timer of R59 then stands. -/
theorem supervise_occupied {r : DetectorRecord} {s : State} {x : Det} (hx : x.state = .occupied) (hr : 0 < r.maxPresence)
    (ht : tenthMark s = true) : supervise r s x = { x with
      presence := min (x.presence + 1) 2550,
      state := if 10 * r.maxPresence ≤ min (x.presence + 1) 2550 then .failedOn else .occupied } := by
  have hcount : countPresence r x = { x with
      presence := min (x.presence + 1) 2550,
      state := if 10 * r.maxPresence ≤ min (x.presence + 1) 2550 then .failedOn else .occupied } := if_pos ⟨hx, hr⟩
  have hquiet : countQuiet r (countPresence r x) = countPresence r x := by
    refine countQuiet_of_ne (.inl ?_)
    rw [hcount]
    dsimp only
    split <;> decide
  unfold supervise
  dsimp only
  rw [if_pos ht, hquiet, ite_self, hcount]

/-- R59: the no-activity timer of an IDLE detector counts at a second mark. -/
theorem supervise_idle {r : DetectorRecord} {s : State} {x : Det} (hx : x.state = .idle) (hr : 0 < r.noActivity)
    (hs : secondMark s = true) : supervise r s x = { x with
      noActivity := min (x.noActivity + 1) 14400,
      state := if 60 * r.noActivity ≤ min (x.noActivity + 1) 14400 then .failedQuiet else .idle } := by
  have hpresence : countPresence r x = x := countPresence_of_ne (.inl (by simp [hx]))
  unfold supervise
  dsimp only
  rw [hpresence, ite_self, if_pos hs]
  exact if_pos ⟨hx, hr⟩

theorem supervise_stands {r : DetectorRecord} {s : State} {x : Det}
    (h : x.state = .failedOn ∨ x.state = .failedQuiet ∨ (x.state = .occupied ∧ (r.maxPresence = 0 ∨ tenthMark s = false)) ∨
      (x.state = .idle ∧ (r.noActivity = 0 ∨ secondMark s = false))) : supervise r s x = x := by
  have hpresence : (if tenthMark s then countPresence r x else x) = x := by
    split
    next ht =>
      refine countPresence_of_ne ?_
      rcases h with h | h | ⟨-, h | h⟩ | ⟨h, -⟩
      · exact .inl (by simp [h])
      · exact .inl (by simp [h])
      · exact .inr h
      · exact absurd ht (by simp [h])
      · exact .inl (by simp [h])
    next => rfl
  unfold supervise
  dsimp only
  rw [hpresence]
  split
  next hs =>
    refine countQuiet_of_ne ?_
    rcases h with h | h | ⟨h, -⟩ | ⟨-, h | h⟩
    · exact .inl (by simp [h])
    · exact .inl (by simp [h])
    · exact .inl (by simp [h])
    · exact .inr h
    · exact absurd hs (by simp [h])
  next => rfl

theorem countPresence_rest (r : DetectorRecord) (x : Det) : (countPresence r x).filtered = x.filtered ∧
    (countPresence r x).count = x.count ∧ (countPresence r x).pending = x.pending := by
  unfold countPresence
  split <;> exact ⟨rfl, rfl, rfl⟩

theorem countQuiet_rest (r : DetectorRecord) (x : Det) : (countQuiet r x).filtered = x.filtered ∧
    (countQuiet r x).count = x.count ∧ (countQuiet r x).pending = x.pending := by
  unfold countQuiet
  split <;> exact ⟨rfl, rfl, rfl⟩

theorem supervise_rest (r : DetectorRecord) (s : State) (x : Det) : (supervise r s x).filtered = x.filtered ∧
    (supervise r s x).count = x.count ∧ (supervise r s x).pending = x.pending := by
  obtain ⟨p1, p2, p3⟩ := countPresence_rest r x
  obtain ⟨q1, q2, q3⟩ := countQuiet_rest r x
  obtain ⟨r1, r2, r3⟩ := countQuiet_rest r (countPresence r x)
  unfold supervise
  dsimp only
  split_ifs
  · exact ⟨r1.trans p1, r2.trans p2, r3.trans p3⟩
  · exact ⟨q1, q2, q3⟩
  · exact ⟨p1, p2, p3⟩
  · exact ⟨rfl, rfl, rfl⟩

theorem onlyBy_detectors_du : OnlyBy .detectors .du := by
  intro v hmp hv
  cases v <;> simp_all [Work.blocks]

theorem onlyBy_cf (w : Work) : OnlyBy w .cf := by
  intro v hmp _
  cases v <;> simp_all [Work.blocks]

theorem onlyBy_tb (w : Work) : OnlyBy w .tb := by
  intro v _ _
  cases v <;> simp [Work.blocks]

theorem onlyBy_pins (w : Work) : OnlyBy w .pins := by
  intro v _ _
  cases v <;> simp [Work.blocks]

/-- A detector after a TICK with no command pending. -/
theorem tick_detectors (det : BitVec 24) (r : BitVec 3) (x : BitVec 48) {s : State} {img : Image} (hi : s.cf.image = some img)
    (hp : pendingCommand s.mp = none) : ∃ t, exec (.tick det r x) s = .next t ∧
      ∀ d : Detector, t.du[d] = detAtTick img.detectors[d] (beginTick det r x s) d s.du[d] := by
  obtain ⟨u, t, hx, -, hblocks⟩ := tick_at .detectors det r x hp
  obtain ⟨hbefore, hafter⟩ := hblocks .du onlyBy_detectors_du
  have hu : u.du = s.du := hbefore
  have hcf : u.cf = s.cf := (hblocks .cf (onlyBy_cf _)).1
  have hpins : u.pins = (beginTick det r x s).pins := (hblocks .pins (onlyBy_pins _)).1
  have htb : u.tb = (beginTick det r x s).tb := (hblocks .tb (onlyBy_tb _)).1
  have ht : t.du = (duWork u).du := hafter (by simp)
  refine ⟨t, hx, fun d => ?_⟩
  rw [ht, duWork_du (by rw [hcf, hi]) d, hu, detAtTick_of_same hpins htb]

/-- Settles O14: one detector's work is a function of its own state, its sample and the marks. -/
theorem tickFiltersAndSupervisesEveryDetector : Obligations.TickFiltersAndSupervisesEveryDetector := by
  refine ⟨fun det r x s img hi hp => ?_, fun r s x => ?_⟩
  · obtain ⟨t, hx, hdu⟩ := tick_detectors det r x hi hp
    refine ⟨t, hx, fun d => ?_⟩
    have hsample : sample img.detectors[d] (beginTick det r x s) d = (det.getLsbD d.val == img.detectors[d].activeHigh) := rfl
    dsimp only
    rw [hdu d, ← hsample]
    unfold detAtTick filterTime
    refine ⟨fun h => ?_, fun h hc => ?_, fun h hf hc => ?_, fun h hf hc => ?_⟩
    · rw [if_pos (beq_iff_eq.mpr h)]
    · rw [if_neg (by rwa [beq_iff_eq]), if_neg (by omega)]
    · rw [if_neg (by simp [h, hf, -Fin.getElem_fin]), if_pos hc, if_neg (by simp [hf, -Fin.getElem_fin])]
      rfl
    · rw [if_neg (by simp [h, hf, -Fin.getElem_fin]), if_pos hc, if_pos hf]
      rfl
  · obtain ⟨h1, h2, h3⟩ := supervise_rest r s x
    refine ⟨h1, h2, h3, fun hx hr ht => ?_, fun hx hr hs => ?_, supervise_stands⟩
    · rw [supervise_occupied hx hr ht]
      exact ⟨rfl, rfl, rfl⟩
    · rw [supervise_idle hx hr hs]
      exact ⟨rfl, rfl, rfl⟩

end Sys2Proof.Machine


/-!
# The Cycle Clock at a tick and its rows (O15, O30, O31, O34)
-/

namespace Sys2Proof.Machine

/-! ## What the clock's work finds at a TICK -/

theorem onlyBy_clock_ck : OnlyBy .clock .ck := by
  intro v hmp hv
  cases v <;> simp_all [Work.blocks]

/-- The works before another one leave the neighbor table as it was, or aged once. -/
theorem works_table {began : Mode} {ws : List Work} {s : State} (hd : ws.Nodup) (hp : pendingCommand s.mp = none) :
    (ws.foldl (doWork began) s).nt = s.nt ∨ (ws.foldl (doWork began) s).nt = (ntWork s).nt := by
  have stands (vs : List Work) (u : State) (hu : pendingCommand u.mp = none) (h : Work.neighbors ∉ vs) :
      (vs.foldl (doWork began) u).nt = u.nt :=
    works_leave (b := .nt) vs u hu fun w hw hmp => by
      have : w ≠ .neighbors := fun e => h (e ▸ hw)
      cases w <;> simp_all [Work.blocks]
  by_cases h : Work.neighbors ∈ ws
  · obtain ⟨before, after, rfl⟩ := List.append_of_mem h
    have hnot : Work.neighbors ∉ before ∧ Work.neighbors ∉ after := by
      rw [List.nodup_append] at hd
      obtain ⟨-, hafter, hdisjoint⟩ := hd
      exact ⟨fun hb => hdisjoint _ hb _ (by simp) rfl, (List.nodup_cons.mp hafter).1⟩
    have hbefore := stands before s hp hnot.1
    have hmp := works_pendingCommand (began := began) before s hp
    refine .inr ?_
    rw [List.foldl_append, List.foldl_cons, stands after _ (by rwa [doWork_pendingCommand hmp]) hnot.2]
    show (ntWork (before.foldl (doWork began) s)).nt = (ntWork s).nt
    unfold ntWork
    rw [hbefore]
    rfl
  · exact .inl (stands ws s hp h)

/-- The state `u` in which the clock's work of a TICK from `s` begins, as far as the clock reads it. -/
structure ClockBegins (s u : State) : Prop where
  ck : u.ck = s.ck
  cf : u.cf = s.cf
  mark : u.tb.m = (s.tb.m + 1) % 1000
  table : u.nt = s.nt ∨ u.nt = (ntWork s).nt

/-- R70: at a TICK with no command pending the clock changes by its own work alone. -/
theorem tick_clock (d : BitVec 24) (r : BitVec 3) (x : BitVec 48) {s : State} (hp : pendingCommand s.mp = none) :
    ∃ u t, exec (.tick d r x) s = .next t ∧ ClockBegins s u ∧ t.ck = (ckWork u).ck := by
  obtain ⟨before, after, horder, hbefore, hafter⟩ := workOrder_split s.free .clock
  have hp' : pendingCommand (beginTick d r x s).mp = none := hp
  have hu := works_pendingCommand (began := s.os.mode) before _ hp'
  have stands (b : Block) (hb : OnlyBy .clock b) : b.Same (beginTick d r x s) (before.foldl (doWork s.os.mode) (beginTick d r x s)) :=
    works_leave before _ hp' fun v hv hne => hb v hne fun h => hbefore (h ▸ hv)
  have hnodup : before.Nodup := (horder ▸ workOrder_nodup s.free).of_append_left
  refine ⟨before.foldl (doWork s.os.mode) (beginTick d r x s), _, exec_tick d r x s,
    ⟨stands .ck onlyBy_clock_ck, stands .cf (onlyBy_cf _), congrArg (·.m) (stands .tb (onlyBy_tb _)),
      works_table hnodup hp'⟩, ?_⟩
  rw [horder, List.foldl_append, List.foldl_cons]
  exact works_leave (b := .ck) after _ (by rw [doWork_pendingCommand hu, hu])
    fun v hv hne => onlyBy_clock_ck v hne fun h => hafter (h ▸ hv)

namespace ClockBegins
variable {s u : State}

theorem secondMark_iff (h : ClockBegins s u) : secondMark u = true ↔ (s.tb.m + 1) % 100 = 0 := by
  rw [secondMark, h.mark, beq_iff_eq]
  omega

theorem disciplineMark_iff (h : ClockBegins s u) : disciplineMark u = true ↔ (s.tb.m + 1) % 1000 = 0 := by
  rw [disciplineMark, h.mark, beq_iff_eq]

theorem activePlan (h : ClockBegins s u) : activePlan u = activePlan s := by
  unfold Machine.activePlan
  rw [h.cf, h.ck]

theorem coordinatedActive (h : ClockBegins s u) : coordinatedActive u = coordinatedActive s := by
  unfold Machine.coordinatedActive
  rw [h.activePlan]

theorem reference (h : ClockBegins s u) : reference u = reference s := by
  unfold Machine.reference
  rw [h.ck]

theorem contributors (h : ClockBegins s u) : contributors u = contributors (s.withNt u.nt) := by
  unfold Machine.contributors
  rw [h.ck]
  rfl

end ClockBegins

/-! ## The work of the clock, stage by stage -/

/-- R77: what an adoption makes of the clock. -/
def adoptedClock (img : Image) (k : CkState) : CkState :=
  match k.pendingPlan with
  | none => k
  | some p => adopt img.plans[p] p k

theorem adoptPending_ck (img : Image) (s : State) : (adoptPending img s).ck = adoptedClock img s.ck := by
  unfold adoptPending adoptedClock
  cases s.ck.pendingPlan <;> rfl

/-- The clock when the advance begins: the works of the marks are done (R70 (1), (2)). -/
def clockAtAdvance (img : Image) (u : State) : CkState := (secondStage img (markStage img u)).ck

theorem markStage_tb (img : Image) (u : State) : (markStage img u).tb = u.tb := (markStage_only img u).tb (by simp)

theorem clockAtAdvance_eq (img : Image) (u : State) :
    clockAtAdvance img u = if secondMark u = true then { (markStage img u).ck with
      planHold := (markStage img u).ck.planHold - 1,
      beaconCount := if (markStage img u).ck.beaconCount < img.beaconPeriod then (markStage img u).ck.beaconCount + 1
        else (markStage img u).ck.beaconCount } else (markStage img u).ck := by
  have hmark : secondMark (markStage img u) = secondMark u := by rw [secondMark, markStage_tb, secondMark]
  rw [clockAtAdvance, secondStage_ck, hmark]

/-- The second stage counts; it moves neither the position nor the plans. -/
theorem clockAtAdvance_keeps (img : Image) (u : State) :
    clockAtAdvance img u = { (markStage img u).ck with
      planHold := (clockAtAdvance img u).planHold, beaconCount := (clockAtAdvance img u).beaconCount } := by
  rw [clockAtAdvance_eq]
  split <;> rfl

/-- R95: the payout from the balance the marks leave. -/
def payoutAtAdvance (img : Image) (u : State) : Int := if secondMark u = true then paid img (clockAtAdvance img u).b else 0

theorem payoutNow_atAdvance (img : Image) (u : State) :
    payoutNow img (secondStage img (markStage img u)) = payoutAtAdvance img u := by
  have hmark : secondMark (secondStage img (markStage img u)) = secondMark u := by
    rw [secondMark, (secondStage_only img _).tb (by simp), markStage_tb, secondMark]
  rw [payoutNow, hmark]
  rfl

theorem advanceBy_eq (k : CkState) (pay : Int) : advanceBy k pay = ticksAdvanced pay k.hold := by
  unfold advanceBy ticksAdvanced
  split_ifs <;> first | rfl | omega

/-- A differing plan is pending. -/
theorem planPending_iff {k : CkState} {a : Plan} (ha : k.active = some a) :
    planPending k = true ↔ ∃ p, k.pendingPlan = some p ∧ p ≠ a := by
  unfold planPending
  rw [ha]
  cases k.pendingPlan <;> simp

theorem markStage_active (img : Image) (u : State) : (clockAtAdvance img u).active = u.ck.active := by
  rw [clockAtAdvance_keeps]
  exact (markStage_plan img u).1

theorem isCoordinated_eq_false {r : PlanRecord} : r.isCoordinated = false ↔ r.cycle = 0 := by
  rw [← not_iff_not, Bool.not_eq_false, isCoordinated_iff]

/-- R70 (3) to (5) on a free plan: a pending plan is adopted at a second mark, and otherwise the report is closed. -/
theorem ckWork_free {u : State} {img : Image} {a : Plan} (hi : u.cf.image = some img) (ha : u.ck.active = some a)
    (hfree : img.plans[a].cycle = 0) :
    (ckWork u).ck = if planPending (clockAtAdvance img u) = true ∧ secondMark u = true
      then adoptedClock img (clockAtAdvance img u) else { clockAtAdvance img u with report := WindowReport.closed } := by
  have hplan : activePlan u = some img.plans[a] := activePlan_eq_some.mpr ⟨img, a, hi, ha, rfl⟩
  have hc : img.plans[a].isCoordinated = false := isCoordinated_eq_false.mpr hfree
  unfold ckWork
  simp only [hi, hplan, hc, Bool.and_eq_true]
  rw [if_neg (by simp)]
  unfold clockAtAdvance
  split
  · exact adoptPending_ck img _
  · rfl

/-- R70 (3) to (5) at the tick of a jump-in. -/
theorem ckWork_jump {u : State} {img : Image} {a : Plan} (hi : u.cf.image = some img) (ha : u.ck.active = some a)
    (hc : img.plans[a].cycle ≠ 0) (hj : makesJumpIn u = true) :
    (ckWork u).ck = { clockAtAdvance img u with report := reportFor img.plans[a] u.ck.p (fun _ => false) false } := by
  have hplan : activePlan u = some img.plans[a] := activePlan_eq_some.mpr ⟨img, a, hi, ha, rfl⟩
  have hc : img.plans[a].isCoordinated = true := (isCoordinated_iff _).mpr hc
  unfold ckWork
  simp only [hi, hplan, hc, hj, if_true]
  rfl

/-- R70 (3) to (5) on a coordinated plan without a jump-in: the advance, and then an adoption at cycle zero or the report. -/
theorem ckWork_advance {u : State} {img : Image} {a : Plan} (hi : u.cf.image = some img) (ha : u.ck.active = some a)
    (hc : img.plans[a].cycle ≠ 0) (hj : makesJumpIn u = false) :
    (ckWork u).ck =
      let k := clockAtAdvance img u
      let n := ticksAdvanced (payoutAtAdvance img u) k.hold
      let k' := advance (payoutAtAdvance img u) k
      if planPending k = true ∧ crosses k.c k.p n 0 = true then adoptedClock img k'
      else { k' with report := reportFor img.plans[a] k'.p (crosses k.c k.p n) true } := by
  have hplan : activePlan u = some img.plans[a] := activePlan_eq_some.mpr ⟨img, a, hi, ha, rfl⟩
  have hc : img.plans[a].isCoordinated = true := (isCoordinated_iff _).mpr hc
  have hwork : ckWork u = runCycle img img.plans[a] (secondStage img (markStage img u)) := by
    unfold ckWork
    simp only [hi, hplan, hc, hj, if_true]
    rfl
  rw [hwork]
  unfold runCycle
  simp only [payoutNow_atAdvance, advanceBy_eq, Bool.and_eq_true]
  show (ite _ _ _ : State).ck = ite _ _ _
  have hpend : planPending (advance (payoutAtAdvance img u) (clockAtAdvance img u)) = planPending (clockAtAdvance img u) := rfl
  rw [← hpend]
  split
  · rw [adoptPending_ck, if_pos ‹_›]
    rfl
  · rw [if_neg ‹_›]
    rfl

/-! ## What the work of the clock leaves as the marks made it -/

/-- The fields that the advance and the adoption leave alone. -/
def SamePending (k k' : CkState) : Prop :=
  k'.pendingPlan = k.pendingPlan ∧ k'.record = k.record ∧ k'.planHold = k.planHold ∧ k'.beaconCount = k.beaconCount

theorem adoptedClock_pending (img : Image) (k : CkState) : SamePending k (adoptedClock img k) := by
  unfold adoptedClock
  split <;> exact ⟨rfl, rfl, rfl, rfl⟩

theorem ckWork_pending {u : State} {img : Image} {a : Plan} (hi : u.cf.image = some img) (ha : u.ck.active = some a) :
    SamePending (clockAtAdvance img u) (ckWork u).ck := by
  by_cases hc : img.plans[a].cycle = 0
  · rw [ckWork_free hi ha hc]
    split
    · exact adoptedClock_pending img _
    · exact ⟨rfl, rfl, rfl, rfl⟩
  · cases hj : makesJumpIn u
    · rw [ckWork_advance hi ha hc hj]
      dsimp only
      split
      · exact adoptedClock_pending img (advance _ _)
      · exact ⟨rfl, rfl, rfl, rfl⟩
    · rw [ckWork_jump hi ha hc hj]
      exact ⟨rfl, rfl, rfl, rfl⟩

theorem followPlan_ck (img : Image) (s : State) :
    (followPlan img s).ck = { s.ck with pendingPlan := (followPlan img s).ck.pendingPlan } := by
  unfold followPlan
  split
  · rfl
  · split
    · rfl
    · split <;> rfl

theorem markStage_of_mark {u : State} (img : Image) (h : disciplineMark u = true) :
    markStage img u = followPlan img (synchronise img u) := if_pos h

theorem markStage_of_not {u : State} (img : Image) (h : ¬disciplineMark u = true) : markStage img u = u := if_neg h

theorem missJumpIn_rest (k : CkState) :
    missJumpIn k = { k with unsync := (missJumpIn k).unsync, unsyncCount := (missJumpIn k).unsyncCount } := by
  unfold missJumpIn
  split <;> rfl

/-- The works of a discipline mark leave the plans and the counters of the second mark. -/
theorem synchronise_counters (img : Image) (u : State) :
    (synchronise img u).ck.planHold = u.ck.planHold ∧ (synchronise img u).ck.beaconCount = u.ck.beaconCount ∧
      (synchronise img u).ck.active = u.ck.active ∧ (synchronise img u).ck.pendingPlan = u.ck.pendingPlan := by
  unfold synchronise
  split
  · split
    · split
      · exact ⟨rfl, rfl, rfl, rfl⟩
      · rw [missJumpIn_rest]
        exact ⟨rfl, rfl, rfl, rfl⟩
    · rw [discipline_rest]
      exact ⟨rfl, rfl, rfl, rfl⟩
  · exact ⟨rfl, rfl, rfl, rfl⟩

theorem markStage_counters (img : Image) (u : State) :
    (markStage img u).ck.planHold = u.ck.planHold ∧ (markStage img u).ck.beaconCount = u.ck.beaconCount := by
  by_cases h : disciplineMark u = true
  · rw [markStage_of_mark img h, followPlan_ck]
    obtain ⟨hhold, hbeacon, -, -⟩ := synchronise_counters img u
    exact ⟨hhold, hbeacon⟩
  · rw [markStage_of_not img h]
    exact ⟨rfl, rfl⟩

/-! ## The rows and the counters (O30) -/

theorem qualifies_iff (c : Nat) (e : Entry) : qualifies c e = true ↔ Qualifies c e := by
  unfold qualifies Qualifies
  split
  · next b hs hb => simp [hs, hb, and_assoc, and_comm, and_left_comm]
  · next h =>
    refine iff_of_false (by simp) fun ⟨hs, _, b, hb, _⟩ => h b hs hb

theorem mem_contributors {s : State} {e : Entry} :
    e ∈ contributors s ↔ (∃ p : Place, s.nt.places[p] = some e) ∧ Qualifies s.ck.c e := by
  simp [-Fin.getElem_fin, contributors, places, qualifies_iff]

/-- Settles O30: the rows are their counts, and at a TICK the second stage alone moves the two counters. -/
theorem clockCountsRunOut : Obligations.ClockCountsRunOut := by
  refine ⟨⟨fun s hh => ?_, fun s hc hu hn hnone => ?_, fun s hh => ?_⟩, fun s img hi hb => ?_, ?_⟩
  · exact congrArg Host.Outcome.next (whenDue_true (by simp [hh]) _ _)
  · have hempty : (contributors s).isEmpty = true := by
      rw [List.isEmpty_iff, List.eq_nil_iff_forall_not_mem]
      rintro e he
      obtain ⟨⟨p, hp⟩, hq⟩ := mem_contributors.mp he
      exact hnone p e hp hq
    have hmiss : missJumpIn s.ck = { s.ck with unsync := false, unsyncCount := 0 } := if_pos (by omega)
    refine (congrArg Host.Outcome.next (whenDue_true (by simp [hc, hu, hn, hempty]) _ _)).trans ?_
    rw [hmiss]
  · refine (congrArg Host.Outcome.next (whenDue_true (by simp [hh]) _ _)).trans ?_
    unfold countPlanHold
    rw [hh]
  · refine ⟨countBeacon img s, ?_, countBeacon_only img s, ?_, ?_⟩
    · show execBeaconDue s = _
      unfold execBeaconDue
      rw [hi]
      exact congrArg Host.Outcome.next (whenDue_true (by simp [hb]) _ _)
    · rw [countBeacon_ck, if_pos (by omega), hb]
    · unfold countBeacon
      rw [if_pos (by omega)]
      dsimp only
      rw [if_pos hb]
      exact offered_offer .beacon rfl
  · intro d r x s img a hi ha hp
    obtain ⟨u, t, hx, hu, ht⟩ := tick_clock d r x hp
    obtain ⟨-, -, hhold, hbeacon⟩ := ckWork_pending (u := u) (by rw [hu.cf, hi]) (by rw [hu.ck, ha])
    obtain ⟨hhold', hbeacon'⟩ := markStage_counters img u
    rw [hu.ck] at hhold' hbeacon'
    refine ⟨t, hx, fun hm => ?_, fun hm => ?_⟩
    · rw [ht, hhold, hbeacon, clockAtAdvance_eq, if_pos (hu.secondMark_iff.mpr hm), hhold', hbeacon']
      exact ⟨rfl, rfl⟩
    · rw [ht, hhold, hbeacon, clockAtAdvance_eq, if_neg (mt hu.secondMark_iff.mp hm)]
      exact ⟨hhold', hbeacon'⟩

/-! ## The advance (O15) -/

/-- R71, R72, R95: the advance with a payout, whatever the report. -/
theorem advance_advanced (pay : Int) (k k' : CkState) (hb : k'.b = (advance pay k).b) (hh : k'.hold = (advance pay k).hold)
    (hp : k'.p = (advance pay k).p) : Advanced pay k k' := by
  refine ⟨hb, fun hneg => ?_, fun hpos hhold => ?_, fun hpos hhold => ?_⟩
  · rw [hp, hh]
    simp only [advance, advanceBy, if_pos hneg, Nat.add_zero, true_and]
    omega
  · rw [hp, hh]
    simp only [advance, advanceBy, if_neg (Int.not_lt.mpr hpos), if_pos hhold, Nat.add_zero, and_self]
  · rw [hp, hh]
    simp only [advance, advanceBy, if_neg (Int.not_lt.mpr hpos), hhold, Nat.lt_irrefl, if_false, Nat.zero_sub, and_true]
    push_cast
    rw [Int.toNat_of_nonneg hpos, add_assoc]

/-- A coordinated plan, in terms of its record. -/
theorem coordinatedActive_iff {s : State} {img : Image} {a : Plan} (hi : s.cf.image = some img) (ha : s.ck.active = some a) :
    coordinatedActive s = true ↔ img.plans[a].cycle ≠ 0 := by
  rw [coordinatedActive_eq_true, activePlan_eq_some.mpr ⟨img, a, hi, ha, rfl⟩]
  simp [-Fin.getElem_fin]

theorem active_of_coordinated {s : State} {img : Image} (hi : s.cf.image = some img) (hc : coordinatedActive s = true) :
    ∃ a, s.ck.active = some a ∧ img.plans[a].cycle ≠ 0 := by
  obtain ⟨r, hr, hcycle⟩ := coordinatedActive_eq_true.mp hc
  obtain ⟨img', a, hi', ha, rfl⟩ := activePlan_eq_some.mp hr
  obtain rfl : img = img' := Option.some.inj (hi.symm.trans hi')
  exact ⟨a, ha, hcycle⟩

/-- No plan is pending: the clock advances on the plan it has. -/
theorem ckWork_advance_of_same {u : State} {img : Image} {a : Plan} (hi : u.cf.image = some img) (ha : u.ck.active = some a)
    (hc : img.plans[a].cycle ≠ 0) (hj : makesJumpIn u = false) (hp : (clockAtAdvance img u).pendingPlan = some a) :
    (ckWork u).ck =
      let k := clockAtAdvance img u
      let k' := advance (payoutAtAdvance img u) k
      { k' with
        report := reportFor img.plans[a] k'.p (crosses k.c k.p (ticksAdvanced (payoutAtAdvance img u) k.hold)) true } := by
  rw [ckWork_advance hi ha hc hj]
  refine if_neg fun ⟨hpending, _⟩ => ?_
  obtain ⟨p, hp', hne⟩ := (planPending_iff ((markStage_active img u).trans ha)).mp hpending
  exact hne (Option.some.inj (hp'.symm.trans hp))

theorem makesJumpIn_of_not_mark {u : State} (h : ¬disciplineMark u = true) : makesJumpIn u = false := by
  simp [makesJumpIn, Bool.eq_false_iff.mpr h]

/-- Settles O15: without a discipline mark and with nothing pending, the clock's work is the advance. -/
theorem tickAdvancesTheCycle : Obligations.TickAdvancesTheCycle := by
  intro d r x s img hi hp hc hsame hm
  obtain ⟨a, ha, hcycle⟩ := active_of_coordinated hi hc
  obtain ⟨u, t, hx, hu, ht⟩ := tick_clock d r x hp
  have hmark : ¬disciplineMark u = true := mt hu.disciplineMark_iff.mp hm
  have hk := clockAtAdvance_keeps img u
  rw [markStage_of_not img hmark, hu.ck] at hk
  have hpay : payoutAtAdvance img u = if (s.tb.m + 1) % 100 = 0 then paid img s.ck.b else 0 := by
    rw [payoutAtAdvance, hk]
    exact if_congr hu.secondMark_iff rfl rfl
  have hwork := ckWork_advance_of_same (by rw [hu.cf, hi]) (by rw [hu.ck, ha]) hcycle (makesJumpIn_of_not_mark hmark)
    (by rw [hk]; exact hsame.trans ha)
  rw [hpay, ← ht, hk] at hwork
  obtain ⟨hb, hneg, hheld, hfree⟩ := advance_advanced (if (s.tb.m + 1) % 100 = 0 then paid img s.ck.b else 0) s.ck t.ck
    (by rw [hwork]; rfl) (by rw [hwork]; rfl) (by rw [hwork]; rfl)
  exact ⟨t, hx, hb, hneg, hheld, hfree, by rw [hwork]; rfl, by rw [hwork]; rfl, by rw [hwork]; rfl, by rw [hwork]; rfl,
    by rw [hwork]; rfl, by rw [hwork]; rfl⟩

end Sys2Proof.Machine


/-!
# Crossings, windows, adoption and the jump-in (O31, O34, O35)
-/

namespace Sys2Proof.Machine

/-! ## Crossings and windows (R73 to R75) -/

/-- R73: the points crossed are those the advance reaches. -/
theorem crosses_iff {c p k x : Nat} (hp : p < c) (hk : k < c) (hx : x < c) :
    crosses c p k x = true ↔ ∃ i, 1 ≤ i ∧ i ≤ k ∧ x = (p + i) % c := by
  simp only [crosses, Nat.mod_eq_of_lt hp, Bool.and_eq_true, decide_eq_true_eq]
  have reaches (i : Nat) (hi : i ≤ k) : (x = (p + i) % c ↔ i = (x + c - p) % c) := by
    rcases Nat.lt_or_ge (p + i) c with h | h
    · rw [Nat.mod_eq_of_lt h]
      rcases Nat.lt_or_ge x p with hxp | hxp
      · rw [Nat.mod_eq_of_lt (show x + c - p < c by omega)]
        omega
      · rw [Nat.mod_eq_sub_mod (show c ≤ x + c - p by omega), Nat.mod_eq_of_lt (by omega)]
        omega
    · rw [Nat.mod_eq_sub_mod h, Nat.mod_eq_of_lt (by omega)]
      rcases Nat.lt_or_ge x p with hxp | hxp
      · rw [Nat.mod_eq_of_lt (show x + c - p < c by omega)]
        omega
      · rw [Nat.mod_eq_sub_mod (show c ≤ x + c - p by omega), Nat.mod_eq_of_lt (by omega)]
        omega
  constructor
  · rintro ⟨h1, hle⟩
    exact ⟨_, h1, hle, (reaches _ hle).mpr rfl⟩
  · rintro ⟨i, h1, hle, he⟩
    rw [← (reaches i hle).mp he]
    exact ⟨h1, hle⟩

theorem inWindow_iff (a b p : Nat) : inWindow a b p = true ↔ Inside p a b := by
  unfold inWindow Inside
  split <;> simp <;> omega

/-- R74: a window of the report. -/
theorem reportFor_yieldOpen (r : PlanRecord) (p : Nat) (crossed : Nat → Bool) (starts : Bool) :
    (reportFor r p crossed starts).yieldOpen = true ↔
      Inside p (10 * r.yieldStart) (10 * r.yieldEnd) ∨ (starts = true ∧ crossed (10 * r.yieldStart) = true) := by
  simp [reportFor, inWindow_iff]

theorem reportFor_permissive (r : PlanRecord) (p : Nat) (crossed : Nat → Bool) (starts : Bool) (i : Stage) :
    (reportFor r p crossed starts).permissive[i] = true ↔
      Inside p (10 * r.stages[i].permStart) (10 * r.stages[i].permEnd) ∨
        (starts = true ∧ crossed (10 * r.stages[i].permStart) = true) := by
  have hget : (reportFor r p crossed starts).permissive[i] =
      (inWindow (10 * r.stages[i].permStart) (10 * r.stages[i].permEnd) p ||
        (starts && crossed (10 * r.stages[i].permStart))) := tab_get _ i
  rw [hget, Bool.or_eq_true, inWindow_iff, Bool.and_eq_true]

/-- R75: the force-off points crossed. -/
theorem reportFor_crossed (r : PlanRecord) (p : Nat) (crossed : Nat → Bool) (starts : Bool) (i : Stage) :
    (reportFor r p crossed starts).crossed[i] = true ↔ ∃ x, r.stages[i].forceOff = some x ∧ crossed (10 * x) = true := by
  have hget : (reportFor r p crossed starts).crossed[i] =
      (match r.stages[i].forceOff with
        | some x => crossed (10 * x)
        | none => false) := tab_get _ i
  rw [hget]
  cases r.stages[i].forceOff <;> simp

theorem allClosed_closed : AllClosed WindowReport.closed := ⟨rfl, fun st => ⟨tab_get _ st, tab_get _ st⟩⟩

/-! ## The adoption (R76, R77) -/

theorem adopt_adopted (img : Image) (p : Plan) {s k : CkState} (hp : k.pendingPlan = some p) (hr : k.record = s.record) :
    Adopted img p s (adopt img.plans[p] p k) := by
  refine ⟨rfl, hp, rfl, rfl, rfl, rfl, rfl, hr, fun hfree => ?_, fun hc => ?_⟩
  · have hcoord := isCoordinated_eq_false.mpr hfree
    refine ⟨if_neg (by rw [hcoord]; decide), hcoord, ?_⟩
    show AllClosed (if img.plans[p].isCoordinated then _ else _)
    rw [hcoord]
    exact allClosed_closed
  · have hcoord := (isCoordinated_iff _).mpr hc
    have hreport : (adopt img.plans[p] p k).report = reportFor img.plans[p] 0 (fun x => x == 0) false := if_pos hcoord
    refine ⟨if_pos hcoord, hcoord, ?_, fun st => ⟨?_, ?_⟩⟩
    · rw [hreport, reportFor_yieldOpen]
      simp only [Inside, Bool.false_eq_true, false_and, or_false]
      omega
    · rw [hreport, reportFor_permissive]
      simp only [Inside, Bool.false_eq_true, false_and, or_false]
      omega
    · rw [hreport, reportFor_crossed]
      simp

theorem adoptedClock_adopted {img : Image} {p : Plan} {s k : CkState} (hp : k.pendingPlan = some p) (hr : k.record = s.record) :
    Adopted img p s (adoptedClock img k) := by
  unfold adoptedClock
  rw [hp]
  exact adopt_adopted img p hp hr

/-- R76, outside a discipline mark: when the pending plan is adopted at the next tick. -/
theorem adoptionDue_iff {s : State} {img : Image} {a p : Plan} (hi : s.cf.image = some img) (ha : s.ck.active = some a)
    (hp : s.ck.pendingPlan = some p) (hne : a ≠ p) (hm : (s.tb.m + 1) % 1000 ≠ 0) :
    adoptionDue img s = true ↔
      (img.plans[a].cycle = 0 ∧ (s.tb.m + 1) % 100 = 0) ∨
      (img.plans[a].cycle ≠ 0 ∧
        crosses s.ck.c s.ck.p (ticksAdvanced (if (s.tb.m + 1) % 100 = 0 then paid img s.ck.b else 0) s.ck.hold) 0 = true) := by
  have hnot : ¬disciplineMark (advanceMark s) = true := by simpa [disciplineMark, advanceMark] using hm
  have hsecond : secondMark (advanceMark s) = true ↔ (s.tb.m + 1) % 100 = 0 := by
    show ((s.tb.m + 1) % 1000 % 100 == 0) = true ↔ _
    rw [beq_iff_eq]
    omega
  have hpending : planPending s.ck = true := (planPending_iff ha).mpr ⟨p, hp, hne.symm⟩
  have hpay : payoutNow img (advanceMark s) = if (s.tb.m + 1) % 100 = 0 then paid img s.ck.b else 0 :=
    if_congr hsecond rfl rfl
  unfold adoptionDue
  dsimp only
  rw [markStage_of_not img hnot, makesJumpIn_of_not_mark hnot, hpending, hpay, advanceBy_eq]
  have hck : (advanceMark s).ck = s.ck := rfl
  rw [hck, beq_self_eq_true, Bool.true_and, Bool.true_and, Bool.not_false, Bool.true_and]
  have hcoord := coordinatedActive_iff hi ha
  split
  · next h => simp [-Fin.getElem_fin, hcoord.mp h]
  · next h =>
    have hfree := not_not.mp (mt hcoord.mpr h)
    simp [-Fin.getElem_fin, hfree, hsecond]

/-- The clock at the advance of a TICK that is no discipline mark. -/
theorem clockAtAdvance_of_not {s u : State} (img : Image) (hu : ClockBegins s u) (hm : (s.tb.m + 1) % 1000 ≠ 0) :
    clockAtAdvance img u = { s.ck with
      planHold := (clockAtAdvance img u).planHold, beaconCount := (clockAtAdvance img u).beaconCount } := by
  have hk := clockAtAdvance_keeps img u
  rwa [markStage_of_not img (mt hu.disciplineMark_iff.mp hm), hu.ck] at hk

theorem payoutAtAdvance_eq {s u : State} (img : Image) (hu : ClockBegins s u) :
    payoutAtAdvance img u = if (s.tb.m + 1) % 100 = 0 then paid img (clockAtAdvance img u).b else 0 :=
  if_congr hu.secondMark_iff rfl rfl

/-- The crossing of cycle zero, as an advance of `n` ticks. -/
def ReachesZero (k : CkState) (n : Nat) : Prop := ∃ i, 1 ≤ i ∧ i ≤ n ∧ (k.p + i) % k.c = 0

theorem crosses_zero {k : CkState} {n : Nat} (hp : k.p < k.c) (hn : n < k.c) :
    crosses k.c k.p n 0 = true ↔ ReachesZero k n := by
  rw [crosses_iff hp hn (by omega)]
  simp only [ReachesZero, eq_comm]

/-- R76 at a TICK that is no discipline mark: the clock's work adopts where the row falls due, and only there. -/
theorem ckWork_adopts {s u : State} {img : Image} {a p : Plan} (hu : ClockBegins s u) (hi : s.cf.image = some img)
    (ha : s.ck.active = some a) (hp : s.ck.pendingPlan = some p) (hne : a ≠ p) (hm : (s.tb.m + 1) % 1000 ≠ 0) :
    (adoptionDue img s = true → Adopted img p s.ck (ckWork u).ck) ∧
      (¬adoptionDue img s = true → (ckWork u).ck.active = some a) := by
  have hui : u.cf.image = some img := by rw [hu.cf, hi]
  have hua : u.ck.active = some a := by rw [hu.ck, ha]
  have hk := clockAtAdvance_of_not img hu hm
  have hpending : planPending (clockAtAdvance img u) = true :=
    (planPending_iff (by rw [hk, ha])).mpr ⟨p, by rw [hk, hp], hne.symm⟩
  have hpay := payoutAtAdvance_eq img hu
  have hj := makesJumpIn_of_not_mark (mt hu.disciplineMark_iff.mp hm)
  have hactive : (clockAtAdvance img u).active = some a := by rw [hk, ha]
  have hb : (clockAtAdvance img u).b = s.ck.b := by rw [hk]
  rw [adoptionDue_iff hi ha hp hne hm]
  by_cases hc : img.plans[a].cycle = 0
  · rw [ckWork_free hui hua hc]
    simp only [hc, hpending, true_and, ne_eq, not_true, false_and, or_false]
    refine ⟨fun h => ?_, fun h => ?_⟩
    · rw [if_pos (hu.secondMark_iff.mpr h)]
      exact adoptedClock_adopted (by rw [hk, hp]) (by rw [hk])
    · rw [if_neg (mt hu.secondMark_iff.mp h)]
      exact hactive
  · rw [ckWork_advance hui hua hc hj]
    have hcross : crosses (clockAtAdvance img u).c (clockAtAdvance img u).p
        (ticksAdvanced (payoutAtAdvance img u) (clockAtAdvance img u).hold) 0 =
        crosses s.ck.c s.ck.p (ticksAdvanced (if (s.tb.m + 1) % 100 = 0 then paid img s.ck.b else 0) s.ck.hold) 0 := by
      rw [hpay, hb, hk]
    simp only [hc, hpending, hcross, true_and, ne_eq, not_false_eq_true, false_and, false_or]
    refine ⟨fun h => ?_, fun h => ?_⟩
    · rw [if_pos h]
      exact adoptedClock_adopted (show (clockAtAdvance img u).pendingPlan = some p by rw [hk, hp])
        (show (clockAtAdvance img u).record = s.ck.record by rw [hk])
    · rw [if_neg h]
      exact hactive

/-- Settles O31: the row and the TICK ask for the same crossing of cycle zero, or for the same second mark. -/
theorem planAdoptionTakesThePendingPlan : Obligations.PlanAdoptionTakesThePendingPlan := by
  refine ⟨fun s img a p hi ha hp hne hdue => ?_, ?_⟩
  · have hstep : exec .planAdoption s = .next (adoptPending img s) := by
      show execPlanAdoption s = _
      unfold execPlanAdoption
      rw [hi]
      exact congrArg Host.Outcome.next (whenDue_true (by simp [ha, hdue]) _ _)
    have hadopt : adoptPending img s = (s.withCk (adopt img.plans[p] p s.ck)).withSq
        { endHold s.sq with yieldWasOpen := false } := by
      unfold adoptPending
      rw [hp]
      rfl
    refine ⟨adoptPending img s, hstep, adoptPending_only img s, ?_, ?_, ?_, ?_⟩ <;> rw [hadopt]
    · exact adopt_adopted img p hp rfl
    all_goals rfl
  · intro d r x s img a p hi ha hp hne hpend law hm
    obtain ⟨u, t, hx, hu, ht⟩ := tick_clock d r x hpend
    obtain ⟨hcycle, -, -, hlt⟩ := law
    have hc : s.ck.c = 100 * img.plans[a].cycle := hcycle _ (activePlan_eq_some.mpr ⟨img, a, hi, ha, rfl⟩)
    have hadopts := ckWork_adopts hu hi ha hp hne hm
    have hpending : (ckWork u).ck.pendingPlan = some p := by
      rw [(ckWork_pending (by rw [hu.cf, hi]) (by rw [hu.ck, ha])).1, clockAtAdvance_of_not img hu hm, hp]
    set k := ticksAdvanced (if (s.tb.m + 1) % 100 = 0 then paid img s.ck.b else 0) s.ck.hold with hkdef
    have hdue (h : k < s.ck.c ∨ s.ck.c = 0) : adoptionDue img s = true ↔
        (img.plans[a].cycle = 0 ∧ (s.tb.m + 1) % 100 = 0) ∨ (img.plans[a].cycle ≠ 0 ∧ ReachesZero s.ck k) := by
      rw [adoptionDue_iff hi ha hp hne hm]
      refine or_congr_right (and_congr_right fun hne0 => ?_)
      have hpos : s.ck.c ≠ 0 := by omega
      exact crosses_zero (hlt hpos) (h.resolve_right hpos)
    refine ⟨hdue, t, hx, by rw [ht, hpending], fun h => ⟨fun due => ?_, fun due => ?_⟩⟩ <;> rw [ht]
    · exact hadopts.1 ((hdue h).mpr due)
    · exact hadopts.2 (mt (hdue h).mp due)

/-! ## The report a TICK leaves (O34) -/

theorem bestNeighbor_isSome (es : List Entry) : (bestNeighbor es).isSome = true ↔ ∃ e, e ∈ es := by
  cases es with
  | nil => simp [bestNeighbor]
  | cons e rest =>
    refine iff_of_true ?_ ⟨e, by simp⟩
    unfold bestNeighbor
    split
    · rfl
    · split <;> rfl

/-- R70 (1): whether a jump-in is made, in terms of the table the mark finds. -/
theorem makesJumpIn_iff {s u : State} (hu : ClockBegins s u) : makesJumpIn u = true ↔
    ((s.tb.m + 1) % 1000 = 0 ∧ coordinatedActive s = true) ∧ s.ck.unsync = true ∧
      ∃ (p : Place) (e : Entry), u.nt.places[p] = some e ∧ Qualifies s.ck.c e := by
  unfold makesJumpIn
  rw [Bool.and_eq_true, Bool.and_eq_true, Bool.and_eq_true, hu.disciplineMark_iff, hu.coordinatedActive, hu.ck,
    bestNeighbor_isSome, and_assoc (b := s.ck.unsync = true)]
  simp only [mem_contributors, hu.ck]
  exact and_congr_right fun _ => and_congr_right fun _ =>
    ⟨fun ⟨e, ⟨p, hp⟩, hq⟩ => ⟨p, e, hp, hq⟩, fun ⟨p, e, hp, hq⟩ => ⟨e, ⟨p, hp⟩, hq⟩⟩

/-- The clock at the advance of a TICK that is a discipline mark: what the mark made of it, but for plan following and counters. -/
theorem clockAtAdvance_of_mark {s u : State} (img : Image) (hu : ClockBegins s u) (hm : (s.tb.m + 1) % 1000 = 0) :
    clockAtAdvance img u = { (synchronise img u).ck with
      pendingPlan := (clockAtAdvance img u).pendingPlan, planHold := (clockAtAdvance img u).planHold,
      beaconCount := (clockAtAdvance img u).beaconCount } := by
  have hk := clockAtAdvance_keeps img u
  rw [markStage_of_mark img (hu.disciplineMark_iff.mpr hm), followPlan_ck] at hk
  have hpending : (clockAtAdvance img u).pendingPlan = (followPlan img (synchronise img u)).ck.pendingPlan := by rw [hk]
  rw [hpending]
  exact hk

theorem synchronise_jump {u : State} (img : Image) {e : Entry} (hc : coordinatedActive u = true) (hun : u.ck.unsync = true)
    (he : bestNeighbor (contributors u) = some e) : (synchronise img u).ck = passMark (jumpIn e u.ck) := by
  simp only [synchronise, hc, hun, he, if_true]
  rfl

theorem synchronise_miss {u : State} (img : Image) (hc : coordinatedActive u = true) (hun : u.ck.unsync = true)
    (he : bestNeighbor (contributors u) = none) : (synchronise img u).ck = passMark (missJumpIn u.ck) := by
  simp only [synchronise, hc, hun, he, if_true]
  rfl

theorem synchronise_evaluates {u : State} (img : Image) (hc : coordinatedActive u = true) (hun : u.ck.unsync = false) :
    (synchronise img u).ck = discipline img (contributors u) (reference u) u.ck := by
  simp [synchronise, hc, hun]

theorem synchronise_free {u : State} (img : Image) (hc : coordinatedActive u = false) :
    (synchronise img u).ck = passMark u.ck := by
  simp [synchronise, hc]

/-- R97: the balance that a discipline mark leaves, no jump-in being made: an evaluation's, or the one it finds. -/
def balanceAtMark (img : Image) (nt : NtState) (s : State) : Int :=
  if (s.tb.m + 1) % 1000 = 0 ∧ s.ck.unsync = false
  then (discipline img (contributors (s.withNt nt)) (reference s) s.ck).b else s.ck.b

/-- Without a jump-in the marks leave the position, the hold count and the plan, and set at most the balance. -/
theorem clockAtAdvance_stands {s u : State} {img : Image} (hu : ClockBegins s u) (hc : coordinatedActive s = true)
    (hj : makesJumpIn u = false) :
    (clockAtAdvance img u).p = s.ck.p ∧ (clockAtAdvance img u).c = s.ck.c ∧ (clockAtAdvance img u).hold = s.ck.hold ∧
      (clockAtAdvance img u).b = balanceAtMark img u.nt s := by
  have hcu : coordinatedActive u = true := hu.coordinatedActive.trans hc
  unfold balanceAtMark
  by_cases hm : (s.tb.m + 1) % 1000 = 0
  · rw [clockAtAdvance_of_mark img hu hm]
    cases hun : s.ck.unsync
    · rw [synchronise_evaluates img hcu (by rw [hu.ck, hun]), hu.ck, hu.contributors, hu.reference, discipline_rest,
        if_pos ⟨hm, rfl⟩]
      exact ⟨rfl, rfl, rfl, rfl⟩
    · have hnone : bestNeighbor (contributors u) = none := by
        have hno := mt (makesJumpIn_iff hu).mpr (Bool.eq_false_iff.mp hj)
        rw [← Option.not_isSome_iff_eq_none, bestNeighbor_isSome]
        simp only [mem_contributors, hu.ck]
        exact fun ⟨e, ⟨p, hp⟩, hq⟩ => hno ⟨⟨hm, hc⟩, hun, p, e, hp, hq⟩
      rw [synchronise_miss img hcu (by rw [hu.ck, hun]) hnone, hu.ck, missJumpIn_rest, if_neg (by simp)]
      exact ⟨rfl, rfl, rfl, rfl⟩
  · rw [clockAtAdvance_of_not img hu hm, if_neg fun h => hm h.1]
    exact ⟨rfl, rfl, rfl, rfl⟩

/-- The plan an adoption makes active is not the one that was. -/
theorem adoptedClock_active_ne {img : Image} {a : Plan} {k k' : CkState} (ha : k.active = some a) (h : planPending k = true)
    (hp : k'.pendingPlan = k.pendingPlan) : (adoptedClock img k').active ≠ some a := by
  obtain ⟨p, hpend, hne⟩ := (planPending_iff ha).mp h
  rw [← hp] at hpend
  unfold adoptedClock
  rw [hpend]
  exact fun e => hne (Option.some.inj e)

/-- A pending plan that is the active one is not adopted. -/
theorem ckWork_active {u : State} {img : Image} {a : Plan} (hi : u.cf.image = some img) (ha : u.ck.active = some a)
    (hp : (clockAtAdvance img u).pendingPlan = some a) : (ckWork u).ck.active = some a := by
  have hactive : (clockAtAdvance img u).active = some a := (markStage_active img u).trans ha
  have hnot : ¬planPending (clockAtAdvance img u) = true := fun h => by
    obtain ⟨p, hp', hne⟩ := (planPending_iff hactive).mp h
    exact hne (Option.some.inj (hp'.symm.trans hp))
  by_cases hc : img.plans[a].cycle = 0
  · rw [ckWork_free hi ha hc, if_neg fun h => hnot h.1]
    exact hactive
  · cases hj : makesJumpIn u
    · rw [ckWork_advance_of_same hi ha hc hj hp]
      exact hactive
    · rw [ckWork_jump hi ha hc hj]
      exact hactive

/-- R75: the report that the clock's work leaves where it adopts no plan. -/
theorem ckWork_report {s u : State} {img : Image} {a : Plan} (hu : ClockBegins s u) (hi : s.cf.image = some img)
    (ha : s.ck.active = some a) (hsame : (ckWork u).ck.active = some a) :
    (img.plans[a].cycle = 0 → AllClosed (ckWork u).ck.report) ∧
    (img.plans[a].cycle ≠ 0 → makesJumpIn u = true →
      (ckWork u).ck.report = reportFor img.plans[a] s.ck.p (fun _ => false) false) ∧
    (img.plans[a].cycle ≠ 0 → makesJumpIn u = false →
      let k := ticksAdvanced (if (s.tb.m + 1) % 100 = 0 then paid img (balanceAtMark img u.nt s) else 0) s.ck.hold
      (ckWork u).ck.p = (s.ck.p + k) % s.ck.c ∧
        (ckWork u).ck.report = reportFor img.plans[a] (ckWork u).ck.p (crosses s.ck.c s.ck.p k) true) := by
  have hui : u.cf.image = some img := by rw [hu.cf, hi]
  have hua : u.ck.active = some a := by rw [hu.ck, ha]
  have hactive : (clockAtAdvance img u).active = some a := (markStage_active img u).trans hua
  refine ⟨fun hc => ?_, fun hc hj => ?_, fun hc hj => ?_⟩
  · rw [ckWork_free hui hua hc] at hsame ⊢
    split at hsame
    · next h => exact absurd hsame (adoptedClock_active_ne hactive h.1 rfl)
    · next h =>
      rw [if_neg h]
      exact allClosed_closed
  · rw [ckWork_jump hui hua hc hj, hu.ck]
  · obtain ⟨hp, hcyc, hhold, hb⟩ := clockAtAdvance_stands (img := img) hu ((coordinatedActive_iff hi ha).mpr hc) hj
    rw [ckWork_advance hui hua hc hj] at hsame ⊢
    dsimp only at hsame ⊢
    split at hsame
    · next h => exact absurd hsame (adoptedClock_active_ne hactive h.1 rfl)
    · next h =>
      rw [if_neg h, ← hb, ← payoutAtAdvance_eq img hu, ← hp, ← hcyc, ← hhold]
      dsimp only
      rw [← advanceBy_eq]
      exact ⟨rfl, rfl⟩

/-- Settles O34: an ordinary report looks at the position reached and the points crossed, and a TICK leaves one of the four. -/
theorem reportTellsWindowsAndCrossings : Obligations.ReportTellsWindowsAndCrossings := by
  refine ⟨fun c p k r hp hk => ⟨fun x hx => crosses_iff hp hk hx, ?_⟩, fun r p => ?_, fun d r x s img a hi ha hpend => ?_⟩
  · simp only [reportFor_yieldOpen, reportFor_permissive, reportFor_crossed, true_and, implies_true, and_self]
  · simp only [reportFor_yieldOpen, reportFor_permissive, Bool.false_eq_true, false_and, or_false, true_and]
    intro i
    rw [Bool.eq_false_iff, ne_eq, reportFor_crossed]
    simp
  · obtain ⟨u, t, hx, hu, ht⟩ := tick_clock d r x hpend
    have hui : u.cf.image = some img := by rw [hu.cf, hi]
    have hua : u.ck.active = some a := by rw [hu.ck, ha]
    refine ⟨t, u.nt, hx, hu.table, ?_⟩
    rw [ht]
    refine ⟨fun hp => ckWork_active hui hua ((ckWork_pending hui hua).1.symm.trans hp), fun hsame => ?_⟩
    obtain ⟨hfree, hjump, hrun⟩ := ckWork_report hu hi ha hsame
    refine ⟨hfree, fun hc ⟨hm, hun, hq⟩ => hjump hc ?_, fun hc hnot => hrun hc (Bool.eq_false_iff.mpr fun h => hnot ?_)⟩
    · exact (makesJumpIn_iff hu).mpr ⟨⟨hm, (coordinatedActive_iff hi ha).mpr hc⟩, hun, hq⟩
    · obtain ⟨⟨hm, _⟩, hun, hq⟩ := (makesJumpIn_iff hu).mp h
      exact ⟨hm, hun, hq⟩

end Sys2Proof.Machine


/-!
# The discipline mark: jump-in, evaluation and plan following (O35, O37)
-/

namespace Sys2Proof.Machine

/-! ## The best qualifying neighbor (R79) -/

/-- No entry goes before another one: `f` does not go before `e`. -/
def GoesBefore (e f : Entry) : Prop := f.weight < e.weight ∨ (f.weight = e.weight ∧ e.address ≤ f.address)

theorem GoesBefore.trans {e f g : Entry} (h : GoesBefore e f) (h' : GoesBefore f g) : GoesBefore e g := by
  unfold GoesBefore at *
  omega

theorem preferred_iff (f e : Entry) : preferred f e = false ↔ GoesBefore e f := by
  simp [preferred, GoesBefore]
  omega

theorem goesBefore_of_preferred {f e : Entry} (h : preferred f e = true) : GoesBefore f e := by
  simp only [preferred, Bool.or_eq_true, Bool.and_eq_true, decide_eq_true_eq, beq_iff_eq] at h
  unfold GoesBefore
  omega

theorem bestNeighbor_goesBefore : ∀ {es : List Entry} {e : Entry}, bestNeighbor es = some e →
    e ∈ es ∧ ∀ f ∈ es, GoesBefore e f
  | [], e, h => by simp [bestNeighbor] at h
  | x :: rest, e, h => by
    have hself : GoesBefore x x := .inr ⟨rfl, le_refl _⟩
    unfold bestNeighbor at h
    split at h
    · next hnone =>
      obtain rfl : x = e := Option.some.inj h
      have hrest : rest = [] := by
        by_contra hne
        obtain ⟨y, hy⟩ := List.exists_mem_of_ne_nil rest hne
        simpa [hnone] using (bestNeighbor_isSome rest).mpr ⟨y, hy⟩
      subst hrest
      simpa using hself
    · next f hf =>
      obtain ⟨hmem, hbest⟩ := bestNeighbor_goesBefore hf
      split at h
      · next hp =>
        obtain rfl : f = e := Option.some.inj h
        refine ⟨List.mem_cons_of_mem x hmem, ?_⟩
        rintro g (_ | ⟨_, hg⟩)
        · exact goesBefore_of_preferred hp
        · exact hbest g hg
      · next hp =>
        obtain rfl : x = e := Option.some.inj h
        refine ⟨List.mem_cons_self, ?_⟩
        rintro g (_ | ⟨_, hg⟩)
        · exact hself
        · exact ((preferred_iff f x).mp (Bool.eq_false_iff.mpr hp)).trans (hbest g hg)

theorem bestOf_of_bestNeighbor {s : State} {e : Entry} (h : bestNeighbor (contributors s) = some e) : BestOf s e := by
  obtain ⟨hmem, hbest⟩ := bestNeighbor_goesBefore h
  obtain ⟨hplace, hq⟩ := mem_contributors.mp hmem
  exact ⟨hplace, hq, fun q f hf hqf => hbest f (mem_contributors.mpr ⟨⟨q, hf⟩, hqf⟩)⟩

/-- Under the law of the table no two entries share an address, so one entry alone is best. -/
theorem bestNeighbor_iff {s : State} {e : Entry} (law : TableLaw s) :
    bestNeighbor (contributors s) = some e ↔ BestOf s e := by
  refine ⟨bestOf_of_bestNeighbor, fun ⟨⟨p, hp⟩, hq, hbest⟩ => ?_⟩
  obtain ⟨f, hf⟩ := Option.isSome_iff_exists.mp ((bestNeighbor_isSome (contributors s)).mpr ⟨e, mem_contributors.mpr ⟨⟨p, hp⟩, hq⟩⟩)
  obtain ⟨⟨q, hfq⟩, hqf, hfbest⟩ := bestOf_of_bestNeighbor hf
  have h1 := hbest q f hfq hqf
  have h2 := hfbest p e hp hq
  obtain ⟨hdistinct, -, -⟩ := law
  obtain rfl : q = p := hdistinct q p f e hfq hp (by omega)
  rw [hf, Option.some.inj (hfq.symm.trans hp)]

theorem bestNeighbor_none {s : State} (h : ∀ e, ¬BestOf s e) : bestNeighbor (contributors s) = none := by
  rw [Option.eq_none_iff_forall_ne_some]
  exact fun e he => h e (bestOf_of_bestNeighbor he)

theorem estimate_of_last {e : Entry} {b : LastBeacon} (c : Nat) (h : e.last = some b) :
    estimate c e = (b.reference + e.age + 1) % c := by
  simp only [estimate, h]

/-- R79: after a jump-in the reference position is the estimate. -/
theorem reference_jumpIn {s : State} {e : Entry} {b : LastBeacon} (hb : e.last = some b) (hc : 0 < s.ck.c) :
    reference (s.withCk (jumpIn e s.ck)) = (b.reference + e.age + 1) % s.ck.c := by
  have hne : (s.withCk (jumpIn e s.ck)).ck.c ≠ 0 := Nat.ne_of_gt hc
  have h : (reference (s.withCk (jumpIn e s.ck)) : Int) =
      ((((estimate s.ck.c e + s.ck.o) % s.ck.c : Nat) : Int) - s.ck.o) % s.ck.c := reference_eq_sub_emod hne
  rw [estimate_of_last _ hb] at h
  have hz : ((reference (s.withCk (jumpIn e s.ck)) : Nat) : Int) = (((b.reference + e.age + 1) % s.ck.c : Nat) : Int) := by
    rw [h]
    push_cast
    rw [Int.emod_sub_emod, Int.add_sub_cancel, Int.emod_emod_of_dvd _ (dvd_refl _)]
  exact_mod_cast hz

/-! ## A TICK at a discipline mark with the unsynchronized flag set (O35) -/

theorem ClockBegins.tableLaw {s u : State} (hu : ClockBegins s u) (law : TableLaw s) : TableLaw (s.withNt u.nt) := by
  rcases hu.table with h | h <;> rw [h]
  · exact law
  · exact (ntWork_moved s).tableLaw (fun _ hi => hi) law

theorem payoutAtAdvance_of_mark {s u : State} (hu : ClockBegins s u) (hm : (s.tb.m + 1) % 1000 = 0) (img : Image) :
    payoutAtAdvance img u = paid img (clockAtAdvance img u).b := by
  rw [payoutAtAdvance_eq img hu, if_pos (by omega)]

/-- The jump-in at a TICK. -/
theorem ckWork_jumps {s u : State} {img : Image} {a : Plan} {e : Entry} (hu : ClockBegins s u) (hi : s.cf.image = some img)
    (ha : s.ck.active = some a) (hc : img.plans[a].cycle ≠ 0) (hm : (s.tb.m + 1) % 1000 = 0) (hun : s.ck.unsync = true)
    (he : bestNeighbor (contributors (s.withNt u.nt)) = some e) :
    ∃ k : CkState, (ckWork u).ck = { passMark (jumpIn e s.ck) with
      pendingPlan := k.pendingPlan, planHold := k.planHold, beaconCount := k.beaconCount, report := k.report } := by
  have hcoord : coordinatedActive u = true := hu.coordinatedActive.trans ((coordinatedActive_iff hi ha).mpr hc)
  have hj : makesJumpIn u = true := by
    simp [makesJumpIn, hu.disciplineMark_iff.mpr hm, hcoord, hu.ck, hun, hu.contributors, he]
  refine ⟨(ckWork u).ck, ?_⟩
  rw [ckWork_jump (by rw [hu.cf, hi]) (by rw [hu.ck, ha]) hc hj, clockAtAdvance_of_mark img hu hm,
    synchronise_jump img hcoord (by rw [hu.ck, hun]) (hu.contributors ▸ he), hu.ck]

/-- Without a qualifying neighbor the mark is missed, and the tick advances. -/
theorem ckWork_misses {s u : State} {img : Image} {a : Plan} (hu : ClockBegins s u) (hi : s.cf.image = some img)
    (ha : s.ck.active = some a) (hc : img.plans[a].cycle ≠ 0) (hm : (s.tb.m + 1) % 1000 = 0) (hun : s.ck.unsync = true)
    (he : bestNeighbor (contributors (s.withNt u.nt)) = none) (hp : (ckWork u).ck.pendingPlan = some a) :
    Advanced (paid img s.ck.b) s.ck (ckWork u).ck ∧
      (ckWork u).ck.record = { s.ck.record with marks := min (s.ck.record.marks + 1) 255 } ∧
      (ckWork u).ck.unsync = (missJumpIn s.ck).unsync ∧ (ckWork u).ck.unsyncCount = (missJumpIn s.ck).unsyncCount := by
  have hui : u.cf.image = some img := by rw [hu.cf, hi]
  have hua : u.ck.active = some a := by rw [hu.ck, ha]
  have hcoord : coordinatedActive u = true := hu.coordinatedActive.trans ((coordinatedActive_iff hi ha).mpr hc)
  have hj : makesJumpIn u = false := by
    simp [makesJumpIn, hu.contributors, he]
  have hk := clockAtAdvance_of_mark img hu hm
  rw [synchronise_miss img hcoord (by rw [hu.ck, hun]) (hu.contributors ▸ he), hu.ck, missJumpIn_rest] at hk
  have hpay := payoutAtAdvance_of_mark hu hm img
  have hb : (clockAtAdvance img u).b = s.ck.b := by rw [hk]; rfl
  have hwork := ckWork_advance_of_same hui hua hc hj ((ckWork_pending hui hua).1.symm.trans hp)
  rw [hpay, hb, hk] at hwork
  refine ⟨advance_advanced _ _ _ ?_ ?_ ?_, ?_, ?_, ?_⟩ <;> rw [hwork] <;> rfl

/-- Settles O35: the mark copies the best neighbor of the table it finds, or counts a missed mark and advances. -/
theorem jumpInCopiesTheBestNeighbor : Obligations.JumpInCopiesTheBestNeighbor := by
  refine ⟨fun s e => ⟨mem_contributors, fun law => bestNeighbor_iff law, fun b hb hc =>
    ⟨reference_jumpIn hb hc, rfl, rfl, rfl, rfl⟩⟩, fun d r x s img hi law hpend hcoord hun hm => ?_⟩
  obtain ⟨a, ha, hc⟩ := active_of_coordinated hi hcoord
  obtain ⟨u, t, hx, hu, ht⟩ := tick_clock d r x hpend
  refine ⟨t, u.nt, hx, hu.table, fun e b he hb => ?_, fun hnone hp => ?_⟩
  · obtain ⟨k, hk⟩ := ckWork_jumps hu hi ha hc hm hun ((bestNeighbor_iff (hu.tableLaw law)).mpr he)
    have hp : (passMark (jumpIn e s.ck)).p = ((b.reference + e.age + 1) % s.ck.c + s.ck.o) % s.ck.c := by
      rw [← estimate_of_last _ hb]
      rfl
    rw [ht, hk]
    exact ⟨hp, rfl, rfl, rfl, rfl, rfl, rfl, rfl, rfl⟩
  · rw [ht] at hp ⊢
    obtain ⟨hadv, hrec, hflag, hcount⟩ := ckWork_misses hu hi ha hc hm hun (bestNeighbor_none hnone) (hp.trans ha)
    rw [hflag, hcount]
    unfold missJumpIn
    refine ⟨hadv, hrec, fun h => ?_, fun h => ?_⟩
    · rw [if_neg (by omega)]
      exact ⟨hun, rfl⟩
    · rw [if_pos (by omega)]
      exact ⟨rfl, rfl⟩

/-! ## Plan following (R130) -/

theorem countsFor_iff_heardOn (p : Plan) (e : Entry) : countsFor p e = heardOn p (some e) := by
  cases hs : e.state <;> cases hb : e.last <;> simp [countsFor, heardOn, hs, hb]

theorem planCount_eq (s : State) (p : Plan) : planCount s p = heardCount s.nt p := by
  have counts (f : Place → Option Entry) (ps : List Place) :
      (ps.filterMap f).countP (countsFor p) = ps.countP fun q => heardOn p (f q) := by
    induction ps with
    | nil => rfl
    | cons q ps ih =>
      rw [List.countP_cons, ← ih]
      cases hq : f q with
      | none => rw [List.filterMap_cons_none hq]; rfl
      | some e => rw [List.filterMap_cons_some hq, List.countP_cons, countsFor_iff_heardOn]
  exact counts (fun q => s.nt.places[q]) places

/-- R130: `p` has the highest count of the list, the lowest-numbered among equals. -/
def Leads (count : Plan → Nat) (p : Plan) (ps : List Plan) : Prop :=
  p ∈ ps ∧ ∀ q ∈ ps, count q < count p ∨ (count q = count p ∧ p ≤ q)

/-- One comparison of plan following. -/
def betterPlan (count : Plan → Nat) (best : Option Plan) (p : Plan) : Option Plan :=
  match best with
  | none => some p
  | some q => if count q < count p then some p else best

theorem foldl_betterPlan {count : Plan → Nat} : ∀ {ps : List Plan} {b : Plan}, (b :: ps).Pairwise (· < ·) →
    ∃ p, ps.foldl (betterPlan count) (some b) = some p ∧ Leads count p (b :: ps)
  | [], b, _ => ⟨b, rfl, by simp, by simp⟩
  | x :: ps, b, hord => by
    obtain ⟨hb, hrest⟩ := List.pairwise_cons.mp hord
    have hbx : b < x := hb x (by simp)
    by_cases h : count b < count x
    · obtain ⟨p, hp, hmem, hlead⟩ := foldl_betterPlan (count := count) hrest
      refine ⟨p, ?_, List.mem_cons_of_mem b hmem, ?_⟩
      · rw [List.foldl_cons, show betterPlan count (some b) x = some x from if_pos h, hp]
      · rintro q (_ | ⟨_, hq⟩)
        · rcases hlead x (by simp) with hx | ⟨hx, -⟩
          · exact .inl (h.trans hx)
          · exact .inl (hx ▸ h)
        · exact hlead q hq
    · have hskip : (b :: ps).Pairwise (· < ·) :=
        List.pairwise_cons.mpr ⟨fun q hq => hb q (List.mem_cons_of_mem x hq), (List.pairwise_cons.mp hrest).2⟩
      obtain ⟨p, hp, hmem, hlead⟩ := foldl_betterPlan (count := count) hskip
      refine ⟨p, ?_, ?_, ?_⟩
      · rw [List.foldl_cons, show betterPlan count (some b) x = some b from if_neg h, hp]
      · rcases List.mem_cons.mp hmem with rfl | hmem
        · simp
        · simp [hmem]
      · have hself := hlead b (by simp)
        rintro q (_ | ⟨_, hq⟩)
        · exact hself
        · rcases List.mem_cons.mp hq with rfl | hq
          · rcases hself with hb' | ⟨hb', hle⟩
            · exact .inl ((not_lt.mp h).trans_lt hb')
            · exact (hb' ▸ not_lt.mp h).lt_or_eq.imp_right fun he => ⟨he, hle.trans hbx.le⟩
          · exact hlead q (List.mem_cons_of_mem b hq)

theorem leadingPlan_leads (s : State) (a : Plan) :
    ∃ p, leadingPlan s a = some p ∧ Leads (heardCount s.nt) p ((List.finRange 4).filter (· ≠ a)) := by
  have hord : ((List.finRange 4).filter (· ≠ a)).Pairwise (· < ·) := (List.pairwise_lt_finRange 4).filter _
  have hstep : leadingPlan s a = ((List.finRange 4).filter (· ≠ a)).foldl (betterPlan (planCount s)) none := rfl
  rw [hstep, funext (planCount_eq s)]
  cases hl : (List.finRange 4).filter (· ≠ a) with
  | nil =>
    obtain ⟨q, hq⟩ : ∃ q : Plan, q ≠ a := (by decide : ∀ a : Plan, ∃ q : Plan, q ≠ a) a
    have : q ∈ (List.finRange 4).filter (· ≠ a) := by simp [hq]
    rw [hl] at this
    simp at this
  | cons b ps => exact foldl_betterPlan (hl ▸ hord)

/-- R130: the pending plan that following leaves. -/
theorem followPlan_pending {img : Image} {s : State} {a : Plan} (ha : s.ck.active = some a) :
    (∀ p, s.ck.planHold = 0 → PlanFollowed img s.nt a p → (followPlan img s).ck.pendingPlan = some p) ∧
    (0 < s.ck.planHold ∨ (∀ p, ¬PlanFollowed img s.nt a p) → (followPlan img s).ck.pendingPlan = s.ck.pendingPlan) := by
  obtain ⟨l, hl, hmem, hlead⟩ := leadingPlan_leads s a
  simp only [List.mem_filter, List.mem_finRange, true_and, ne_eq, decide_eq_true_eq] at hmem hlead
  have hfollow : followPlan img s =
      if s.ck.planHold = 0 ∧ img.quorum ≤ planCount s l ∧ planCount s a < planCount s l then
        s.withCk { s.ck with pendingPlan := some l } else s := by
    unfold followPlan
    simp only [ha, hl]
  rw [hfollow]
  simp only [planCount_eq]
  refine ⟨fun p hhold ⟨hne, hquorum, hmore, hbest⟩ => ?_, fun hnot => ?_⟩
  · obtain rfl : l = p := by
      rcases hlead p hne with h1 | ⟨h1, hle1⟩ <;> rcases hbest l hmem with h2 | ⟨h2, hle2⟩
      · omega
      · omega
      · omega
      · exact le_antisymm hle1 hle2
    rw [if_pos ⟨hhold, hquorum, hmore⟩]
    rfl
  · rw [if_neg]
    rintro ⟨hhold, hquorum, hmore⟩
    rcases hnot with hpos | hnone
    · omega
    · exact hnone l ⟨hmem, hquorum, hmore, hlead⟩

/-! ## The evaluation (O37) -/

theorem average_within {sum : Int} {w h : Nat} (hw : 0 < w) (hlow : -(h : Int) * w ≤ sum) (hhigh : sum ≤ ((h : Int) - 1) * w) :
    -(h : Int) ≤ average sum w ∧ average sum w ≤ (h : Int) - 1 := by
  have hw' : (0 : Int) < w := by exact_mod_cast hw
  rcases Nat.eq_zero_or_pos h with rfl | hpos
  · simp only [Nat.cast_zero, neg_zero, zero_mul, zero_sub, neg_mul, one_mul] at hlow hhigh
    omega
  · rcases lt_or_ge sum 0 with hneg | hnn
    · have := average_ge hw hlow hneg.le
      have := average_nonpos hneg.le w hw
      omega
    · have hcast : ((h - 1 : Nat) : Int) = (h : Int) - 1 := by omega
      have := average_le hw (hcast ▸ hhigh) hnn
      have := average_nonneg hnn w
      omega

/-- The clock when the advance of a discipline mark begins, plan following having read the table. -/
theorem clockAtAdvance_follows {s u : State} {img : Image} {a : Plan} (hu : ClockBegins s u) (ha : s.ck.active = some a)
    (hm : (s.tb.m + 1) % 1000 = 0) :
    (∀ p, s.ck.planHold = 0 → PlanFollowed img u.nt a p → (clockAtAdvance img u).pendingPlan = some p) ∧
    (0 < s.ck.planHold ∨ (∀ p, ¬PlanFollowed img u.nt a p) → (clockAtAdvance img u).pendingPlan = s.ck.pendingPlan) := by
  have hk := clockAtAdvance_keeps img u
  rw [markStage_of_mark img (hu.disciplineMark_iff.mpr hm)] at hk
  have hpending : (clockAtAdvance img u).pendingPlan = (followPlan img (synchronise img u)).ck.pendingPlan := by rw [hk]
  obtain ⟨hhold', -, hactive', hpend'⟩ := synchronise_counters img u
  have hnt : (synchronise img u).nt = u.nt := (synchronise_only img u).nt (by simp)
  have hact : (synchronise img u).ck.active = some a := by
    rw [hactive', hu.ck, ha]
  have hhold : (synchronise img u).ck.planHold = s.ck.planHold := by rw [hhold', hu.ck]
  have hpend : (synchronise img u).ck.pendingPlan = s.ck.pendingPlan := by rw [hpend', hu.ck]
  have h := followPlan_pending (img := img) hact
  rwa [hnt, hhold, hpend, ← hpending] at h

/-- The evaluation at a TICK, and the advance that pays from the balance just set. -/
theorem ckWork_evaluates {s u : State} {img : Image} {a : Plan} (hu : ClockBegins s u) (hi : s.cf.image = some img)
    (ha : s.ck.active = some a) (hcoord : coordinatedActive s = true) (hun : s.ck.unsync = false)
    (hm : (s.tb.m + 1) % 1000 = 0) :
    let k := discipline img (contributors (s.withNt u.nt)) (reference s) s.ck
    (ckWork u).ck.record = k.record ∧ ((ckWork u).ck.pendingPlan = some a →
      (ckWork u).ck.unsync = false ∧ Advanced (paid img k.b) k (ckWork u).ck) := by
  have hui : u.cf.image = some img := by rw [hu.cf, hi]
  have hua : u.ck.active = some a := by rw [hu.ck, ha]
  have hc : img.plans[a].cycle ≠ 0 := (coordinatedActive_iff hi ha).mp hcoord
  have hj : makesJumpIn u = false := by simp [makesJumpIn, hu.ck, hun]
  have hk := clockAtAdvance_of_mark img hu hm
  rw [synchronise_evaluates img (hu.coordinatedActive.trans hcoord) (by rw [hu.ck, hun]), hu.contributors, hu.reference,
    hu.ck] at hk
  obtain ⟨hpending, hrecord, -, -⟩ := ckWork_pending hui hua
  refine ⟨by rw [hrecord, hk], fun hp => ?_⟩
  have hwork := ckWork_advance_of_same hui hua hc hj (hpending.symm.trans hp)
  have hpay := payoutAtAdvance_of_mark hu hm img
  have hb : (clockAtAdvance img u).b = (discipline img (contributors (s.withNt u.nt)) (reference s) s.ck).b := by rw [hk]
  rw [hpay, hb] at hwork
  have hunsync : (clockAtAdvance img u).unsync = false := by
    rw [hk]
    exact (congrArg CkState.unsync (discipline_rest img _ _ _)).trans hun
  refine ⟨by rw [hwork]; exact hunsync, advance_advanced _ _ _ ?_ ?_ ?_⟩ <;> rw [hwork, hk] <;> rfl

/-- A free plan at a discipline mark: the mark is counted, and a pending plan adopted. -/
theorem ckWork_free_mark {s u : State} {img : Image} {a : Plan} (hu : ClockBegins s u) (hi : s.cf.image = some img)
    (ha : s.ck.active = some a) (hcoord : coordinatedActive s = false) (hm : (s.tb.m + 1) % 1000 = 0) :
    (ckWork u).ck.record = { s.ck.record with marks := min (s.ck.record.marks + 1) 255 } ∧
      ((ckWork u).ck.pendingPlan = some a → (ckWork u).ck.p = s.ck.p ∧ (ckWork u).ck.b = s.ck.b) ∧
      ∀ p, (ckWork u).ck.pendingPlan = some p → p ≠ a → (ckWork u).ck.active = some p := by
  have hui : u.cf.image = some img := by rw [hu.cf, hi]
  have hua : u.ck.active = some a := by rw [hu.ck, ha]
  have hfree : img.plans[a].cycle = 0 := by
    by_contra h
    simp [(coordinatedActive_iff hi ha).mpr h] at hcoord
  have hk := clockAtAdvance_of_mark img hu hm
  rw [synchronise_free img (hu.coordinatedActive.trans hcoord), hu.ck] at hk
  have hactive : (clockAtAdvance img u).active = some a := (markStage_active img u).trans hua
  have hsecond : secondMark u = true := hu.secondMark_iff.mpr (by omega)
  obtain ⟨hpending, hrecord, -, -⟩ := ckWork_pending hui hua
  rw [hpending, hrecord]
  refine ⟨by rw [hk]; rfl, fun hp => ?_, fun p hp hne => ?_⟩ <;> rw [ckWork_free hui hua hfree]
  · rw [if_neg fun h => ?_]
    · dsimp only
      rw [hk]
      exact ⟨rfl, rfl⟩
    · obtain ⟨q, hq, hne⟩ := (planPending_iff hactive).mp h.1
      exact hne (Option.some.inj (hq.symm.trans hp))
  · rw [if_pos ⟨(planPending_iff hactive).mpr ⟨p, hp, hne⟩, hsecond⟩]
    unfold adoptedClock
    rw [hp]
    rfl

/-- Settles O37: the evaluation is the arithmetic of R90 to R93, and the TICK at a discipline mark makes it once. -/
theorem evaluationReplacesTheBalance : Obligations.EvaluationReplacesTheBalance := by
  refine ⟨fun c e b hb => estimate_of_last c hb, fun img es r k => ⟨fun hw => if_pos hw, fun hw => if_neg (Nat.ne_of_gt hw)⟩,
    fun sum w hw => ⟨average_nearest sum hw, average_tie sum hw, fun h => average_nonneg h w, fun h => average_nonpos h w hw,
      fun h hlow hhigh => average_within hw hlow hhigh⟩, fun d r x s img a hi ha hpend hm => ?_⟩
  obtain ⟨u, t, hx, hu, ht⟩ := tick_clock d r x hpend
  have hui : u.cf.image = some img := by rw [hu.cf, hi]
  have hua : u.ck.active = some a := by rw [hu.ck, ha]
  have hpending := (ckWork_pending hui hua).1
  have hstays (hp : (ckWork u).ck.pendingPlan = some a) : (ckWork u).ck.active = some a :=
    ckWork_active hui hua (hpending.symm.trans hp)
  obtain ⟨hfollowed, hstood⟩ := clockAtAdvance_follows (img := img) hu ha hm
  refine ⟨t, u.nt, hx, hu.table, ?_⟩
  rw [ht]
  refine ⟨fun hcoord hun => ?_, fun hcoord => ?_, fun p hhold hf => hpending.trans (hfollowed p hhold hf),
    fun h => hpending.trans (hstood h)⟩
  · obtain ⟨hrecord, hadvanced⟩ := ckWork_evaluates hu hi ha hcoord hun hm
    exact ⟨hrecord, fun hp => ⟨hstays hp, hadvanced hp⟩⟩
  · obtain ⟨hrecord, hstands, hadopts⟩ := ckWork_free_mark hu hi ha hcoord hm
    exact ⟨hrecord, fun hp => ⟨hstays hp, hstands hp⟩, hadopts⟩

end Sys2Proof.Machine


/-!
# The Preemption Unit's commands at the Stage Sequencer (O24, O25)
-/

namespace Sys2Proof.Machine

/-! ## What the rules do to one group -/

/-- R44: the requests that a downgrade changes. -/
theorem downgradeLeave_eq (x : GroupState) : downgradeLeave x =
    if (x.phase = .green ∨ x.phase = .prep) ∧ x.leave = some .truncating then { x with leave := some .ordinary } else x := by
  unfold downgradeLeave
  split
  · next hp hl => rw [if_pos ⟨.inl hp, hl⟩]
  · next hp hl => rw [if_pos ⟨.inr hp, hl⟩]
  · next h1 h2 => exact (if_neg fun ⟨hp, hl⟩ => hp.elim (fun h => h1 h hl) fun h => h2 h hl).symm

theorem addLeave_truncating (x : GroupState) : addLeave .truncating x = { x with leave := some .truncating } := by
  unfold addLeave Leave.combine
  cases x.leave with
  | none => rfl
  | some k => cases k <;> rfl

theorem dropTruncation_dropped (s : State) (q : SqState) : TruncationDropped true s ((dropTruncation s).withSq q) := fun g => by
  have hg : ((dropTruncation s).withSq q).ge[g] = downgradeLeave s.ge[g] := mapGroups_ge (fun _ x => downgradeLeave x) s g
  rw [hg, downgradeLeave_eq]
  simp only [true_and]

/-- Settles O25: the release and the downgrade share the dropping of truncation. -/
theorem peCommandReleaseDropsTruncation : Obligations.PeCommandReleaseDropsTruncation := by
  intro downgrade s st truncating hcommand hwhich
  have hexec : exec (.peCommandRelease downgrade) s = .next (if downgrade
      then whenDue truncating ((dropTruncation s).withSq { (dropTruncation s).sq with command := some (st, false) }) s
      else dropCommand s) := by
    show execPeCommandRelease downgrade s = _
    unfold execPeCommandRelease
    rw [hcommand]
  have htruncates : commandTruncates s.sq = truncating := by rw [commandTruncates, hcommand]
  cases downgrade with
  | true =>
    obtain rfl : truncating = true := hwhich.resolve_left (by decide)
    exact ⟨_, hexec, (dropTruncation_only s).trans ((withSq_only _ _).mono (by simp)), dropTruncation_dropped s _, rfl⟩
  | false =>
    refine ⟨_, hexec, dropCommand_only s, ?_⟩
    cases truncating with
    | true =>
      have hdrop : dropCommand s = (dropTruncation s).withSq { (dropTruncation s).sq with command := none } := by
        unfold dropCommand
        rw [htruncates]
        rfl
      simp only [Bool.false_eq_true, if_false, hdrop]
      exact ⟨dropTruncation_dropped s _, rfl⟩
    | false =>
      have hdrop : dropCommand s = s.withSq { s.sq with command := none } := by
        unfold dropCommand
        rw [htruncates]
        rfl
      simp only [Bool.false_eq_true, if_false, hdrop]
      exact ⟨fun g => by simp, rfl⟩

/-! ## The command stored -/

/-- R43: what every row of the command leaves of the sequencer, but for the change in flight. -/
def CommandStored (target : Stage) (truncating : Bool) (q q' : SqState) : Prop :=
  q'.command = some (target, truncating) ∧ q'.forceOff = false ∧ q'.maxRunning = false ∧ q'.maxTimer = 0 ∧
    q'.holdRunning = false ∧ q'.hold = 0 ∧ q'.calls = q.calls ∧ q'.current = q.current ∧ q'.passage = q.passage

theorem storeCommand_sq (t : Stage) (truncating : Bool) (s : State) : (storeCommand t truncating s).sq =
    { endHold (stopMax s.sq) with
      command := some (t, truncating), forceOff := false,
      changeTruncating := (storeCommand t truncating s).sq.changeTruncating } := by
  unfold storeCommand
  dsimp only
  split <;> rfl

theorem storeCommand_ge {truncating : Bool} {s : State} (t : Stage) (h : commandTruncates s.sq = false ∨ truncating = true) :
    (storeCommand t truncating s).ge = s.ge := by
  unfold storeCommand
  dsimp only
  rw [if_neg (by rcases h with h | h <;> simp [h])]
  rfl

theorem storeCommand_stored (t : Stage) (truncating : Bool) (s : State) :
    CommandStored t truncating s.sq (storeCommand t truncating s).sq := by
  rw [storeCommand_sq]
  exact ⟨rfl, rfl, rfl, rfl, rfl, rfl, rfl, rfl, rfl⟩

theorem noneHasLeftRed_iff (s : State) : noneHasLeftRed s = true ↔
    ∀ g : Group, s.sq.entering[g] = true → s.ge[g].phase = .red ∨ s.ge[g].phase = .clearance := by
  simp only [noneHasLeftRed, List.all_eq_true, List.mem_finRange, true_implies, Bool.or_eq_true, Bool.not_eq_true', beq_iff_eq]
  refine forall_congr' fun g => ?_
  cases s.sq.entering[g] <;> simp

/-! ## The rows of the command (R43) -/

/-- A change started from a state that differs in the sequencer alone, its calls and its halt request being the same. -/
theorem ChangeStarted.of_before {cause : TermCause} {truncating : Bool} {u : Stage} {s v t : State}
    (h : ChangeStarted cause truncating u v t) (hge : v.ge = s.ge) (hcf : v.cf = s.cf) (hmode : v.os.mode = s.os.mode)
    (hcalls : v.sq.calls = s.sq.calls) (hhalt : v.sq.haltRequest = s.sq.haltRequest) : ChangeStarted cause truncating u s t := by
  unfold ChangeStarted leaveGiven inStage at *
  rwa [hge, hcf, hmode, hcalls, hhalt] at h

/-- Storing a command leaves the change in flight as it is. -/
theorem storeCommand_state (t : Stage) (truncating : Bool) (s : State) :
    (storeCommand t truncating s).sq.phase = s.sq.phase ∧ (storeCommand t truncating s).sq.target = s.sq.target ∧
      (storeCommand t truncating s).sq.current = s.sq.current ∧ (storeCommand t truncating s).sq.entering = s.sq.entering ∧
      (storeCommand t truncating s).sq.lastCause = s.sq.lastCause ∧
      (storeCommand t truncating s).sq.haltRequest = s.sq.haltRequest := by
  rw [storeCommand_sq]
  exact ⟨rfl, rfl, rfl, rfl, rfl, rfl⟩

/-- The command's row for a COMPLETE stage. -/
theorem takeCommand_complete {s : State} (t : Stage) (truncating : Bool) (hm : s.os.mode = .run) (hh : s.sq.haltRequest = false)
    (hp : s.sq.phase = .complete) : takeCommand t truncating s = if s.sq.current = some t
      then (storeCommand t truncating s).withSq { (storeCommand t truncating s).sq with latch := none }
      else startChange .preempt truncating t (storeCommand t truncating s) := by
  obtain ⟨hphase, -, hcurrent, -, -, -⟩ := storeCommand_state t truncating s
  unfold takeCommand
  rw [if_neg (by simp [hm, hh])]
  simp only [hphase, hp]
  rw [hcurrent]

/-- The command's rows for a change in flight. -/
theorem takeCommand_changing {s : State} {u : Stage} (t : Stage) (truncating : Bool) (hm : s.os.mode = .run)
    (hh : s.sq.haltRequest = false) (hp : s.sq.phase = .changing) (hu : s.sq.target = some u) :
    takeCommand t truncating s =
      if u = t then (if truncating then upgradeLeaves (storeCommand t truncating s) u else storeCommand t truncating s)
      else if noneHasLeftRed (storeCommand t truncating s) then replaceTarget truncating t (storeCommand t truncating s)
      else if truncating then upgradeLeaves (storeCommand t truncating s) u else storeCommand t truncating s := by
  obtain ⟨hphase, htarget, -, -, -, -⟩ := storeCommand_state t truncating s
  unfold takeCommand
  rw [if_neg (by simp [hm, hh])]
  simp only [hphase, htarget, hp, hu]

theorem takeCommand_idle {s : State} (t : Stage) (truncating : Bool) (hm : s.os.mode = .run)
    (hh : s.sq.haltRequest = false) (hp : s.sq.phase = .changing) (hu : s.sq.target = none) :
    takeCommand t truncating s = storeCommand t truncating s := by
  obtain ⟨hphase, htarget, -, -, -, -⟩ := storeCommand_state t truncating s
  unfold takeCommand
  rw [if_neg (by simp [hm, hh])]
  simp only [hphase, htarget, hp, hu]

/-- Every row stores the command. -/
theorem takeCommand_stored {s : State} (t : Stage) (truncating : Bool) (hm : s.os.mode = .run) (hh : s.sq.haltRequest = false) :
    CommandStored t truncating s.sq (takeCommand t truncating s).sq := by
  have hstored := storeCommand_stored t truncating s
  cases hp : s.sq.phase with
  | complete =>
    rw [takeCommand_complete t truncating hm hh hp]
    split
    · exact hstored
    · obtain ⟨hcommand, -, -, -, -, -, hcalls, hcurrent, hpassage⟩ := hstored
      exact ⟨hcommand, rfl, rfl, rfl, rfl, rfl, hcalls, hcurrent, hpassage⟩
  | changing =>
    cases hu : s.sq.target with
    | none => rwa [takeCommand_idle t truncating hm hh hp hu]
    | some u =>
      rw [takeCommand_changing t truncating hm hh hp hu]
      split
      · split <;> exact hstored
      · split
        · obtain ⟨hcommand, -, hmax, hmaxTimer, hhold, hholdTimer, hcalls, hcurrent, hpassage⟩ := hstored
          exact ⟨hcommand, rfl, hmax, hmaxTimer, hhold, hholdTimer, hcalls, hcurrent, hpassage⟩
        · split <;> exact hstored

/-- R43: a truncating command while the change keeps its target. -/
theorem upgradeLeaves_ge (s : State) (u : Stage) (g : Group) : (upgradeLeaves s u).ge[g] =
    if inStage s u g = false ∧ (s.ge[g].phase = .green ∨ s.ge[g].phase = .prep) then { s.ge[g] with leave := some .truncating }
    else s.ge[g] := by
  have hg : (upgradeLeaves s u).ge[g] = if !inStage s u g && (s.ge[g].phase == .prep || s.ge[g].phase == .green)
      then addLeave .truncating s.ge[g] else s.ge[g] :=
    mapGroups_ge (fun g x => if !inStage s u g && (x.phase == .prep || x.phase == .green) then addLeave .truncating x else x) s g
  rw [hg, addLeave_truncating]
  refine if_congr ?_ rfl rfl
  simp only [Bool.and_eq_true, Bool.not_eq_true', Bool.or_eq_true, beq_iff_eq, or_comm]

/-- R41: what a redirect does to one group. -/
theorem replaceTarget_ge {s : State} (truncating : Bool) (t : Stage) (hm : s.os.mode = .run) (g : Group) :
    (replaceTarget truncating t s).ge[g].phase = s.ge[g].phase ∧
    (inStage s t g = true → s.ge[g].phase ≠ .green → (replaceTarget truncating t s).ge[g].entry = true) ∧
    (inStage s t g = true → s.ge[g].phase = .green ∨ s.ge[g].phase = .prep →
      (replaceTarget truncating t s).ge[g].leave = none) ∧
    (inStage s t g = false → (replaceTarget truncating t s).ge[g].entry = false) ∧
    (inStage s t g = false → s.ge[g].phase = .green → (replaceTarget truncating t s).ge[g].leave.isSome = true) := by
  have hg : (replaceTarget truncating t s).ge[g] =
      redirectRequest s t (changeKind (isTruncating .preempt truncating (enteringGroups s t))) g s.ge[g] :=
    mapGroups_ge (redirectRequest s t (changeKind (isTruncating .preempt truncating (enteringGroups s t)))) s g
  rw [hg]
  refine ⟨redirectRequest_phase .., ?_⟩
  unfold redirectRequest
  cases hin : inStage s t g with
  | true =>
    rw [if_pos rfl]
    refine ⟨fun _ hne => ?_, fun _ hp => ?_, (nomatch ·), (nomatch ·)⟩
    · rw [if_neg hne, addEntry, if_pos hm]
    · have hleave : (withdrawLeave s.ge[g]).leave = none := by
        unfold withdrawLeave
        rcases hp with hp | hp <;> rw [hp]
      split
      · exact hleave
      · rw [addEntry, if_pos hm]
        exact hleave
  | false =>
    rw [if_neg (by decide)]
    refine ⟨(nomatch ·), (nomatch ·), fun _ => ?_, fun _ hp => ?_⟩
    · split
      · rw [addLeaveIfNone_entry, withdrawEntry]
      · rw [withdrawEntry]
    · rw [if_pos hp]
      exact addLeaveIfNone_isSome _ _

/-- R43: the target of the change in flight stands, and a truncating command makes its requests truncating. -/
theorem takeCommand_keeps {s : State} {u : Stage} (t : Stage) (truncating : Bool) (hm : s.os.mode = .run)
    (hh : s.sq.haltRequest = false) (hp : s.sq.phase = .changing) (hu : s.sq.target = some u)
    (hkeep : u = t ∨ ¬∀ g : Group, s.sq.entering[g] = true → s.ge[g].phase = .red ∨ s.ge[g].phase = .clearance) :
    takeCommand t truncating s =
      if truncating then upgradeLeaves (storeCommand t truncating s) u else storeCommand t truncating s := by
  obtain ⟨-, -, -, hentering, -, -⟩ := storeCommand_state t truncating s
  rw [takeCommand_changing t truncating hm hh hp hu]
  split
  · rfl
  · next hne =>
    rw [if_neg]
    rw [noneHasLeftRed_iff, hentering]
    refine fun h => hkeep.resolve_left hne fun g hg => ?_
    rw [← ((storeCommand_motion t truncating s).get g).1]
    exact h g hg

@[simp] theorem readGreens_sq (s : State) : (readGreens s).sq = s.sq := rfl
@[simp] theorem readGreens_ge (s : State) : (readGreens s).ge = s.ge := rfl

theorem ChangeStarted.greensRead {cause : TermCause} {truncating : Bool} {u : Stage} {s t : State}
    (h : ChangeStarted cause truncating u s t) : ChangeStarted cause truncating u s (readGreens t) := h

theorem storeCommand_mode (t : Stage) (truncating : Bool) (s : State) : (storeCommand t truncating s).os.mode = s.os.mode := by
  rw [(storeCommand_only t truncating s).os (by simp)]

theorem storeCommand_inStage (t : Stage) (truncating : Bool) (s : State) (u : Stage) (g : Group) :
    inStage (storeCommand t truncating s) u g = inStage s u g := by
  unfold inStage
  rw [(storeCommand_only t truncating s).cf (by simp)]

/-- Settles O24: the command is stored, and the state of the change in flight picks its row. -/
theorem peCommandActsByTheSequencersState : Obligations.PeCommandActsByTheSequencersState := by
  intro target truncating s
  refine ⟨fun h => ?_, fun hm hh => ?_⟩
  · refine congrArg Host.Outcome.next (whenDue_false ?_ _ _)
    rcases h with h | h <;> simp [h]
  have hexec : exec (.peCommand target truncating) s = .next (readGreens (takeCommand target truncating s)) :=
    congrArg Host.Outcome.next (whenDue_true (by simp [hm, hh]) _ _)
  obtain ⟨hcommand, hforce, hmax, hmaxTimer, hhold, hholdTimer, hcalls, hcurrent, hpassage⟩ :=
    takeCommand_stored target truncating hm hh
  obtain ⟨hphase, htarget, -, hentering, hcause, hhalt⟩ := storeCommand_state target truncating s
  refine ⟨_, hexec, readGreens_after (takeCommand_only target truncating s),
    readGreens_reread ((takeCommand_only target truncating s).pl (by simp)), hcommand, hforce, hmax, hmaxTimer, hhold, hholdTimer,
    hcalls, hcurrent, hpassage, ?_⟩
  simp only [readGreens_sq, readGreens_ge]
  refine ⟨fun hp hc => ?_, fun hp hc => ?_, fun u hp hu hkeep => ?_, fun u hp hu hne hred => ?_⟩
  · have htake : takeCommand target truncating s = (storeCommand target truncating s).withSq
        { (storeCommand target truncating s).sq with latch := none } := by
      rw [takeCommand_complete target truncating hm hh hp, if_pos hc]
    rw [htake]
    exact ⟨hphase.trans hp, rfl, hcause, fun h => storeCommand_ge target h⟩
  · have htake : takeCommand target truncating s = startChange .preempt truncating target (storeCommand target truncating s) := by
      rw [takeCommand_complete target truncating hm hh hp, if_neg hc]
    rw [htake]
    refine ⟨rfl, rfl, rfl, rfl, fun h => ?_⟩
    obtain ⟨-, -, -, -, -, -, hstored, -, -⟩ := storeCommand_stored target truncating s
    exact ((startChange_started .preempt truncating target (storeCommand target truncating s)).of_before
      (storeCommand_ge target h) ((storeCommand_only target truncating s).cf (by simp)) (storeCommand_mode target truncating s)
      hstored hhalt).greensRead
  · rw [takeCommand_keeps target truncating hm hh hp hu hkeep]
    have hstays (v : State) (hv : v.sq = (storeCommand target truncating s).sq) :
        v.sq.phase = .changing ∧ v.sq.target = some u ∧ v.sq.lastCause = s.sq.lastCause := by
      rw [hv]
      exact ⟨hphase.trans hp, htarget.trans hu, hcause⟩
    cases truncating with
    | true =>
      obtain ⟨h1, h2, h3⟩ := hstays (upgradeLeaves (storeCommand target true s) u) rfl
      refine ⟨h1, h2, h3, fun _ g => ?_, (nomatch ·)⟩
      have hge := upgradeLeaves_ge (storeCommand target true s) u g
      rw [storeCommand_inStage, storeCommand_ge target (.inr rfl)] at hge
      exact hge
    | false =>
      obtain ⟨h1, h2, h3⟩ := hstays (storeCommand target false s) rfl
      exact ⟨h1, h2, h3, (nomatch ·), fun _ h => storeCommand_ge target (.inl h)⟩
  · have hnone : noneHasLeftRed (storeCommand target truncating s) = true := by
      rw [noneHasLeftRed_iff, hentering]
      intro g hg
      rw [((storeCommand_motion target truncating s).get g).1]
      exact hred g hg
    have htake : takeCommand target truncating s = replaceTarget truncating target (storeCommand target truncating s) := by
      rw [takeCommand_changing target truncating hm hh hp hu, if_neg hne, if_pos hnone]
    rw [htake]
    refine ⟨hphase.trans hp, rfl, rfl, fun g => ?_⟩
    · have hge := replaceTarget_ge truncating target ((storeCommand_mode target truncating s).trans hm) g
      rw [storeCommand_inStage, ((storeCommand_motion target truncating s).get g).1] at hge
      exact hge

end Sys2Proof.Machine


/-!
# The evaluation of a settled stage: latch and next stage (O21)
-/

namespace Sys2Proof.Machine

/-! ## The termination latch (R30 to R33) -/

/-- R33. -/
def ForceStands (s : State) (st : Stage) : Prop :=
  s.sq.forceOff = true ∧ coordinatedStage s ≠ some st ∧ MinGreensRun s st

/-- R32. -/
def MaxStands (s : State) (st : Stage) : Prop := s.sq.maxRunning = true ∧ maxGreenTime s st ≤ s.sq.maxTimer

/-- R31. -/
def GapStands (s : State) (st : Stage) : Prop := coordinatedStage s ≠ some st ∧ s.sq.passage = 0 ∧ MinGreensRun s st

theorem forceCondition_iff (s : State) (st : Stage) : forceCondition s st = true ↔ ForceStands s st := by
  simp [forceCondition, ForceStands, minGreensDone_iff, and_assoc]

theorem maxCondition_iff (s : State) (st : Stage) : maxCondition s st = true ↔ MaxStands s st := by
  simp [maxCondition, MaxStands]

theorem gapCondition_iff (s : State) (st : Stage) : gapCondition s st = true ↔ GapStands s st := by
  simp [gapCondition, GapStands, minGreensDone_iff, and_assoc]

section Latch
variable {s : State} {st : Stage}

theorem nextLatch_force (hl : s.sq.latch = none ∨ s.sq.latch = some .gap) (hf : ForceStands s st) :
    nextLatch s st = some .force := by
  rw [nextLatch, (forceCondition_iff s st).mpr hf]
  rcases hl with hl | hl <;> simp [hl]

theorem nextLatch_max (hl : s.sq.latch = none ∨ s.sq.latch = some .gap) (hf : ¬ForceStands s st) (hm : MaxStands s st) :
    nextLatch s st = some .max := by
  rw [nextLatch, Bool.eq_false_iff.mpr (mt (forceCondition_iff s st).mp hf), (maxCondition_iff s st).mpr hm]
  rcases hl with hl | hl <;> simp [hl]

theorem nextLatch_gap (hl : s.sq.latch = none) (hf : ¬ForceStands s st) (hm : ¬MaxStands s st) (hg : GapStands s st) :
    nextLatch s st = some .gap := by
  rw [nextLatch, Bool.eq_false_iff.mpr (mt (forceCondition_iff s st).mp hf),
    Bool.eq_false_iff.mpr (mt (maxCondition_iff s st).mp hm), (gapCondition_iff s st).mpr hg]
  simp [hl]

/-- With no condition to take, the latch stands. -/
theorem nextLatch_stands (h : s.sq.latch = none ∨ s.sq.latch = some .gap → ¬ForceStands s st ∧ ¬MaxStands s st)
    (hg : s.sq.latch = none → ¬GapStands s st) : nextLatch s st = s.sq.latch := by
  unfold nextLatch
  by_cases hopen : s.sq.latch = none ∨ s.sq.latch = some .gap
  · obtain ⟨hf, hm⟩ := h hopen
    rw [Bool.eq_false_iff.mpr (mt (forceCondition_iff s st).mp hf), Bool.eq_false_iff.mpr (mt (maxCondition_iff s st).mp hm)]
    rcases hopen with hl | hl
    · rw [Bool.eq_false_iff.mpr (mt (gapCondition_iff s st).mp (hg hl))]
      simp
    · simp [hl]
  · obtain ⟨hnone, hgap⟩ := not_or.mp hopen
    simp [hnone, hgap]

end Latch

/-! ## Next-stage selection (R36) -/

theorem stage_after (st v : Stage) (h : v ≠ st) : ∃ j : Fin 7, v = st + 1 + ⟨j.val, by omega⟩ ∧ (v - st).val = j.val + 1 := by
  revert st v
  decide

theorem stage_offset (st : Stage) (j : Fin 7) : st + 1 + ⟨j.val, by omega⟩ ≠ st ∧
    (st + 1 + ⟨j.val, by omega⟩ - st : Stage).val = j.val + 1 := by
  revert st j
  decide

theorem followers_get (st : Stage) (i : Nat) (h : i < (followers st).length) (h7 : i < 7) :
    (followers st)[i]'h = st + 1 + ⟨i, by omega⟩ := by
  simp [followers]

theorem followers_length (st : Stage) : (followers st).length = 7 := by simp [followers]

theorem mem_followers (st u : Stage) : u ∈ followers st ↔ u ≠ st := by
  simp only [followers, List.mem_map, List.mem_finRange, true_and]
  constructor
  · rintro ⟨j, rfl⟩
    exact (stage_offset st j).1
  · intro h
    obtain ⟨j, hj, -⟩ := stage_after st u h
    exact ⟨j, hj.symm⟩

/-- The first follower that passes is the one fewest places on. -/
theorem find?_followers (st u : Stage) (p : Stage → Bool) : (followers st).find? p = some u ↔
    u ≠ st ∧ p u = true ∧ ∀ v : Stage, v ≠ st → (v - st).val < (u - st).val → p v = false := by
  rw [List.find?_eq_some_iff_getElem]
  constructor
  · rintro ⟨hu, i, hi, rfl, hbefore⟩
    have hi7 : i < 7 := followers_length st ▸ hi
    rw [followers_get st i hi hi7] at hu ⊢
    obtain ⟨hne, hoff⟩ := stage_offset st ⟨i, hi7⟩
    refine ⟨hne, hu, fun v hv hlt => ?_⟩
    obtain ⟨j, rfl, hj⟩ := stage_after st v hv
    have hji : j.val < i := by
      rw [hj] at hlt
      exact Nat.lt_of_succ_lt_succ (hlt.trans_eq hoff)
    have hfirst := hbefore j.val hji
    rw [followers_get st j.val (by omega) j.isLt] at hfirst
    simpa using hfirst
  · rintro ⟨hne, hu, hbefore⟩
    obtain ⟨i, rfl, hi⟩ := stage_after st u hne
    refine ⟨hu, i.val, by rw [followers_length]; exact i.isLt, followers_get st i.val _ i.isLt, fun j hj => ?_⟩
    have hj7 : j < 7 := by omega
    rw [followers_get st j (by rw [followers_length]; exact hj7) hj7]
    obtain ⟨hjne, hjoff⟩ := stage_offset st ⟨j, hj7⟩
    rw [hbefore _ hjne (by rw [hi, hjoff]; exact Nat.succ_lt_succ hj)]
    rfl

theorem selectNext_of_current {s : State} {st : Stage} (hc : s.sq.current = some st) :
    selectNext s = (followers st).find? (candidatePasses s) := by
  simp only [selectNext, hc]

theorem candidatePasses_iff {s : State} {img : Image} (hi : s.cf.image = some img) (u : Stage) :
    candidatePasses s u = true ↔ img.stages[u].enabled = true ∧ StageHasDemand img s u ∧
      (coordinatedActive s = false ∨ coordinatedStage s = some u ∨ s.ck.report.permissive[u] = true) := by
  simp only [candidatePasses, hi, Bool.and_eq_true, Bool.or_eq_true, Bool.not_eq_true', beq_iff_eq, stageDemand_iff hi, or_assoc,
    and_assoc]

theorem coordinatedStage_iff (s : State) (u : Stage) :
    coordinatedStage s = some u ↔ ∃ r, activePlan s = some r ∧ r.cycle ≠ 0 ∧ r.coordinated = some u := by
  unfold coordinatedStage
  cases activePlan s with
  | none => simp
  | some r =>
    by_cases hc : r.cycle = 0
    · simp [isCoordinated_eq_false.mpr hc, hc]
    · simp [(isCoordinated_iff r).mpr hc, hc]

/-! ## What the sequencer reads of a state that differs in its own timers -/

section SameReading
variable {s : State} {q : SqState}

theorem stageDemand_withSq (hcalls : q.calls = s.sq.calls) (st : Stage) : stageDemand (s.withSq q) st = stageDemand s st := by
  unfold stageDemand groupDemand
  rw [State.withSq_sq, hcalls]
  rfl

theorem otherDemand_withSq (hcalls : q.calls = s.sq.calls) (st : Stage) : otherDemand (s.withSq q) st = otherDemand s st := by
  unfold otherDemand
  simp only [stageDemand_withSq hcalls]

theorem candidatePasses_withSq (hcalls : q.calls = s.sq.calls) (st : Stage) :
    candidatePasses (s.withSq q) st = candidatePasses s st := by
  unfold candidatePasses
  rw [stageDemand_withSq hcalls]
  rfl

theorem selectNext_withSq (hcalls : q.calls = s.sq.calls) (hc : q.current = s.sq.current) :
    selectNext (s.withSq q) = selectNext s := by
  unfold selectNext
  rw [State.withSq_sq, hc, funext (candidatePasses_withSq hcalls)]

end SameReading

/-! ## The steps of a settled evaluation -/

/-- R24 (1): the timers counted. -/
def countedSq (s : State) (st : Stage) : SqState :=
  let counts := tenthMark s = true ∧ s.sq.passageRunning = true
  { s.sq with
    passage := if counts then (if extensionActive s st = true then passageTime s st else s.sq.passage - 1) else s.sq.passage,
    latch := if counts ∧ extensionActive s st = true ∧ s.sq.latch = some .gap ∧ 0 < passageTime s st then none else s.sq.latch,
    maxTimer := if tenthMark s = true ∧ s.sq.maxRunning = true then min (s.sq.maxTimer + 1) 1800 else s.sq.maxTimer,
    hold := if tenthMark s = true ∧ s.sq.holdRunning = true then min (s.sq.hold + 1) 300 else s.sq.hold }

/-- R29, R33: the force-off point read, and the max timer started or stopped. -/
def armedSq (s : State) (st : Stage) (q : SqState) : SqState :=
  { q with
    forceOff := q.forceOff || crossedForceOff s st,
    maxRunning := !decide (coordinatedStage s = some st) && (q.maxRunning || otherDemand s st),
    maxTimer := if coordinatedStage s = some st then 0 else if q.maxRunning = false ∧ otherDemand s st = true then 0
      else q.maxTimer }

/-- R35: a hold extension starts. -/
def holdStarts (s : State) (st : Stage) : Bool :=
  s.sq.yieldWasOpen && !s.ck.report.yieldOpen && decide (coordinatedStage s = some st) && platoonHold s && 0 < holdCapTime s

theorem holdStarts_iff (s : State) (st : Stage) : holdStarts s st = true ↔ s.sq.yieldWasOpen = true ∧
    s.ck.report.yieldOpen = false ∧ coordinatedStage s = some st ∧ PlatoonHolds s ∧ 0 < holdCapTime s := by
  simp only [holdStarts, Bool.and_eq_true, Bool.not_eq_true', decide_eq_true_eq, platoonHold_iff, and_assoc]

/-- R35: the hold extension after its start is tested. -/
def heldSq (s : State) (st : Stage) (q : SqState) : SqState :=
  if holdStarts s st then { q with hold := 0, holdRunning := true } else q

/-- R24 (1) to (4), but for YIELD: the sequencer of a settled stage when selection begins. -/
def settledSq (s : State) (st : Stage) : SqState :=
  let q := heldSq s st (armedSq s st (countedSq s st))
  { q with latch := nextLatch (s.withSq q) st }

/-- The sequencer state is that of a settled stage, whatever its timers. -/
def SettledSq (s : State) (st : Stage) (q : SqState) : Prop :=
  q.current = some st ∧ q.phase = .complete ∧ q.target = none ∧ q.command = none ∧ q.haltRequest = false ∧ q.arrivals = [] ∧
    q.calls = s.sq.calls ∧ q.yieldWasOpen = s.sq.yieldWasOpen

theorem countSqTimers_settled {s : State} {st : Stage} (hc : s.sq.current = some st) (hp : s.sq.phase = .complete) :
    countSqTimers s = s.withSq (countedSq s st) := by
  unfold countSqTimers countedSq
  cases ht : tenthMark s
  · simp only [Bool.false_eq_true, if_false, false_and]
    rfl
  · simp only [if_true, hp, hc, true_and]
    cases hr : s.sq.passageRunning
    · simp [countRunning, satInc, hc, hp, hr]
    · cases he : extensionActive s st <;> simp [countRunning, countPassage, satInc, he, hc, hp, hr]

theorem latchForceOff_settled {s : State} {st : Stage} {q : SqState} (h : SettledSq s st q) :
    latchForceOff (s.withSq q) = s.withSq { q with forceOff := q.forceOff || crossedForceOff s st } := by
  obtain ⟨hc, hp, ht, hcommand, hhalt, -, -, -⟩ := h
  have hcross : crossedForceOff (s.withSq q) st = crossedForceOff s st := rfl
  cases q
  dsimp only at hc hp ht hcommand hhalt
  subst hc hp ht hcommand hhalt
  unfold latchForceOff
  simp only [State.withSq_sq, hcross]
  cases crossedForceOff s st <;> simp

theorem startMax_settled {s : State} {st : Stage} {q : SqState} (h : SettledSq s st q) :
    startMax (s.withSq q) = s.withSq { q with
      maxRunning := !decide (coordinatedStage s = some st) && (q.maxRunning || otherDemand s st),
      maxTimer := if coordinatedStage s = some st then 0 else if q.maxRunning = false ∧ otherDemand s st = true then 0
        else q.maxTimer } := by
  obtain ⟨hc, hp, -, hcommand, hhalt, -, hcalls, -⟩ := h
  have hcoord : coordinatedStage (s.withSq q) = coordinatedStage s := rfl
  have hdemand := otherDemand_withSq hcalls st
  cases q with
  | mk current _ phase _ _ _ _ _ running =>
    dsimp only at hc hp hcommand hhalt
    subst hc hp hcommand hhalt
    unfold startMax
    simp only [State.withSq_sq, hcoord, hdemand]
    by_cases hco : coordinatedStage s = some st
    · simp [hco, stopMax, testsTermination]
    · cases hd : otherDemand s st <;> cases running <;> simp [hco, testsTermination]

theorem armed_eq {s : State} {st : Stage} {q : SqState} (h : SettledSq s st q) :
    startMax (latchForceOff (s.withSq q)) = s.withSq (armedSq s st q) := by
  rw [latchForceOff_settled h]
  exact startMax_settled (q := { q with forceOff := q.forceOff || crossedForceOff s st }) h

theorem held_eq {s : State} {st : Stage} {q : SqState} (h : SettledSq s st q) :
    startHold (s.withSq q) = s.withSq (heldSq s st q) := by
  obtain ⟨hc, hp, -, hcommand, hhalt, -, -, hopen⟩ := h
  have hat : atCoordinated (s.withSq q) = decide (coordinatedStage s = some st) := by
    have hcoord : coordinatedStage (s.withSq q) = coordinatedStage s := rfl
    rw [atCoordinated, hcoord, State.withSq_sq, hc]
    simp [testsTermination, hp, hcommand, hhalt, Bool.beq_eq_decide_eq]
  have hplatoon : platoonHold (s.withSq q) = platoonHold s := rfl
  have hcap : holdCapTime (s.withSq q) = holdCapTime s := rfl
  unfold startHold heldSq
  rw [hat, hplatoon, hcap, State.withSq_sq, State.withSq_ck]
  unfold holdStarts
  rw [← hopen]
  split <;> rfl

/-! ## The outcome of a settled evaluation -/

theorem countedSq_settled {s : State} {st : Stage} (h : Settled s st) : SettledSq s st (countedSq s st) := by
  obtain ⟨hc, hp, ht, hcommand, hhalt, harrivals⟩ := h
  exact ⟨hc, hp, ht, hcommand, hhalt, harrivals, rfl, rfl⟩

theorem SettledSq.held {s : State} {st : Stage} {q : SqState} (h : SettledSq s st q) : SettledSq s st (heldSq s st q) := by
  unfold heldSq
  split <;> exact h

theorem settledSq_settled {s : State} {st : Stage} (h : Settled s st) : SettledSq s st (settledSq s st) :=
  SettledSq.held (q := armedSq s st (countedSq s st)) (countedSq_settled h)

/-- R135: the evaluation ended, PL having read it. -/
def evaluated (s v : State) : State := readGreens (v.withSq { v.sq with yieldWasOpen := s.ck.report.yieldOpen })

/-- R35: the last tenth of the hold extension. -/
def lastTenth (s : State) (q : SqState) : Bool := tenthMark s && q.holdRunning && holdCapTime s ≤ q.hold

/-- R34, R35: YIELD may be taken. -/
def MayYield (s : State) (st : Stage) (q : SqState) : Prop :=
  coordinatedStage s = some st ∧ q.latch = none ∧ (s.ck.report.yieldOpen = true ∨ q.holdRunning = true) ∧
    (¬PlatoonHolds s ∨ lastTenth s q = true)

/-- R35: the hold extension ends with its last tenth. -/
def afterHold (s : State) (q : SqState) : SqState := if lastTenth s q then endHold q else q

theorem testsTermination_settled {s : State} {st : Stage} {q : SqState} (h : SettledSq s st q) : testsTermination q = true := by
  obtain ⟨-, hp, -, hcommand, hhalt, -, -, -⟩ := h
  simp [testsTermination, hp, hcommand, hhalt]

/-- What the test for YIELD, the selection and a change that starts leave of the sequencer. -/
def KeptByChange (q q' : SqState) : Prop :=
  q'.current = q.current ∧ q'.calls = q.calls ∧ q'.passage = q.passage ∧ q'.command = q.command ∧ q'.haltRequest = q.haltRequest

theorem KeptByChange.trans {q q' q'' : SqState} (h : KeptByChange q q') (h' : KeptByChange q' q'') : KeptByChange q q'' := by
  obtain ⟨h1, h2, h3, h4, h5⟩ := h
  obtain ⟨k1, k2, k3, k4, k5⟩ := h'
  exact ⟨k1.trans h1, k2.trans h2, k3.trans h3, k4.trans h4, k5.trans h5⟩

theorem startChange_keeps (cause : TermCause) (truncating : Bool) (t : Stage) (s : State) :
    KeptByChange s.sq (startChange cause truncating t s).sq := ⟨rfl, rfl, rfl, rfl, rfl⟩

theorem testYield_keeps (last : Bool) (s : State) : KeptByChange s.sq (testYield last s).sq := by
  unfold testYield
  dsimp only
  split
  · exact startChange_keeps _ _ _ s
  · split <;> exact ⟨rfl, rfl, rfl, rfl, rfl⟩

theorem runSelection_keeps (s : State) : KeptByChange s.sq (runSelection s).sq := by
  unfold runSelection
  split
  · split
    · exact startChange_keeps _ _ _ s
    · exact ⟨rfl, rfl, rfl, rfl, rfl⟩
  · exact ⟨rfl, rfl, rfl, rfl, rfl⟩

theorem testLatch_of {v : State} {st : Stage} (hc : v.sq.current = some st) (ht : testsTermination v.sq = true) :
    testLatch v = v.withSq { v.sq with latch := nextLatch v st } := by
  unfold testLatch
  split
  · next st' hc' =>
    obtain rfl : st = st' := Option.some.inj (hc.symm.trans hc')
    exact if_pos ht
  · next hn => exact absurd (hc.symm.trans hn) (by simp)

/-- R24 (3): with no message and no halt request there is nothing to take. -/
theorem takeOrders_quiet {v : State} (ha : v.sq.arrivals = []) (hh : v.sq.haltRequest = false) : takeOrders v = v := by
  have harrived : takeArrivals v = v := by
    rw [takeArrivals, ha]
    show v.withSq { v.sq with arrivals := [] } = v
    rw [← ha]
    rfl
  rw [takeOrders, harrived]
  exact if_neg (by simp [haltWaiting, hh])

/-- R24: an evaluation without a halt request ends with PL's reading. -/
theorem sqEvaluation_of_noHalt {s v : State} (hv : runSelection (testTermination (takeOrders (followChange (countSqTimers s)))) = v)
    (hh : v.sq.haltRequest = false) : sqEvaluation s = evaluated s v := by
  have hck : v.ck = s.ck := by
    rw [← hv, (sqSteps_only s).ck (by simp)]
  have hend : readGreens (v.withSq { v.sq with yieldWasOpen := v.ck.report.yieldOpen }) = evaluated s v := by rw [hck]; rfl
  have heval : sqEvaluation s = if haltFinished (evaluated s v) then reportHalt (evaluated s v) else evaluated s v := by
    unfold sqEvaluation
    rw [hv, ← hend]
  rw [heval]
  have hhaltRequest : (evaluated s v).sq.haltRequest = false := hh
  exact if_neg (by simp [haltFinished, hhaltRequest])

/-- R24: a settled evaluation is the test for YIELD and the selection, from the timers and the latch just set. -/
theorem settled_evaluation {s : State} {st : Stage} (h : Settled s st) : sqEvaluation s =
    evaluated s (runSelection (testYield (lastTenth s (settledSq s st)) (s.withSq (settledSq s st)))) := by
  have hq := settledSq_settled h
  have hcounted := countedSq_settled h
  obtain ⟨hc, hp, -⟩ := h
  have horders : takeOrders (followChange (countSqTimers s)) = s.withSq (countedSq s st) := by
    obtain ⟨-, -, ht, -, hhalt, harrivals, -⟩ := hcounted
    have hfollow : followChange (s.withSq (countedSq s st)) = s.withSq (countedSq s st) := by
      simp only [followChange, State.withSq_sq, ht]
    rw [countSqTimers_settled hc hp, hfollow]
    exact takeOrders_quiet harrivals hhalt
  have hlatch : testLatch (s.withSq (heldSq s st (armedSq s st (countedSq s st)))) = s.withSq (settledSq s st) := by
    have hheld := SettledSq.held (q := armedSq s st (countedSq s st)) hcounted
    exact testLatch_of (v := s.withSq (heldSq s st (armedSq s st (countedSq s st)))) hheld.1 (testsTermination_settled hheld)
  have htest : testTermination (takeOrders (followChange (countSqTimers s))) =
      testYield (lastTenth s (settledSq s st)) (s.withSq (settledSq s st)) := by
    rw [horders]
    unfold testTermination
    rw [armed_eq hcounted, held_eq (q := armedSq s st (countedSq s st)) hcounted]
    dsimp only
    rw [hlatch]
    rfl
  obtain ⟨-, -, -, -, hhalt⟩ := (testYield_keeps (lastTenth s (settledSq s st)) (s.withSq (settledSq s st))).trans
    (runSelection_keeps _)
  obtain ⟨-, -, -, -, hnoHalt, -⟩ := hq
  exact sqEvaluation_of_noHalt (congrArg runSelection htest) (hhalt.trans hnoHalt)

/-- R34, R35: the conditions under which YIELD is taken. -/
def takesYield (last : Bool) (v : State) : Bool :=
  atCoordinated v && v.sq.latch == none && (v.ck.report.yieldOpen || v.sq.holdRunning) && (!platoonHold v || last)

theorem testYield_takes {last : Bool} {v : State} {u : Stage} (h : takesYield last v = true) (hu : selectNext v = some u) :
    testYield last v = startChange .yield false u v := by
  unfold takesYield at h
  unfold testYield
  rw [h]
  simp only [if_true, hu]

theorem testYield_not {last : Bool} {v : State} (h : takesYield last v = false ∨ selectNext v = none) :
    testYield last v = if last then v.withSq (endHold v.sq) else v := by
  have hnone : (if takesYield last v = true then selectNext v else none) = none := by
    rcases h with h | h
    · exact if_neg (by simp [h])
    · rw [h, ite_self]
  unfold takesYield at hnone
  unfold testYield
  dsimp only
  rw [hnone]

section Outcome
variable {s : State} {st : Stage} {q : SqState}

theorem atCoordinated_settled (h : SettledSq s st q) : atCoordinated (s.withSq q) = true ↔ coordinatedStage s = some st := by
  have hc : q.current = some st := h.1
  have hcoord : coordinatedStage (s.withSq q) = coordinatedStage s := rfl
  rw [atCoordinated, State.withSq_sq, testsTermination_settled h, hcoord, hc]
  simp

theorem mayYield_iff (h : SettledSq s st q) : takesYield (lastTenth s q) (s.withSq q) = true ↔ MayYield s st q := by
  have hplatoon : platoonHold (s.withSq q) = platoonHold s := rfl
  unfold takesYield
  rw [hplatoon]
  simp only [Bool.and_eq_true, atCoordinated_settled h, State.withSq_sq, State.withSq_ck, Bool.or_eq_true, beq_iff_eq,
    Bool.not_eq_true', MayYield, and_assoc]
  rw [← Bool.not_eq_true, platoonHold_iff]

theorem testYield_passes (h : SettledSq s st q) (hm : ¬MayYield s st q ∨ selectNext (s.withSq q) = none) :
    testYield (lastTenth s q) (s.withSq q) = s.withSq (afterHold s q) := by
  rw [testYield_not (hm.imp_left fun hm => Bool.eq_false_iff.mpr (mt (mayYield_iff h).mp hm))]
  unfold afterHold
  split <;> rfl

theorem afterHold_settled (h : SettledSq s st q) : SettledSq s st (afterHold s q) := by
  unfold afterHold
  split <;> exact h

/-- With nothing to change for, the selection stands. -/
theorem runSelection_stands (v : State) (h : v.sq.latch = none ∨ selectNext v = none ∨ testsTermination v.sq = false) :
    runSelection v = v := by
  unfold runSelection
  split
  · next hl hu =>
    rcases h with h | h | h
    · exact absurd (hl.symm.trans h) (by simp)
    · exact absurd (hu.symm.trans h) (by simp)
    · rw [h]
      rfl
  · rfl

theorem runSelection_changes {v : State} {cause : TermCause} {u : Stage} (hl : v.sq.latch = some cause)
    (hu : selectNext v = some u) (ht : testsTermination v.sq = true) : runSelection v = startChange cause false u v := by
  unfold runSelection
  rw [hl, hu]
  exact if_pos ht

end Outcome

/-! ## Both ways a settled evaluation can go -/

section Ways
variable {s : State} {st : Stage}

theorem selectNext_settled {q : SqState} (h : Settled s st) (hq : SettledSq s st q) : selectNext (s.withSq q) = selectNext s := by
  obtain ⟨hc, -⟩ := h
  obtain ⟨hqc, -, -, -, -, -, hcalls, -⟩ := hq
  exact selectNext_withSq hcalls (hqc.trans hc.symm)

/-- YIELD is taken. -/
theorem settled_yields {u : Stage} (h : Settled s st) (hm : MayYield s st (settledSq s st)) (hu : selectNext s = some u) :
    sqEvaluation s = evaluated s (startChange .yield false u (s.withSq (settledSq s st))) := by
  have hq := settledSq_settled h
  rw [settled_evaluation h, testYield_takes ((mayYield_iff hq).mpr hm) ((selectNext_settled h hq).trans hu),
    runSelection_stands _ (.inl rfl)]

/-- The latch set ends the stage. -/
theorem settled_ends {cause : TermCause} {u : Stage} (h : Settled s st) (hl : (settledSq s st).latch = some cause)
    (hu : selectNext s = some u) :
    sqEvaluation s = evaluated s (startChange cause false u (s.withSq (afterHold s (settledSq s st)))) := by
  have hq := settledSq_settled h
  have hafter := afterHold_settled hq
  have hnot : ¬MayYield s st (settledSq s st) := fun ⟨_, hnone, _⟩ => by simp [hl] at hnone
  have hlatch : (afterHold s (settledSq s st)).latch = some cause := by
    unfold afterHold
    split <;> exact hl
  rw [settled_evaluation h, testYield_passes hq (.inl hnot)]
  rw [runSelection_changes (v := s.withSq (afterHold s (settledSq s st))) hlatch ((selectNext_settled h hafter).trans hu)
    (testsTermination_settled hafter)]

/-- The stage stays. -/
theorem settled_stays (h : Settled s st)
    (hnone : (¬MayYield s st (settledSq s st) ∧ (settledSq s st).latch = none) ∨ selectNext s = none) :
    sqEvaluation s = evaluated s (s.withSq (afterHold s (settledSq s st))) := by
  have hq := settledSq_settled h
  have hafter := afterHold_settled hq
  have hnone' : selectNext s = none → selectNext (s.withSq (settledSq s st)) = none := (selectNext_settled h hq).trans
  rw [settled_evaluation h, testYield_passes hq (hnone.imp And.left hnone')]
  rw [runSelection_stands]
  refine hnone.elim (fun ⟨_, hl⟩ => .inl ?_) fun hu => .inr (.inl ((selectNext_settled h hafter).trans hu))
  show (afterHold s (settledSq s st)).latch = none
  unfold afterHold
  split <;> exact hl

theorem changeStarted_evaluated {q : SqState} (h : Settled s st) (hq : SettledSq s st q) (cause : TermCause) (u : Stage) :
    ChangeStarted cause false u s (evaluated s (startChange cause false u (s.withSq q))) := by
  obtain ⟨-, -, -, -, hhalt, -⟩ := h
  obtain ⟨-, -, -, -, hqhalt, -, hcalls, -⟩ := hq
  have hstarted : ChangeStarted cause false u s (startChange cause false u (s.withSq q)) :=
    (startChange_started cause false u (s.withSq q)).of_before rfl rfl rfl hcalls (hqhalt.trans hhalt.symm)
  exact hstarted

theorem evaluated_stays (q : SqState) : (evaluated s (s.withSq q)).ge = s.ge ∧
    (evaluated s (s.withSq q)).sq = { q with yieldWasOpen := s.ck.report.yieldOpen } := ⟨rfl, rfl⟩

/-- A change that a settled evaluation starts. -/
theorem settled_started {cause : TermCause} {u : Stage} (h : Settled s st) (hu : selectNext s = some u)
    (hl : (settledSq s st).latch = some cause) : ChangeStarted cause false u s (sqEvaluation s) := by
  rw [settled_ends h hl hu]
  exact changeStarted_evaluated h (afterHold_settled (settledSq_settled h)) cause u

/-- What every settled evaluation leaves. -/
theorem settled_common (h : Settled s st) : Only [.ge, .sq, .pl] s (sqEvaluation s) ∧ GreensReread s (sqEvaluation s) ∧
    (sqEvaluation s).sq.current = some st ∧ (sqEvaluation s).sq.calls = s.sq.calls ∧
    (sqEvaluation s).sq.passage = (settledSq s st).passage ∧ (sqEvaluation s).sq.yieldWasOpen = s.ck.report.yieldOpen := by
  have hq := settledSq_settled h
  set v := runSelection (testYield (lastTenth s (settledSq s st)) (s.withSq (settledSq s st))) with hv
  have hreach : Only [.ge, .sq] s v :=
    ((withSq_only s _).mono (by simp)).trans ((testYield_only _ _).trans (runSelection_only _))
  have heval : sqEvaluation s = evaluated s v := settled_evaluation h
  have hreach' : Only [.ge, .sq] s (v.withSq { v.sq with yieldWasOpen := s.ck.report.yieldOpen }) :=
    hreach.trans ((withSq_only _ _).mono (by simp))
  obtain ⟨hcurrent, hcalls, hpassage, -, -⟩ := (testYield_keeps (lastTenth s (settledSq s st)) (s.withSq (settledSq s st))).trans
    (runSelection_keeps _)
  obtain ⟨hqc, -, -, -, -, -, hqcalls, -⟩ := hq
  rw [heval]
  exact ⟨readGreens_after hreach', readGreens_reread (hreach'.pl (by simp)), hcurrent.trans hqc, hcalls.trans hqcalls, hpassage, rfl⟩

end Ways

/-! ## The timers and the latch of a settled evaluation, field by field -/

section Fields
variable (s : State) (st : Stage)

theorem heldSq_rest (q : SqState) :
    heldSq s st q = { q with hold := (heldSq s st q).hold, holdRunning := (heldSq s st q).holdRunning } := by
  unfold heldSq
  split <;> rfl

/-- The sequencer whose latch is tested. -/
def testedSq : SqState := heldSq s st (armedSq s st (countedSq s st))

theorem testedSq_eq : testedSq s st = { armedSq s st (countedSq s st) with
    hold := (testedSq s st).hold, holdRunning := (testedSq s st).holdRunning } := heldSq_rest s st _

theorem testedSq_latch : (testedSq s st).latch = (countedSq s st).latch := by
  rw [testedSq_eq]
  rfl

theorem testedSq_passage : (testedSq s st).passage = (countedSq s st).passage := by
  rw [testedSq_eq]
  rfl

theorem testedSq_maxRunning : (testedSq s st).maxRunning =
    (!decide (coordinatedStage s = some st) && (s.sq.maxRunning || otherDemand s st)) := by
  rw [testedSq_eq]
  rfl

theorem testedSq_maxTimer : (testedSq s st).maxTimer = if coordinatedStage s = some st then 0
    else if s.sq.maxRunning = false ∧ otherDemand s st = true then 0 else (countedSq s st).maxTimer := by
  rw [testedSq_eq]
  rfl

theorem testedSq_forceOff : (testedSq s st).forceOff = (s.sq.forceOff || crossedForceOff s st) := by
  rw [testedSq_eq]
  rfl

end Fields

section Conditions
variable {s : State} {st : Stage}

theorem crossedForceOff_iff : crossedForceOff s st = true ↔ s.ck.report.crossed[st] = true ∧ coordinatedStage s ≠ some st := by
  simp [-Fin.getElem_fin, crossedForceOff]

theorem forceStands_tested (hc : coordinatedStage s ≠ some st) : ForceStands (s.withSq (testedSq s st)) st ↔
    (s.ck.report.crossed[st] = true ∨ s.sq.forceOff = true) ∧ MinGreensRun s st := by
  have hcoord : coordinatedStage (s.withSq (testedSq s st)) = coordinatedStage s := rfl
  have hrun : MinGreensRun (s.withSq (testedSq s st)) st ↔ MinGreensRun s st := Iff.rfl
  unfold ForceStands
  rw [State.withSq_sq, testedSq_forceOff, hcoord, hrun, Bool.or_eq_true, crossedForceOff_iff, or_comm]
  simp only [hc, ne_eq, not_false_eq_true, and_true, true_and]

theorem gapStands_tested : GapStands (s.withSq (testedSq s st)) st ↔
    coordinatedStage s ≠ some st ∧ (countedSq s st).passage = 0 ∧ MinGreensRun s st := by
  have hcoord : coordinatedStage (s.withSq (testedSq s st)) = coordinatedStage s := rfl
  have hrun : MinGreensRun (s.withSq (testedSq s st)) st ↔ MinGreensRun s st := Iff.rfl
  rw [GapStands, State.withSq_sq, testedSq_passage, hcoord, hrun]

/-- The max green is not reached where it lies ahead. -/
theorem not_maxStands_tested (h : MaxGreenAhead s st) : ¬MaxStands (s.withSq (testedSq s st)) st := by
  obtain ⟨hpos, hahead⟩ := h
  have hgreen : maxGreenTime (s.withSq (testedSq s st)) st = maxGreenTime s st := rfl
  rintro ⟨hrunning, hreached⟩
  rw [hgreen, State.withSq_sq, testedSq_maxTimer] at hreached
  rw [State.withSq_sq, testedSq_maxRunning] at hrunning
  have hcounted : (countedSq s st).maxTimer =
      if tenthMark s = true ∧ s.sq.maxRunning = true then min (s.sq.maxTimer + 1) 1800 else s.sq.maxTimer := rfl
  rw [hcounted] at hreached
  cases hrun : s.sq.maxRunning with
  | true =>
    have := hahead hrun
    split_ifs at hreached <;> omega
  | false =>
    have hdemand : otherDemand s st = true := by
      simp only [hrun, Bool.false_or, Bool.and_eq_true] at hrunning
      exact hrunning.2
    rw [if_pos (show _ ∧ _ from ⟨hrun, hdemand⟩), ite_self] at hreached
    omega

theorem not_maxStands_coordinated (hc : coordinatedStage s = some st) : ¬MaxStands (s.withSq (testedSq s st)) st := by
  rintro ⟨hrunning, -⟩
  rw [State.withSq_sq, testedSq_maxRunning, decide_eq_true hc] at hrunning
  simp at hrunning

theorem settledSq_latch : (settledSq s st).latch = nextLatch (s.withSq (testedSq s st)) st := rfl

theorem testedSq_latch_open (h : s.sq.latch = none ∨ s.sq.latch = some .gap) :
    (s.withSq (testedSq s st)).sq.latch = none ∨ (s.withSq (testedSq s st)).sq.latch = some .gap := by
  rw [State.withSq_sq, testedSq_latch]
  show (if _ then none else s.sq.latch) = none ∨ (if _ then none else s.sq.latch) = some .gap
  split
  · exact .inl rfl
  · exact h

theorem countedSq_latch_none (h : s.sq.latch = none) : (countedSq s st).latch = none := by
  show (if _ then none else s.sq.latch) = none
  rw [h, ite_self]

/-- An absent latch that takes nothing. -/
theorem settledSq_latch_none (hl : (countedSq s st).latch = none) (hf : ¬ForceStands (s.withSq (testedSq s st)) st)
    (hm : ¬MaxStands (s.withSq (testedSq s st)) st) (hg : ¬GapStands (s.withSq (testedSq s st)) st) :
    (settledSq s st).latch = none := by
  rw [settledSq_latch, nextLatch_stands (fun _ => ⟨hf, hm⟩) (fun _ => hg), State.withSq_sq, testedSq_latch, hl]

theorem not_mayYield (h : coordinatedStage s ≠ some st) (q : SqState) : ¬MayYield s st q := fun ⟨hc, _⟩ => h hc

/-- What stands where a settled evaluation starts no change. -/
theorem settled_stayed (h : Settled s st)
    (hnone : (¬MayYield s st (settledSq s st) ∧ (settledSq s st).latch = none) ∨ selectNext s = none) :
    ((sqEvaluation s).ge = s.ge ∧ (sqEvaluation s).sq.phase = .complete ∧ (sqEvaluation s).sq.target = none) ∧
    (sqEvaluation s).sq.latch = (settledSq s st).latch ∧ (sqEvaluation s).sq.maxRunning = (testedSq s st).maxRunning ∧
    (sqEvaluation s).sq.maxTimer = (testedSq s st).maxTimer ∧ (sqEvaluation s).sq.forceOff = (testedSq s st).forceOff ∧
    (sqEvaluation s).sq.hold = (afterHold s (settledSq s st)).hold ∧
    (sqEvaluation s).sq.holdRunning = (afterHold s (settledSq s st)).holdRunning := by
  obtain ⟨-, hp, ht, -⟩ := settledSq_settled h
  rw [settled_stays h hnone]
  obtain ⟨hge, hsq⟩ := evaluated_stays (s := s) (afterHold s (settledSq s st))
  have hafter : afterHold s (settledSq s st) = { settledSq s st with
      hold := (afterHold s (settledSq s st)).hold, holdRunning := (afterHold s (settledSq s st)).holdRunning } := by
    unfold afterHold
    split <;> rfl
  refine ⟨⟨hge, ?_, ?_⟩, ?_, ?_, ?_, ?_, by rw [hsq], by rw [hsq]⟩ <;> rw [hsq, hafter]
  · exact hp
  · exact ht
  · rfl
  · rfl
  · rfl

/-- A settled evaluation changes to the stage that selection chooses, or stays. -/
theorem settled_ways (h : Settled s st) :
    ((sqEvaluation s).sq.target.isSome = true ∧ (sqEvaluation s).sq.maxRunning = false ∧ (sqEvaluation s).sq.maxTimer = 0 ∧
      ∃ u, selectNext s = some u) ∨
    ((¬MayYield s st (settledSq s st) ∧ (settledSq s st).latch = none) ∨ selectNext s = none) := by
  cases hu : selectNext s with
  | none => exact .inr (.inr rfl)
  | some u =>
    by_cases hm : MayYield s st (settledSq s st)
    · rw [settled_yields h hm hu]
      exact .inl ⟨rfl, rfl, rfl, u, rfl⟩
    · cases hl : (settledSq s st).latch with
      | none => exact .inr (.inl ⟨hm, rfl⟩)
      | some cause =>
        rw [settled_ends h hl hu]
        exact .inl ⟨rfl, rfl, rfl, u, rfl⟩

end Conditions

/-! ## The settled evaluation outside the coordinated stage (O21) -/

section Clauses
variable {s : State} {st : Stage} {img : Image}

theorem otherDemand_iff (hi : s.cf.image = some img) : otherDemand s st = true ↔ ∃ v : Stage, v ≠ st ∧ StageHasDemand img s v := by
  simp [otherDemand, stageDemand_iff hi]

theorem passageTime_eq (hi : s.cf.image = some img) : passageTime s st = img.stages[st].passage := by
  simp only [passageTime, hi]

/-- R28. -/
theorem countedSq_passage (hi : s.cf.image = some img) :
    (tenthMark s = true → s.sq.passageRunning = true → (Extended img s st → (countedSq s st).passage = img.stages[st].passage) ∧
      (¬Extended img s st → (countedSq s st).passage = s.sq.passage - 1)) ∧
    (¬(tenthMark s = true ∧ s.sq.passageRunning = true) → (countedSq s st).passage = s.sq.passage) := by
  rw [← extensionActive_iff hi st, ← passageTime_eq hi]
  refine ⟨fun ht hr => ⟨fun he => ?_, fun he => ?_⟩, fun h => if_neg h⟩
  · exact (if_pos ⟨ht, hr⟩).trans (if_pos he)
  · exact (if_pos ⟨ht, hr⟩).trans (if_neg he)

/-- R29: the max timer starts; with nothing else to take, the stage stays. -/
theorem settled_maxStarts (h : Settled s st) (hi : s.cf.image = some img) (hc : coordinatedStage s ≠ some st)
    (hr : s.sq.maxRunning = false) (hd : ∃ v : Stage, v ≠ st ∧ StageHasDemand img s v) (hl : s.sq.latch = none)
    (hf : s.sq.forceOff = false) (hx : ¬s.ck.report.crossed[st] = true) (hm : MaxGreenAhead s st) (hp : 1 < s.sq.passage)
    (he : ¬Extended img s st ∨ 0 < img.stages[st].passage) :
    ((sqEvaluation s).ge = s.ge ∧ (sqEvaluation s).sq.phase = .complete ∧ (sqEvaluation s).sq.target = none) ∧
      (sqEvaluation s).sq.latch = none ∧ (sqEvaluation s).sq.maxRunning = true ∧ (sqEvaluation s).sq.maxTimer = 0 := by
  have hpassage : (countedSq s st).passage ≠ 0 := by
    obtain ⟨hcounts, hstands⟩ := countedSq_passage (st := st) hi
    by_cases hcount : tenthMark s = true ∧ s.sq.passageRunning = true
    · obtain ⟨hext, hnot⟩ := hcounts hcount.1 hcount.2
      by_cases hex : Extended img s st
      · have := he.resolve_left (not_not.mpr hex)
        rw [hext hex]
        omega
      · rw [hnot hex]
        omega
    · rw [hstands hcount]
      omega
  have hnone : (settledSq s st).latch = none := by
    refine settledSq_latch_none (countedSq_latch_none hl) ?_ (not_maxStands_tested hm) fun hg => ?_
    · rw [forceStands_tested hc]
      simp [-Fin.getElem_fin, hx, hf]
    · exact hpassage (gapStands_tested.mp hg).2.1
  have hdemand := (otherDemand_iff hi).mpr hd
  obtain ⟨hstays, hlatch, hrunning, htimer, -, -, -⟩ := settled_stayed h (.inl ⟨not_mayYield hc _, hnone⟩)
  refine ⟨hstays, hlatch.trans hnone, ?_, ?_⟩
  · rw [hrunning, testedSq_maxRunning, decide_eq_false hc, hdemand]
    simp
  · rw [htimer, testedSq_maxTimer, if_neg hc, if_pos ⟨hr, hdemand⟩]

/-- R33: FORCE is taken. -/
theorem settled_forces (h : Settled s st) (hc : coordinatedStage s ≠ some st)
    (hx : s.ck.report.crossed[st] = true ∨ s.sq.forceOff = true) (hl : s.sq.latch = none ∨ s.sq.latch = some .gap)
    (hg : MinGreensRun s st) :
    (selectNext s = none →
      ((sqEvaluation s).ge = s.ge ∧ (sqEvaluation s).sq.phase = .complete ∧ (sqEvaluation s).sq.target = none) ∧
      (sqEvaluation s).sq.latch = some .force ∧ (sqEvaluation s).sq.forceOff = true) ∧
    ∀ u, selectNext s = some u → ChangeStarted .force false u s (sqEvaluation s) := by
  have hforce : (settledSq s st).latch = some .force :=
    nextLatch_force (testedSq_latch_open hl) ((forceStands_tested hc).mpr ⟨hx, hg⟩)
  refine ⟨fun hu => ?_, fun u hu => settled_started h hu hforce⟩
  obtain ⟨hstays, hlatch, -, -, hflag, -, -⟩ := settled_stayed h (.inr hu)
  refine ⟨hstays, hlatch.trans hforce, ?_⟩
  rw [hflag, testedSq_forceOff, Bool.or_eq_true, crossedForceOff_iff]
  exact hx.symm.imp_right fun hx => ⟨hx, hc⟩

/-- R33: the flag waits for the minimum greens. -/
theorem settled_waits (h : Settled s st) (hc : coordinatedStage s ≠ some st)
    (hx : s.ck.report.crossed[st] = true ∨ s.sq.forceOff = true) (hl : s.sq.latch = none)
    (hg : ¬MinGreensRun s st) (hm : MaxGreenAhead s st) :
    ((sqEvaluation s).ge = s.ge ∧ (sqEvaluation s).sq.phase = .complete ∧ (sqEvaluation s).sq.target = none) ∧
      (sqEvaluation s).sq.latch = none ∧ (sqEvaluation s).sq.forceOff = true := by
  have hnone : (settledSq s st).latch = none :=
    settledSq_latch_none (countedSq_latch_none hl) (fun hf => hg ((forceStands_tested hc).mp hf).2) (not_maxStands_tested hm)
      fun hgap => hg (gapStands_tested.mp hgap).2.2
  obtain ⟨hstays, hlatch, -, -, hflag, -, -⟩ := settled_stayed h (.inl ⟨not_mayYield hc _, hnone⟩)
  refine ⟨hstays, hlatch.trans hnone, ?_⟩
  rw [hflag, testedSq_forceOff, Bool.or_eq_true, crossedForceOff_iff]
  exact hx.symm.imp_right fun hx => ⟨hx, hc⟩

/-- R31: a reload above 0 withdraws a latch holding GAP. -/
theorem settled_withdraws (h : Settled s st) (hi : s.cf.image = some img) (hc : coordinatedStage s ≠ some st)
    (ht : tenthMark s = true) (hr : s.sq.passageRunning = true) (he : Extended img s st) (hp : 0 < img.stages[st].passage)
    (hl : s.sq.latch = some .gap) (hf : s.sq.forceOff = false) (hx : ¬s.ck.report.crossed[st] = true) (hm : MaxGreenAhead s st) :
    ((sqEvaluation s).ge = s.ge ∧ (sqEvaluation s).sq.phase = .complete ∧ (sqEvaluation s).sq.target = none) ∧
      (sqEvaluation s).sq.latch = none := by
  have hcounted : (countedSq s st).latch = none :=
    if_pos ⟨⟨ht, hr⟩, (extensionActive_iff hi st).mpr he, hl, by rwa [passageTime_eq hi]⟩
  have hpassage : (countedSq s st).passage = img.stages[st].passage := ((countedSq_passage hi).1 ht hr).1 he
  have hnone : (settledSq s st).latch = none := by
    refine settledSq_latch_none hcounted ?_ (not_maxStands_tested hm) fun hg => ?_
    · rw [forceStands_tested hc]
      simp [-Fin.getElem_fin, hx, hf]
    · have := (gapStands_tested.mp hg).2.1
      omega
  obtain ⟨hstays, hlatch, -, -, -, -, -⟩ := settled_stayed h (.inl ⟨not_mayYield hc _, hnone⟩)
  exact ⟨hstays, hlatch.trans hnone⟩

end Clauses

/-- Settles O21: the latch by its conditions, the followers in order, and the settled evaluation from the timers it counts. -/
theorem terminationCauseAndNextStage : Obligations.TerminationCauseAndNextStage := by
  refine ⟨fun s st => ⟨fun h1 h2 => ?_, nextLatch_force, nextLatch_max, nextLatch_gap, fun hl hf hm hg => ?_, fun hl hf hm => ?_⟩,
    fun s st img hc hi => ⟨candidatePasses_iff hi, coordinatedStage_iff s, ?_, fun u => ?_⟩, fun s st img hi h => ?_⟩
  · exact nextLatch_stands (fun h => (h.elim h1 h2).elim) fun h => (h1 h).elim
  · exact (nextLatch_stands (fun _ => ⟨hf, hm⟩) fun _ => hg).trans hl
  · exact (nextLatch_stands (fun _ => ⟨hf, hm⟩) fun hn => by simp [hl] at hn).trans hl
  · rw [selectNext_of_current hc, List.find?_eq_none]
    simp only [mem_followers, Bool.not_eq_true]
  · rw [selectNext_of_current hc, find?_followers]
  · obtain ⟨hreach, hreread, hcurrent, hcalls, hpassage, -⟩ := settled_common h
    have hcounted : (settledSq s st).passage = (countedSq s st).passage := testedSq_passage s st
    refine ⟨hreach, hreread, hcurrent, hcalls, fun ht hr => ?_, fun hc => ?_, fun hr hd => ?_, fun hc hr => ⟨fun hu => ?_, fun ht => ?_⟩,
      fun hc hr hd hl hf hx hm hp he => settled_maxStarts h hi hc hr hd hl hf hx hm hp he,
      fun hc hx hl hg => settled_forces h hc hx hl hg, fun hc hx hl hg hm => settled_waits h hc hx hl hg hm,
      fun hc ht hr he hp hl hf hx hm => settled_withdraws h hi hc ht hr he hp hl hf hx hm⟩
    · rw [hpassage, hcounted]
      exact (countedSq_passage hi).1 ht hr
    · rcases settled_ways h with ⟨-, hrunning, htimer, -⟩ | hstay
      · exact ⟨hrunning, htimer⟩
      · obtain ⟨-, -, hrunning, htimer, -, -, -⟩ := settled_stayed h hstay
        rw [hrunning, htimer, testedSq_maxRunning, testedSq_maxTimer, decide_eq_true hc, if_pos hc]
        exact ⟨rfl, rfl⟩
    · rcases settled_ways h with ⟨-, hrunning, -, -⟩ | hstay
      · exact hrunning
      · obtain ⟨-, -, hrunning, -, -, -, -⟩ := settled_stayed h hstay
        have hno : otherDemand s st = false :=
          Bool.eq_false_iff.mpr (mt (otherDemand_iff hi).mp fun ⟨v, hv, hdemand⟩ => hd v hv hdemand)
        rw [hrunning, testedSq_maxRunning, hr, hno, Bool.or_self, Bool.and_false]
    · exact (settled_stayed h (.inr hu)).1.2.2
    · rcases settled_ways h with ⟨htarget, -⟩ | hstay
      · rw [ht] at htarget
        simp at htarget
      · obtain ⟨-, -, hrunning, htimer, -, -, -⟩ := settled_stayed h hstay
        rw [hrunning, htimer, testedSq_maxRunning, testedSq_maxTimer, decide_eq_false hc, if_neg hc, hr, if_neg (by simp)]
        refine ⟨rfl, ?_⟩
        show (if tenthMark s = true ∧ s.sq.maxRunning = true then _ else _) = _
        simp only [hr, and_true]

end Sys2Proof.Machine


/-!
# The stage timers' rows, YIELD, and the change in flight (O22, O23)
-/

namespace Sys2Proof.Machine

/-! ## A row that tests the latch and runs the selection -/

section Row
variable {s : State} {st : Stage} {q : SqState}

/-- R30: a row at which no termination is tested leaves the sequencer as the row sets it. -/
theorem latchRow_idle (h : testsTermination q = false) :
    runSelection (testLatch (s.withSq q)) = s.withSq q := by
  have hlatch : testLatch (s.withSq q) = s.withSq q := by
    unfold testLatch
    split
    · exact if_neg (by rw [State.withSq_sq, h]; decide)
    · rfl
  rw [hlatch, runSelection_stands _ (.inr (.inr h))]

theorem testsTermination_iff : testsTermination q = true ↔ q.phase = .complete ∧ q.command = none ∧ q.haltRequest = false := by
  simp [testsTermination, and_assoc]

/-- The latch stands, or is set where selection finds no stage. -/
theorem latchRow_stays (hc : q.current = some st) (hs : s.sq.current = some st) (hcalls : q.calls = s.sq.calls)
    (ht : testsTermination q = true) (hnone : nextLatch (s.withSq q) st = none ∨ selectNext s = none) :
    runSelection (testLatch (s.withSq q)) = s.withSq { q with latch := nextLatch (s.withSq q) st } := by
  rw [testLatch_of (v := s.withSq q) hc ht]
  refine runSelection_stands _ (hnone.imp_right fun hu => .inl ?_)
  exact (selectNext_withSq (q := { q with latch := nextLatch (s.withSq q) st }) hcalls (hc.trans hs.symm)).trans hu

/-- The latch ends the stage. -/
theorem latchRow_changes {cause : TermCause} {u : Stage} (hc : q.current = some st) (hs : s.sq.current = some st)
    (hcalls : q.calls = s.sq.calls) (hhalt : q.haltRequest = s.sq.haltRequest) (ht : testsTermination q = true)
    (hl : nextLatch (s.withSq q) st = some cause) (hu : selectNext s = some u) :
    ChangeStarted cause false u s (readGreens (runSelection (testLatch (s.withSq q)))) ∧
      (readGreens (runSelection (testLatch (s.withSq q)))).sq.passage = q.passage := by
  have hselect := selectNext_withSq (s := s) (q := { q with latch := nextLatch (s.withSq q) st }) hcalls (hc.trans hs.symm)
  have hrow : runSelection (testLatch (s.withSq q)) =
      startChange cause false u (s.withSq { q with latch := nextLatch (s.withSq q) st }) :=
    (congrArg runSelection (testLatch_of (v := s.withSq q) hc ht)).trans (runSelection_changes hl (hselect.trans hu) ht)
  rw [hrow]
  have hstarted : ChangeStarted cause false u s (startChange cause false u (s.withSq { q with latch := nextLatch (s.withSq q) st })) :=
    (startChange_started cause false u _).of_before rfl rfl rfl hcalls hhalt
  exact ⟨hstarted.greensRead, rfl⟩

theorem testLatch_keeps (v : State) : KeptByChange v.sq (testLatch v).sq := by
  unfold testLatch
  split
  · split <;> exact ⟨rfl, rfl, rfl, rfl, rfl⟩
  · exact ⟨rfl, rfl, rfl, rfl, rfl⟩

/-- What such a row leaves in any case. -/
theorem latchRow_common (hs : q.current = some st) :
    Only [.ge, .sq, .pl] s (readGreens (runSelection (testLatch (s.withSq q)))) ∧
      GreensReread s (readGreens (runSelection (testLatch (s.withSq q)))) ∧
      (readGreens (runSelection (testLatch (s.withSq q)))).sq.current = some st := by
  have hreach := latched_only s (s.withSq q) (withSq_only s q)
  obtain ⟨hcurrent, -⟩ := (testLatch_keeps (s.withSq q)).trans (runSelection_keeps _)
  exact ⟨readGreens_after hreach, readGreens_reread (hreach.pl (by simp)), hcurrent.trans hs⟩

end Row

theorem maxGreenTime_eq {s : State} {img : Image} (hi : s.cf.image = some img) (st : Stage) :
    maxGreenTime s st = 10 * img.stages[st].maxGreen := by
  simp only [maxGreenTime, hi]

theorem sqRuns_of_modes {s : State} (h : s.os.mode = .run ∨ s.os.mode = .flashEntry) : sqRuns s = true := (sqRuns_iff s).mpr h

/-- PASSAGE_TIMER_EXPIRY (R31). -/
theorem passageTimerExpiry_row {s : State} {st : Stage} {img : Image} (hi : s.cf.image = some img)
    (hm : s.os.mode = .run ∨ s.os.mode = .flashEntry) (hc : s.sq.current = some st) (hp : s.sq.phase = .complete)
    (hr : s.sq.passageRunning = true) (h1 : s.sq.passage ≤ 1) (he : ¬Extended img s st) (hf : s.sq.forceOff = false)
    (hmax : s.sq.maxRunning = true → s.sq.maxTimer < 10 * img.stages[st].maxGreen) :
    ∃ t, exec .passageTimerExpiry s = .next t ∧ Only [.ge, .sq, .pl] s t ∧ GreensReread s t ∧ t.sq.current = some st ∧
      (∀ cause, s.sq.latch = some cause →
        (s.sq.command ≠ none ∨ s.sq.haltRequest = true ∨ selectNext s = none → t.ge = s.ge ∧ t.sq = { s.sq with passage := 0 }) ∧
        ∀ u, s.sq.command = none → s.sq.haltRequest = false → selectNext s = some u →
          ChangeStarted cause false u s t ∧ t.sq.passage = 0) ∧
      (s.sq.latch = none → s.sq.command ≠ none ∨ s.sq.haltRequest = true ∨ coordinatedStage s = some st ∨ ¬MinGreensRun s st →
        t.ge = s.ge ∧ t.sq = { s.sq with passage := 0 }) ∧
      (s.sq.latch = none → s.sq.command = none → s.sq.haltRequest = false → coordinatedStage s ≠ some st → MinGreensRun s st →
        (selectNext s = none → t.ge = s.ge ∧ t.sq = { s.sq with passage := 0, latch := some .gap }) ∧
        ∀ u, selectNext s = some u → ChangeStarted .gap false u s t ∧ t.sq.passage = 0) := by
  have hexec : exec .passageTimerExpiry s =
      .next (readGreens (runSelection (testLatch (s.withSq { s.sq with passage := 0 })))) := by
    show execPassageTimerExpiry s = _
    unfold execPassageTimerExpiry
    rw [hc]
    refine congrArg Host.Outcome.next (whenDue_true ?_ _ _)
    simp [sqRuns_of_modes hm, hp, hr, h1, Bool.eq_false_iff.mpr (mt (extensionActive_iff hi st).mp he)]
  set v := s.withSq { s.sq with passage := 0 } with hv
  have hforce : ¬ForceStands v st := fun ⟨hflag, _, _⟩ => by
    rw [hv, State.withSq_sq, hf] at hflag
    simp at hflag
  have hnomax : ¬MaxStands v st := fun ⟨hrunning, hreached⟩ => by
    have := hmax hrunning
    have hgreen : maxGreenTime v st = 10 * img.stages[st].maxGreen := maxGreenTime_eq hi st
    have htimer : v.sq.maxTimer = s.sq.maxTimer := rfl
    omega
  have hidle (h : s.sq.command ≠ none ∨ s.sq.haltRequest = true) : runSelection (testLatch v) = v :=
    latchRow_idle (Bool.eq_false_iff.mpr fun htests => by
      obtain ⟨-, hcommand, hhalt⟩ := testsTermination_iff.mp htests
      rcases h with h | h
      · exact h hcommand
      · simp [h] at hhalt)
  have htests (hcommand : s.sq.command = none) (hhalt : s.sq.haltRequest = false) :
      testsTermination { s.sq with passage := 0 } = true := testsTermination_iff.mpr ⟨hp, hcommand, hhalt⟩
  have hstands (L : Option TermCause) (hl : s.sq.latch = L) (hL : nextLatch v st = L)
      (hstay : s.sq.command ≠ none ∨ s.sq.haltRequest = true ∨ L = none ∨ selectNext s = none) :
      runSelection (testLatch v) = v := by
    by_cases hquiet : s.sq.command = none ∧ s.sq.haltRequest = false
    · obtain ⟨hcommand, hhalt⟩ := hquiet
      have hstay' : nextLatch v st = none ∨ selectNext s = none := by
        rcases hstay with h | h | h | h
        · exact absurd hcommand h
        · simp [h] at hhalt
        · exact .inl (hL.trans h)
        · exact .inr h
      rw [hv, latchRow_stays (q := { s.sq with passage := 0 }) hc hc rfl (htests hcommand hhalt) hstay', ← hv, hL, ← hl]
    · exact hidle (by
        rcases not_and_or.mp hquiet with h | h
        · exact .inl h
        · exact .inr (by simpa using h))
  obtain ⟨hreach, hreread, hcurrent⟩ := latchRow_common (s := s) (q := { s.sq with passage := 0 }) hc
  refine ⟨_, hexec, hreach, hreread, hcurrent, fun cause hl => ?_, fun hl h => ?_, fun hl hcommand hhalt hcoord hrun => ?_⟩
  · have hlatch : nextLatch v st = some cause :=
      (nextLatch_stands (fun _ => ⟨hforce, hnomax⟩) fun h => absurd (hl.symm.trans h) (by simp)).trans hl
    refine ⟨fun h => ?_, fun u hcommand hhalt hu => latchRow_changes hc hc rfl rfl (htests hcommand hhalt) hlatch hu⟩
    rw [hstands _ hl hlatch (h.imp_right fun h => h.imp_right .inr)]
    exact ⟨rfl, rfl⟩
  · have hstay : runSelection (testLatch v) = v := by
      rcases h with h | h | h
      · exact hidle (.inl h)
      · exact hidle (.inr h)
      · have hnogap : ¬GapStands v st := fun ⟨hcoord, _, hrun⟩ => h.elim hcoord fun h => h hrun
        have hlatch : nextLatch v st = none := (nextLatch_stands (fun _ => ⟨hforce, hnomax⟩) fun _ => hnogap).trans hl
        exact hstands _ hl hlatch (.inr (.inr (.inl rfl)))
    rw [hstay]
    exact ⟨rfl, rfl⟩
  · have hlatch : nextLatch v st = some .gap := nextLatch_gap hl hforce hnomax ⟨hcoord, rfl, hrun⟩
    refine ⟨fun hu => ?_, fun u hu => latchRow_changes hc hc rfl rfl (htests hcommand hhalt) hlatch hu⟩
    rw [hv, latchRow_stays (q := { s.sq with passage := 0 }) hc hc rfl (htests hcommand hhalt) (.inr hu), ← hv, hlatch]
    exact ⟨rfl, rfl⟩

/-- MAX_TIMER_EXPIRY (R32, R30). -/
theorem maxTimerExpiry_row {s : State} {st : Stage} (hm : s.os.mode = .run ∨ s.os.mode = .flashEntry)
    (hc : s.sq.current = some st) (hp : s.sq.phase = .complete) (hcommand : s.sq.command = none)
    (hhalt : s.sq.haltRequest = false) (hr : s.sq.maxRunning = true)
    (hreached : maxGreenTime s st ≤ min (s.sq.maxTimer + 1) 1800) (hcoord : coordinatedStage s ≠ some st)
    (hl : s.sq.latch = none ∨ s.sq.latch = some .gap) {cause : TermCause}
    (hforce : s.sq.forceOff = true ∧ MinGreensRun s st → cause = .force)
    (hmax : ¬(s.sq.forceOff = true ∧ MinGreensRun s st) → cause = .max) :
    ∃ t, exec .maxTimerExpiry s = .next t ∧ Only [.ge, .sq, .pl] s t ∧ GreensReread s t ∧ t.sq.current = some st ∧
      (selectNext s = none →
        t.ge = s.ge ∧ t.sq = { s.sq with maxTimer := min (s.sq.maxTimer + 1) 1800, latch := some cause }) ∧
      ∀ u, selectNext s = some u → ChangeStarted cause false u s t ∧ t.sq.passage = s.sq.passage := by
  have htests : testsTermination s.sq = true := testsTermination_iff.mpr ⟨hp, hcommand, hhalt⟩
  have hexec : exec .maxTimerExpiry s =
      .next (readGreens (runSelection (testLatch (s.withSq { s.sq with maxTimer := min (s.sq.maxTimer + 1) 1800 })))) := by
    show execMaxTimerExpiry s = _
    unfold execMaxTimerExpiry
    rw [hc]
    refine congrArg Host.Outcome.next (whenDue_true ?_ _ _)
    have hdue : maxGreenTime s st ≤ s.sq.maxTimer + 1 := hreached.trans (Nat.min_le_left _ _)
    simp [sqRuns_of_modes hm, htests, hr, hdue, hcoord]
  set v := s.withSq { s.sq with maxTimer := min (s.sq.maxTimer + 1) 1800 } with hv
  have hstands : MaxStands v st := ⟨hr, hreached⟩
  have hlatch : nextLatch v st = some cause := by
    by_cases hf : s.sq.forceOff = true ∧ MinGreensRun s st
    · rw [hforce hf]
      exact nextLatch_force hl ⟨hf.1, hcoord, hf.2⟩
    · rw [hmax hf]
      exact nextLatch_max hl (fun ⟨hflag, _, hrun⟩ => hf ⟨hflag, hrun⟩) hstands
  obtain ⟨hreach, hreread, hcurrent⟩ :=
    latchRow_common (s := s) (q := { s.sq with maxTimer := min (s.sq.maxTimer + 1) 1800 }) hc
  refine ⟨_, hexec, hreach, hreread, hcurrent, fun hu => ?_, fun u hu => latchRow_changes hc hc rfl rfl htests hlatch hu⟩
  rw [hv, latchRow_stays (q := { s.sq with maxTimer := min (s.sq.maxTimer + 1) 1800 }) hc hc rfl htests (.inr hu), ← hv, hlatch]
  exact ⟨rfl, rfl⟩

/-- HOLD_EXTENSION_EXPIRY (R35). -/
theorem holdExtensionExpiry_row {s : State} {r : PlanRecord} (hm : s.os.mode = .run ∨ s.os.mode = .flashEntry)
    (hr : activePlan s = some r) (hh : s.sq.holdRunning = true) (hcap : 10 * r.holdCap ≤ s.sq.hold + 1) :
    let atCoord := s.sq.phase = .complete ∧ s.sq.command = none ∧ s.sq.haltRequest = false ∧
      ∃ st, s.sq.current = some st ∧ coordinatedStage s = some st
    ∃ t, exec .holdExtensionExpiry s = .next t ∧ Only [.ge, .sq, .pl] s t ∧ GreensReread s t ∧ t.sq.hold = 0 ∧
      t.sq.holdRunning = false ∧ t.sq.current = s.sq.current ∧
      (∀ u, atCoord → s.sq.latch = none → selectNext s = some u →
        ChangeStarted .yield false u s t ∧ t.sq.passage = s.sq.passage) ∧
      (¬atCoord ∨ s.sq.latch ≠ none ∨ selectNext s = none →
        t.ge = s.ge ∧ t.sq = { s.sq with hold := 0, holdRunning := false }) := by
  intro atCoord
  set v := s.withSq { s.sq with hold := satInc 300 s.sq.hold } with hv
  have hexec : exec .holdExtensionExpiry s = .next (readGreens (testYield true v)) := by
    refine congrArg Host.Outcome.next (whenDue_true ?_ _ _)
    have hcapTime : holdCapTime s = 10 * r.holdCap := by simp only [holdCapTime, hr]
    simp [sqRuns_of_modes hm, hh, hcapTime, hcap]
  have hselect : selectNext v = selectNext s := selectNext_withSq rfl rfl
  have hcoord : atCoordinated v = true ↔ atCoord := by
    have hsame : coordinatedStage v = coordinatedStage s := rfl
    have htests : testsTermination v.sq = testsTermination s.sq := rfl
    have hcurrent : v.sq.current = s.sq.current := rfl
    rw [atCoordinated, Bool.and_eq_true, Bool.and_eq_true, htests, hsame, hcurrent, testsTermination_iff, beq_iff_eq, and_assoc,
      and_assoc, and_assoc]
    refine and_congr_right fun _ => and_congr_right fun _ => and_congr_right fun _ => ?_
    cases s.sq.current <;> simp
  have htakes : takesYield true v = true ↔ atCoord ∧ s.sq.latch = none := by
    have hlatch : v.sq.latch = s.sq.latch := rfl
    have hhold : v.sq.holdRunning = true := hh
    rw [takesYield, hlatch, hhold, Bool.or_true, Bool.or_true, Bool.and_true, Bool.and_true, Bool.and_eq_true, hcoord, beq_iff_eq]
  have hreach : Only [.ge, .sq] s (testYield true v) := ((withSq_only s _).mono (by simp)).trans (testYield_only true v)
  obtain ⟨hcurrent, -⟩ := testYield_keeps true v
  have hended : takesYield true v = false ∨ selectNext v = none → testYield true v = v.withSq (endHold v.sq) := testYield_not
  have hyields (u : Stage) (h : takesYield true v = true) (hu : selectNext v = some u) :
      testYield true v = startChange .yield false u v := testYield_takes h hu
  have hover : (testYield true v).sq.hold = 0 ∧ (testYield true v).sq.holdRunning = false := by
    cases hu : selectNext v with
    | none =>
      rw [hended (.inr hu)]
      exact ⟨rfl, rfl⟩
    | some u =>
      cases ht : takesYield true v with
      | false =>
        rw [hended (.inl ht)]
        exact ⟨rfl, rfl⟩
      | true =>
        rw [hyields u ht hu]
        exact ⟨rfl, rfl⟩
  refine ⟨_, hexec, readGreens_after hreach, readGreens_reread (hreach.pl (by simp)), hover.1, hover.2, hcurrent,
    fun u hat hl hu => ?_, fun h => ?_⟩
  · rw [hyields u (htakes.mpr ⟨hat, hl⟩) (hselect.trans hu)]
    have hstarted : ChangeStarted .yield false u s (startChange .yield false u v) :=
      (startChange_started .yield false u v).of_before rfl rfl rfl rfl rfl
    exact ⟨hstarted.greensRead, rfl⟩
  · have hnot : takesYield true v = false ∨ selectNext v = none := by
      rcases h with h | h | h
      · exact .inl (Bool.eq_false_iff.mpr fun ht => h (htakes.mp ht).1)
      · exact .inl (Bool.eq_false_iff.mpr fun ht => h (htakes.mp ht).2)
      · exact .inr (hselect.trans h)
    rw [hended hnot]
    exact ⟨rfl, rfl⟩

/-! ## The settled coordinated stage (R34, R35) -/

section Coordinated
variable {s : State} {st : Stage}

theorem settledSq_holdRunning_of_not (h : holdStarts s st = false) : (settledSq s st).holdRunning = s.sq.holdRunning := by
  show (heldSq s st _).holdRunning = _
  rw [heldSq, h]
  rfl

theorem settledSq_hold_of_not (h : holdStarts s st = false) : (settledSq s st).hold =
    if tenthMark s = true ∧ s.sq.holdRunning = true then min (s.sq.hold + 1) 300 else s.sq.hold := by
  show (heldSq s st _).hold = _
  rw [heldSq, h]
  rfl

theorem settledSq_hold_of_starts (h : holdStarts s st = true) :
    (settledSq s st).holdRunning = true ∧ (settledSq s st).hold = 0 := by
  show (heldSq s st _).holdRunning = true ∧ (heldSq s st _).hold = 0
  rw [heldSq, if_pos h]
  exact ⟨rfl, rfl⟩

theorem holdStarts_eq_false (h : s.sq.yieldWasOpen = false ∨ s.ck.report.yieldOpen = true ∨ ¬PlatoonHolds s ∨ holdCapTime s = 0) :
    holdStarts s st = false := by
  refine Bool.eq_false_iff.mpr fun hs => ?_
  obtain ⟨hwas, hopen, -, hplatoon, hcap⟩ := (holdStarts_iff s st).mp hs
  rcases h with h | h | h | h
  · simp [hwas] at h
  · simp [hopen] at h
  · exact h hplatoon
  · omega

/-- In the coordinated stage an absent latch stays absent. -/
theorem settledSq_latch_coordinated (hc : coordinatedStage s = some st) (hl : s.sq.latch = none) :
    (settledSq s st).latch = none :=
  settledSq_latch_none (countedSq_latch_none hl) (fun ⟨_, hne, _⟩ => hne hc) (not_maxStands_coordinated hc)
    fun ⟨hne, _, _⟩ => hne hc

theorem mayYield_coordinated (hc : coordinatedStage s = some st) (hl : s.sq.latch = none) : MayYield s st (settledSq s st) ↔
    (s.ck.report.yieldOpen = true ∨ (settledSq s st).holdRunning = true) ∧
      (¬PlatoonHolds s ∨ lastTenth s (settledSq s st) = true) := by
  simp only [MayYield, hc, settledSq_latch_coordinated hc hl, true_and]

/-- The coordinated stage stays where YIELD may not be taken or selection finds no stage. -/
theorem coordinated_stays (h : Settled s st) (hc : coordinatedStage s = some st) (hl : s.sq.latch = none)
    (hnone : ¬MayYield s st (settledSq s st) ∨ selectNext s = none) :
    ((sqEvaluation s).ge = s.ge ∧ (sqEvaluation s).sq.phase = .complete ∧ (sqEvaluation s).sq.target = none ∧
      (sqEvaluation s).sq.latch = none) ∧
    (lastTenth s (settledSq s st) = true → (sqEvaluation s).sq.hold = 0 ∧ (sqEvaluation s).sq.holdRunning = false) ∧
    (lastTenth s (settledSq s st) = false → (sqEvaluation s).sq.hold = (settledSq s st).hold ∧
      (sqEvaluation s).sq.holdRunning = (settledSq s st).holdRunning) := by
  have hlatch := settledSq_latch_coordinated hc hl
  obtain ⟨⟨hge, hp, ht⟩, hlat, -, -, -, hhold, hrunning⟩ := settled_stayed h (hnone.imp_left fun hm => ⟨hm, hlatch⟩)
  rw [hhold, hrunning]
  refine ⟨⟨hge, hp, ht, hlat.trans hlatch⟩, fun hlast => ?_, fun hlast => ?_⟩
  · rw [afterHold, if_pos hlast]
    exact ⟨rfl, rfl⟩
  · rw [afterHold, if_neg (by simp [hlast])]
    exact ⟨rfl, rfl⟩

theorem coordinated_yields {u : Stage} (h : Settled s st) (hm : MayYield s st (settledSq s st)) (hu : selectNext s = some u) :
    ChangeStarted .yield false u s (sqEvaluation s) := by
  rw [settled_yields h hm hu]
  exact changeStarted_evaluated h (settledSq_settled h) .yield u

theorem lastTenth_of_not_running {q : SqState} (h : q.holdRunning = false) : lastTenth s q = false := by
  simp [lastTenth, h]

theorem lastTenth_iff {r : PlanRecord} (hr : activePlan s = some r) (q : SqState) :
    lastTenth s q = true ↔ (tenthMark s = true ∧ q.holdRunning = true) ∧ 10 * r.holdCap ≤ q.hold := by
  have hcap : holdCapTime s = 10 * r.holdCap := by simp only [holdCapTime, hr]
  simp [lastTenth, hcap]

end Coordinated

/-- Settles O22: each row is its latch and selection, and the settled coordinated stage takes YIELD or lets the extension count. -/
theorem stageTimersExpire : Obligations.StageTimersExpire := by
  refine ⟨fun s st img hi hm hc hp hr h1 he hf hmax => passageTimerExpiry_row hi hm hc hp hr h1 he hf hmax,
    fun s st hm hc hp hcommand hhalt hr hreached hcoord hl cause hforce hmax =>
      maxTimerExpiry_row hm hc hp hcommand hhalt hr hreached hcoord hl hforce hmax,
    fun s r hm hr hh hcap => holdExtensionExpiry_row hm hr hh hcap, fun s st h hc hl => ?_⟩
  obtain ⟨-, hreread, -, -, -, hopen⟩ := settled_common h
  have hmay := mayYield_coordinated hc hl
  refine ⟨hreread, hopen, fun hwindow hplatoon => ?_, fun hwindow hrun hplatoon => ?_, fun hwindow hrun hno => ?_,
    fun r hr hwas hclosed hplatoon => ⟨fun hcap hrun => ?_, fun hcap => ?_⟩, fun r hr hrun hno => ?_⟩
  · have hstart : holdStarts s st = false := holdStarts_eq_false (.inr (.inr (.inl hplatoon)))
    have hyield : MayYield s st (settledSq s st) := by
      rw [hmay, settledSq_holdRunning_of_not hstart]
      exact ⟨hwindow, .inl hplatoon⟩
    exact ⟨fun hu => (coordinated_stays h hc hl (.inr hu)).1, fun u hu => coordinated_yields h hyield hu⟩
  · have hrunning : (settledSq s st).holdRunning = false := by
      rw [settledSq_holdRunning_of_not (holdStarts_eq_false (.inr (.inl hwindow))), hrun]
    have hlast := lastTenth_of_not_running (s := s) hrunning
    obtain ⟨hstays, -, hstand⟩ := coordinated_stays h hc hl (.inl fun hm => by
      rcases (hmay.mp hm).2 with hp | hp
      · exact hp hplatoon
      · simp [hlast] at hp)
    exact ⟨hstays, (hstand hlast).2.trans hrunning⟩
  · have hrunning : (settledSq s st).holdRunning = false := by
      rw [settledSq_holdRunning_of_not (holdStarts_eq_false (hno.imp_right fun hp => .inr (.inl hp))), hrun]
    have hlast := lastTenth_of_not_running (s := s) hrunning
    obtain ⟨hstays, -, hstand⟩ := coordinated_stays h hc hl (.inl fun hm => by
      rcases (hmay.mp hm).1 with hp | hp
      · simp [hwindow] at hp
      · simp [hrunning] at hp)
    exact ⟨hstays, (hstand hlast).2.trans hrunning⟩
  · have hcapTime : holdCapTime s = 0 := by simp only [holdCapTime, hr, hcap, Nat.mul_zero]
    have hrunning : (settledSq s st).holdRunning = false := by
      rw [settledSq_holdRunning_of_not (holdStarts_eq_false (.inr (.inr (.inr hcapTime)))), hrun]
    have hlast := lastTenth_of_not_running (s := s) hrunning
    obtain ⟨hstays, -, hstand⟩ := coordinated_stays h hc hl (.inl fun hm => by
      rcases (hmay.mp hm).1 with hp | hp
      · simp [hclosed] at hp
      · simp [hrunning] at hp)
    exact ⟨hstays, (hstand hlast).2.trans hrunning⟩
  · have hcapTime : 0 < holdCapTime s := by
      simp only [holdCapTime, hr]
      omega
    obtain ⟨hrunning, hzero⟩ := settledSq_hold_of_starts ((holdStarts_iff s st).mpr ⟨hwas, hclosed, hc, hplatoon, hcapTime⟩)
    have hlast : lastTenth s (settledSq s st) = false := by
      refine Bool.eq_false_iff.mpr fun hl => ?_
      have := ((lastTenth_iff hr _).mp hl).2
      omega
    obtain ⟨hstays, -, hstand⟩ := coordinated_stays h hc hl (.inl fun hm => by
      rcases (hmay.mp hm).2 with hp | hp
      · exact hp hplatoon
      · simp [hlast] at hp)
    obtain ⟨hhold, hholdRunning⟩ := hstand hlast
    exact ⟨hstays, hholdRunning.trans hrunning, hhold.trans hzero⟩
  · have hstart : holdStarts s st = false := holdStarts_eq_false (hno.imp_right fun h => h.imp_right .inl)
    have hrunning : (settledSq s st).holdRunning = true := (settledSq_holdRunning_of_not hstart).trans hrun
    have hhold : (settledSq s st).hold = if tenthMark s = true then min (s.sq.hold + 1) 300 else s.sq.hold := by
      rw [settledSq_hold_of_not hstart]
      simp only [hrun, and_true]
    have hlast : lastTenth s (settledSq s st) = true ↔
        tenthMark s = true ∧ 10 * r.holdCap ≤ if tenthMark s = true then min (s.sq.hold + 1) 300 else s.sq.hold := by
      rw [lastTenth_iff hr, hhold, hrunning]
      simp only [and_true]
    dsimp only
    rw [← hlast]
    refine ⟨fun hend u hu => coordinated_yields h (hmay.mpr ⟨.inr hrunning, hend⟩) hu, fun hstay => ?_⟩
    obtain ⟨hstays, hended, hstand⟩ := coordinated_stays h hc hl (hstay.imp_left fun ⟨hp, hnl⟩ hm =>
      (hmay.mp hm).2.elim (fun hnp => hnp hp) hnl)
    refine ⟨hstays, hended, fun hnl => ?_⟩
    obtain ⟨hh, hhr⟩ := hstand (Bool.eq_false_iff.mpr hnl)
    exact ⟨hh.trans hhold, hhr.trans hrunning⟩

/-! ## The change in flight (R38, R39) -/

theorem stageGreen_iff (s : State) (u : Stage) : stageGreen s u = true ↔ ∀ g : Group, inStage s u g = true → s.ge[g].phase = .green := by
  simp only [stageGreen, List.all_eq_true, List.mem_finRange, true_implies, Bool.or_eq_true, Bool.not_eq_true', beq_iff_eq]
  refine forall_congr' fun g => ?_
  cases inStage s u g <;> simp

/-- R39: the target has become the current stage. -/
def completedSq (s : State) (u : Stage) : SqState :=
  { s.sq with
    current := some u, target := none, phase := .complete, passage := passageTime s u, passageRunning := true,
    entering := tab 16 fun _ => false, changeTruncating := false }

theorem completeChange_rests {s : State} {u : Stage} (h : s.sq.command = none ∨ ∃ b, s.sq.command = some (u, b)) :
    completeChange u s = s.withSq (completedSq s u) := by
  unfold completeChange
  rcases h with h | ⟨b, h⟩
  · rw [h]
    rfl
  · rw [h]
    exact if_pos rfl

/-- R42: the recorded redirect is taken at once. -/
theorem completeChange_redirects {s : State} {u v : Stage} {b : Bool} (h : s.sq.command = some (v, b)) (hne : v ≠ u) :
    completeChange u s = startChange .preempt b v (s.withSq (completedSq s u)) := by
  unfold completeChange
  rw [h]
  exact if_neg hne

theorem completeChange_current (u : Stage) (s : State) : (completeChange u s).sq.current = some u ∧
    (completeChange u s).sq.passage = passageTime s u ∧ (completeChange u s).sq.command = s.sq.command := by
  unfold completeChange
  dsimp only
  split
  · split <;> exact ⟨rfl, rfl, rfl⟩
  · exact ⟨rfl, rfl, rfl⟩

/-- STAGE_CHANGE_COMPLETE. -/
theorem stageChangeComplete_row {s : State} {u : Stage} (hm : s.os.mode = .run ∨ s.os.mode = .flashEntry)
    (ht : s.sq.target = some u) (hg : ∀ g : Group, inStage s u g = true → s.ge[g].phase = .green) :
    exec .stageChangeComplete s = .next (readGreens (completeChange u s)) := by
  show execStageChangeComplete s = _
  unfold execStageChangeComplete
  rw [ht]
  refine congrArg Host.Outcome.next (whenDue_true ?_ _ _)
  rw [sqRuns_of_modes hm, (stageGreen_iff s u).mpr hg]
  rfl

/-! ## An evaluation during a change -/

/-- R29, R35: the running timers counted while a change is in flight. -/
theorem countSqTimers_changing {s : State} (hp : s.sq.phase = .changing) :
    countSqTimers s = s.withSq (if tenthMark s then countRunning s.sq else s.sq) := by
  unfold countSqTimers
  rw [hp]
  split <;> rfl

/-- R38: the leave requests a change places late. -/
theorem lateLeaves_ge (s : State) (u : Stage) (g : Group) : (lateLeaves s u).ge[g] =
    if inStage s u g = false ∧ (s.ge[g].phase = .prep ∨ s.ge[g].phase = .green) ∧ s.ge[g].leave = none
    then { s.ge[g] with leave := some (if s.sq.changeTruncating = true then .truncating else .ordinary) } else s.ge[g] := by
  have hg : (lateLeaves s u).ge[g] = if !inStage s u g && (s.ge[g].phase == .prep || s.ge[g].phase == .green)
      then addLeaveIfNone (changeKind s.sq.changeTruncating) s.ge[g] else s.ge[g] :=
    mapGroups_ge (fun g x => if !inStage s u g && (x.phase == .prep || x.phase == .green)
      then addLeaveIfNone (changeKind s.sq.changeTruncating) x else x) s g
  have hcond : (!inStage s u g && (s.ge[g].phase == .prep || s.ge[g].phase == .green)) = true ↔
      inStage s u g = false ∧ (s.ge[g].phase = .prep ∨ s.ge[g].phase = .green) := by
    simp only [Bool.and_eq_true, Bool.not_eq_true', Bool.or_eq_true, beq_iff_eq]
  rw [hg]
  by_cases h : inStage s u g = false ∧ (s.ge[g].phase = .prep ∨ s.ge[g].phase = .green)
  · rw [if_pos (hcond.mpr h)]
    unfold addLeaveIfNone
    split
    · next hl => exact (if_pos ⟨h.1, h.2, hl⟩).symm
    · next k hl => exact (if_neg fun ⟨_, _, hn⟩ => absurd (hl.symm.trans hn) (by simp)).symm
  · rw [if_neg (mt hcond.mp h), if_neg fun ⟨h1, h2, _⟩ => h ⟨h1, h2⟩]

theorem latchForceOff_keeps (v : State) : KeptByChange v.sq (latchForceOff v).sq := by
  have flagged (c : Bool) : KeptByChange v.sq (if c then v.withSq { v.sq with forceOff := true } else v).sq := by
    cases c <;> exact ⟨rfl, rfl, rfl, rfl, rfl⟩
  exact flagged _

theorem startMax_keeps (v : State) : KeptByChange v.sq (startMax v).sq := by
  unfold startMax
  split
  · exact ⟨rfl, rfl, rfl, rfl, rfl⟩
  · split_ifs <;> exact ⟨rfl, rfl, rfl, rfl, rfl⟩

theorem startHold_keeps (v : State) : KeptByChange v.sq (startHold v).sq := by
  unfold startHold
  split <;> exact ⟨rfl, rfl, rfl, rfl, rfl⟩

theorem testTermination_keeps (v : State) : KeptByChange v.sq (testTermination v).sq :=
  ((latchForceOff_keeps v).trans (startMax_keeps _)).trans
    ((startHold_keeps _).trans ((testLatch_keeps _).trans (testYield_keeps _ _)))

/-- R30: while a change is in flight the tests for termination read the force-off point and end a hold extension, no more. -/
theorem termination_of_changing {v : State} {u : Stage} (ht : v.sq.target = some u) (hp : v.sq.phase = .changing)
    (hc : v.sq.command = none) (hh : v.sq.haltRequest = false) :
    ∃ hold running, runSelection (testTermination v) = v.withSq { v.sq with
      forceOff := v.sq.forceOff || crossedForceOff v u, hold := hold, holdRunning := running } := by
  have hforce : latchForceOff v = v.withSq { v.sq with forceOff := v.sq.forceOff || crossedForceOff v u } := by
    have hcond : (crossedForceOff v u && v.sq.command == none && !v.sq.haltRequest) = crossedForceOff v u := by simp [hc, hh]
    unfold latchForceOff
    dsimp only
    split
    · next t htarget =>
      obtain rfl : u = t := Option.some.inj (ht.symm.trans htarget)
      rw [hcond]
      cases crossedForceOff v u
      · rw [Bool.or_false]
        rfl
      · rw [Bool.or_true]
        rfl
    · next hn _ => exact absurd (ht.symm.trans hn) (by simp)
    · next hn _ => exact absurd (ht.symm.trans hn) (by simp)
  set w := v.withSq { v.sq with forceOff := v.sq.forceOff || crossedForceOff v u } with hw
  have hno : testsTermination w.sq = false := by
    have : w.sq.phase = .changing := hp
    simp [testsTermination, this]
  have hmax : startMax w = w := by
    unfold startMax
    split
    · rfl
    · rw [hno]
      rfl
  have hat : atCoordinated w = false := by
    rw [atCoordinated, hno]
    rfl
  have hhold : startHold w = w := by
    unfold startHold
    rw [hat]
    exact if_neg (by simp)
  have hlatch : testLatch w = w := by
    unfold testLatch
    split
    · rw [hno]
      rfl
    · rfl
  have htest : testTermination v = if lastHoldTenth w then w.withSq (endHold w.sq) else w := by
    unfold testTermination
    rw [hforce, hmax, hhold]
    dsimp only
    rw [hlatch]
    exact testYield_not (.inl (by rw [takesYield, hat]; rfl))
  rw [htest]
  split
  · exact ⟨0, false, runSelection_stands (w.withSq (endHold w.sq)) (.inr (.inr hno))⟩
  · exact ⟨v.sq.hold, v.sq.holdRunning, runSelection_stands w (.inr (.inr hno))⟩

/-- What an evaluation during a change, with nothing of PE or OS to take, leaves. -/
theorem changing_evaluation {s : State} {u : Stage} (ht : s.sq.target = some u) (hp : s.sq.phase = .changing)
    (hc : s.sq.command = none) (hh : s.sq.haltRequest = false) (ha : s.sq.arrivals = []) :
    ∃ v, followChange (countSqTimers s) = v ∧ Only [.ge, .sq] s v ∧ v.sq.haltRequest = false ∧
      sqEvaluation s = evaluated s (runSelection (testTermination v)) ∧
      (stageGreen s u = true → v.sq.current = some u) ∧
      (stageGreen s u = false → v.sq.target = some u ∧ v.sq.phase = .changing ∧ v.sq.command = none ∧
        v.sq.current = s.sq.current ∧ v.sq.latch = s.sq.latch ∧ v.sq.lastCause = s.sq.lastCause ∧
        v.sq.forceOff = s.sq.forceOff ∧ ∀ g : Group, v.ge[g] = (lateLeaves s u).ge[g]) := by
  have hcount := countSqTimers_changing hp
  set w := countSqTimers s with hw
  have hwsq : w.sq = { s.sq with maxTimer := w.sq.maxTimer, hold := w.sq.hold } := by
    rw [hcount, State.withSq_sq]
    split <;> rfl
  have hlate : (lateLeaves w u).sq = w.sq := rfl
  have hgreen : stageGreen (lateLeaves w u) u = stageGreen s u := by
    rw [Bool.eq_iff_iff, stageGreen_iff, stageGreen_iff]
    have hin (g : Group) : inStage (lateLeaves w u) u g = inStage s u g := by
      rw [hcount]
      rfl
    refine forall_congr' fun g => ?_
    have hwge : w.ge = s.ge := by rw [hcount]; rfl
    rw [hin, ((lateLeaves_motion w u).get g).1, hwge]
  have hfollow : followChange w = if stageGreen s u then completeChange u (lateLeaves w u) else lateLeaves w u := by
    have htarget : w.sq.target = some u := by rw [hwsq]; exact ht
    unfold followChange
    simp only [htarget, hgreen]
  have hquiet : (followChange w).sq.arrivals = [] ∧ (followChange w).sq.haltRequest = false := by
    have hsq : w.sq.arrivals = [] ∧ w.sq.haltRequest = false ∧ w.sq.command = none := by
      rw [hwsq]
      exact ⟨ha, hh, hc⟩
    rw [hfollow]
    split
    · rw [completeChange_rests (.inl (hlate ▸ hsq.2.2))]
      exact ⟨hsq.1, hsq.2.1⟩
    · exact ⟨hsq.1, hsq.2.1⟩
  refine ⟨followChange w, rfl, (((countSqTimers_only s).mono (by simp)).trans (followChange_only _)), hquiet.2, ?_, fun hg => ?_,
    fun hg => ?_⟩
  · have hkept := (testTermination_keeps (followChange w)).trans (runSelection_keeps _)
    obtain ⟨-, -, -, -, hhalt⟩ := hkept
    refine sqEvaluation_of_noHalt ?_ (hhalt.trans hquiet.2)
    rw [takeOrders_quiet hquiet.1 hquiet.2]
  · rw [hfollow, if_pos hg]
    exact (completeChange_current u _).1
  · rw [hfollow, if_neg (by simp [hg]), hlate, hwsq]
    refine ⟨ht, hp, hc, rfl, rfl, rfl, rfl, fun g => ?_⟩
    have hge := lateLeaves_ge w u g
    have hwge : w.ge = s.ge := by rw [hcount]; rfl
    have hin : inStage w u g = inStage s u g := by rw [hcount]; rfl
    rw [hge, lateLeaves_ge, hwge, hin, hwsq]

/-- Settles O23: the row is the completion, and an evaluation during a change follows it before it takes orders. -/
theorem stageChangeCompleteMakesTheTargetCurrent : Obligations.StageChangeCompleteMakesTheTargetCurrent := by
  refine ⟨fun s u hm ht hg => ?_, fun s u ht hp hc hh ha => ?_⟩
  · have hreach := completeChange_only u s
    obtain ⟨hcurrent, hpassage, hcommand⟩ := completeChange_current u s
    refine ⟨_, stageChangeComplete_row hm ht hg, readGreens_after hreach, readGreens_reread (hreach.pl (by simp)), hcurrent, hpassage,
      hcommand, fun h => ?_, fun v b h hne => ?_⟩
    · rw [completeChange_rests h]
      exact ⟨rfl, rfl⟩
    · rw [completeChange_redirects h hne]
      have hstarted : ChangeStarted .preempt b v s (startChange .preempt b v (s.withSq (completedSq s u))) :=
        (startChange_started .preempt b v (s.withSq (completedSq s u))).of_before rfl rfl rfl rfl rfl
      exact hstarted.greensRead
  · obtain ⟨v, -, hreach, hhalt, heval, hwhole, hpart⟩ := changing_evaluation ht hp hc hh ha
    have hreach' : Only [.ge, .sq] s ((runSelection (testTermination v)).withSq
        { (runSelection (testTermination v)).sq with yieldWasOpen := s.ck.report.yieldOpen }) :=
      ((hreach.trans (testTermination_only v)).trans (runSelection_only _)).trans ((withSq_only _ _).mono (by simp))
    obtain ⟨hcurrent, -⟩ := (testTermination_keeps v).trans (runSelection_keeps _)
    dsimp only
    rw [heval, ← stageGreen_iff]
    refine ⟨readGreens_after hreach', readGreens_reread (hreach'.pl (by simp)), fun hg => hcurrent.trans (hwhole hg), fun hg => ?_⟩
    obtain ⟨hvt, hvp, hvc, hvcur, hvl, hvlast, hvf, hvge⟩ := hpart (Bool.eq_false_iff.mpr hg)
    obtain ⟨hold, running, hend⟩ := termination_of_changing hvt hvp hvc hhalt
    have hcross : crossedForceOff v u = crossedForceOff s u := by
      unfold crossedForceOff coordinatedStage activePlan
      rw [hreach.ck (by simp), hreach.cf (by simp)]
    rw [hend]
    refine ⟨hvt, hvp, hvcur, hvl, hvlast, ?_, fun g => ?_⟩
    · show (v.sq.forceOff || crossedForceOff v u) = true ↔ _
      rw [hvf, hcross, Bool.or_eq_true, crossedForceOff_iff]
    · exact (hvge g).trans (lateLeaves_ge s u g)

end Sys2Proof.Machine


/-!
# The Preemption Unit's evaluation before its service decisions (for O50)
-/

namespace Sys2Proof.Machine

/-! ## The inputs and the timers -/

theorem sampleRequests_cls (img : Image) (s : State) (c : PreClass) :
    (sampleRequests img s).pe.cls c = filterRequest (img.cls c).onDelay (rawInput s c) (s.pe.cls c) := by
  cases c <;> simp [sampleRequests, allClasses]

theorem sampleRequests_rest (img : Image) (s : State) :
    (sampleRequests img s).pe = { s.pe with classes := (sampleRequests img s).pe.classes } := rfl

theorem countInhibit_eq (s : State) : countInhibit s = s.withPe { s.pe with inhibit := inhibitDown s } := by
  unfold countInhibit inhibitDown
  split <;> rfl

theorem countService_eq {s : State} (ht : tenthMark s = true) (v : Service) : countService v = serviceCounted s v := by
  cases v with
  | mk _ phase _ _ _ _ _ => cases phase <;> simp [countService, serviceCounted, tenthDown, ht, satInc]

theorem serviceCounted_stands {s : State} (ht : tenthMark s = false) (v : Service) : serviceCounted s v = v := by
  simp [serviceCounted, tenthDown, ht]

/-- R148, R150, R151: PE when the request states are moved. -/
def countedPe (img : Image) (s : State) : PeState :=
  let p := (sampleRequests img (countInhibit s)).pe
  if tenthMark s then countPeTimers p else p

theorem countedPe_cls (img : Image) (s : State) (c : PreClass) :
    (countedPe img s).cls c = filterRequest (img.cls c).onDelay (rawInput s c) (s.pe.cls c) := by
  have hsampled : (sampleRequests img (countInhibit s)).pe.cls c =
      filterRequest (img.cls c).onDelay (rawInput s c) (s.pe.cls c) := by
    rw [sampleRequests_cls, countInhibit_eq]
    rfl
  unfold countedPe
  dsimp only
  split
  · exact hsampled
  · exact hsampled

/-- What the count leaves but for the classes. -/
theorem countedPe_rest (img : Image) (s : State) : countedPe img s = { s.pe with
    classes := (countedPe img s).classes, inhibit := inhibitDown s, service := s.pe.service.map (serviceCounted s),
    stack := s.pe.stack.map fun r => { r with remaining := tenthDown s r.remaining }, lineDwell := tenthDown s s.pe.lineDwell,
    alert := s.pe.alert.map fun a => { a with countdown := tenthDown s a.countdown } } := by
  have hsampled : (sampleRequests img (countInhibit s)).pe =
      { s.pe with classes := (sampleRequests img (countInhibit s)).pe.classes, inhibit := inhibitDown s } := by
    rw [sampleRequests_rest, countInhibit_eq]
    rfl
  unfold countedPe
  dsimp only
  rw [hsampled]
  cases ht : tenthMark s with
  | true =>
    have hdown (n : Nat) : tenthDown s n = n - 1 := if_pos ht
    simp only [if_true, countPeTimers, hdown, funext (countService_eq ht)]
  | false =>
    have hdown (n : Nat) : tenthDown s n = n := if_neg (by simp [ht])
    simp only [Bool.false_eq_true, if_false, hdown, funext (serviceCounted_stands ht), Option.map_id', List.map_id']

theorem filterRequest_filtered (img : Image) (c : PreClass) (raw : Bool) (x : ClassState) :
    let y := filterRequest (img.cls c).onDelay raw x
    (raw = false → y.filtered = false ∧ y.count = 0) ∧
    (raw = true → x.filtered = true ∨ 10 * (img.cls c).onDelay < x.count + 1 → y.filtered = true ∧ y.count = 0) ∧
    (raw = true → x.filtered = false → x.count + 1 ≤ 10 * (img.cls c).onDelay → y.filtered = false ∧ y.count = x.count + 1) := by
  refine ⟨fun hr => ?_, fun hr h => ?_, fun hr hf hc => ?_⟩
  · simp [filterRequest, hr]
  · rcases h with h | h
    · simp [filterRequest, hr, h]
    · cases hf : x.filtered <;> simp [filterRequest, hr, hf, h]
  · simp [filterRequest, hr, hf, Nat.not_lt.mpr hc]

/-! ## The request states (Table 9.2) -/

theorem moveRequest_cls (s : State) (pe : PeState) (c d : PreClass) : (moveRequest s pe c).cls d =
    if d = c then { pe.cls c with request := nextRequest (pe.cls c) (rawInput s c) pe.inhibit } else pe.cls d := by
  have hset : (pe.setRequest c (nextRequest (pe.cls c) (rawInput s c) pe.inhibit)).cls d =
      if d = c then { pe.cls c with request := nextRequest (pe.cls c) (rawInput s c) pe.inhibit } else pe.cls d :=
    PeState.setRequest_cls ..
  unfold moveRequest
  dsimp only
  split
  · exact hset
  · exact hset

theorem moveRequest_lineDwell (s : State) (pe : PeState) (c : PreClass) : (moveRequest s pe c).lineDwell =
    if (pe.cls c).request = .requestedLine ∧ nextRequest (pe.cls c) (rawInput s c) pe.inhibit = .requestedLocal then 0
    else pe.lineDwell := by
  unfold moveRequest
  dsimp only
  split <;> rfl

/-- What the request states' moves leave of PE. -/
def RequestsOnly (p q : PeState) : Prop :=
  q.inhibit = p.inhibit ∧ q.service = p.service ∧ q.stack = p.stack ∧ q.command = p.command ∧ q.alertSerial = p.alertSerial ∧
    q.withheld = p.withheld ∧ q.ignored = p.ignored

theorem RequestsOnly.trans {p q r : PeState} (h : RequestsOnly p q) (h' : RequestsOnly q r) : RequestsOnly p r := by
  obtain ⟨h1, h2, h3, h4, h5, h6, h7⟩ := h
  obtain ⟨k1, k2, k3, k4, k5, k6, k7⟩ := h'
  exact ⟨k1.trans h1, k2.trans h2, k3.trans h3, k4.trans h4, k5.trans h5, k6.trans h6, k7.trans h7⟩

theorem moveRequest_requestsOnly (s : State) (pe : PeState) (c : PreClass) : RequestsOnly pe (moveRequest s pe c) := by
  unfold moveRequest
  dsimp only
  split <;> exact ⟨rfl, rfl, rfl, rfl, rfl, rfl, rfl⟩

theorem moveRequest_alert (s : State) (pe : PeState) (c : PreClass) : (moveRequest s pe c).alert = pe.alert := by
  unfold moveRequest
  dsimp only
  split <;> rfl

/-- Table 9.2: the three classes moved, from `p`. -/
def movedPe (s : State) (p : PeState) : PeState := allClasses.foldl (moveRequest s) p

theorem movedPe_cls (s : State) (p : PeState) (c : PreClass) :
    (movedPe s p).cls c = { p.cls c with request := nextRequest (p.cls c) (rawInput s c) p.inhibit } := by
  have hinhibit (q : PeState) (d : PreClass) : (moveRequest s q d).inhibit = q.inhibit := (moveRequest_requestsOnly s q d).1
  cases c <;> simp [movedPe, allClasses, moveRequest_cls, hinhibit]

theorem movedPe_requestsOnly (s : State) (p : PeState) : RequestsOnly p (movedPe s p) :=
  ((moveRequest_requestsOnly s p .rail).trans (moveRequest_requestsOnly s _ .emergency)).trans (moveRequest_requestsOnly s _ .transit)

theorem movedPe_alert (s : State) (p : PeState) : (movedPe s p).alert = p.alert :=
  (moveRequest_alert s _ .transit).trans ((moveRequest_alert s _ .emergency).trans (moveRequest_alert s p .rail))

/-- Only EMERGENCY has a line request, so only its input stops the line dwell timer. -/
theorem movedPe_lineDwell (s : State) {p : PeState} (law : RequestsOk p) : (movedPe s p).lineDwell =
    if (p.cls .emergency).request = .requestedLine ∧
      nextRequest (p.cls .emergency) (rawInput s .emergency) p.inhibit = .requestedLocal then 0 else p.lineDwell := by
  have hstands (q : PeState) (c : PreClass) (h : (q.cls c).request ≠ .requestedLine) :
      (moveRequest s q c).lineDwell = q.lineDwell := by
    rw [moveRequest_lineDwell, if_neg fun ⟨hline, _⟩ => h hline]
  have hrail : (p.cls .rail).request ≠ .requestedLine := fun h => absurd ((law .rail).1 h) (by decide)
  have htransit : ((moveRequest s (moveRequest s p .rail) .emergency).cls .transit).request ≠ .requestedLine := by
    rw [moveRequest_cls, if_neg (by decide), moveRequest_cls, if_neg (by decide)]
    exact fun h => absurd ((law .transit).1 h) (by decide)
  have hcls : (moveRequest s p .rail).cls .emergency = p.cls .emergency := by
    rw [moveRequest_cls, if_neg (by decide)]
  have hinhibit : (moveRequest s p .rail).inhibit = p.inhibit := (moveRequest_requestsOnly s p .rail).1
  calc (movedPe s p).lineDwell = (moveRequest s (moveRequest s p .rail) .emergency).lineDwell := hstands _ .transit htransit
    _ = _ := by rw [moveRequest_lineDwell, hcls, hinhibit, hstands p .rail hrail]

/-! ## The line request (R159) -/

/-- R159: the pending line alert of `p` raises a line request. -/
def LineRaises (p : PeState) : Prop := ∃ a, p.alert = some a ∧ a.countdown = 0

theorem takeLineAlert_not {p : PeState} (img : Image) (h : ¬LineRaises p) : takeLineAlert img p = p := by
  unfold takeLineAlert
  split
  · next a ha => exact if_neg fun hz => h ⟨a, ha, hz⟩
  · rfl

theorem takeLineAlert_raises {p : PeState} (img : Image) (h : LineRaises p) :
    takeLineAlert img p = { raiseLineRequest img p with alert := none } := by
  obtain ⟨a, ha, hz⟩ := h
  unfold takeLineAlert
  rw [ha]
  exact if_pos hz

theorem raiseLineRequest_raised {p : PeState} (img : Image)
    (h : (p.cls .emergency).request = .none ∨ (p.cls .emergency).request = .requestedLine) :
    raiseLineRequest img p = { p.setRequest .emergency .requestedLine with lineDwell := 10 * (img.cls .emergency).lineDwell } := by
  unfold raiseLineRequest
  rcases h with h | h <;> rw [h]

theorem raiseLineRequest_stands {p : PeState} (img : Image)
    (h : ¬((p.cls .emergency).request = .none ∨ (p.cls .emergency).request = .requestedLine)) : raiseLineRequest img p = p := by
  unfold raiseLineRequest
  split
  · next hn => exact absurd (.inl hn) h
  · next hl => exact absurd (.inr hl) h
  · rfl

theorem takeLineAlert_requestsOnly (img : Image) (p : PeState) : RequestsOnly p (takeLineAlert img p) := by
  unfold takeLineAlert raiseLineRequest
  split
  · split
    · dsimp only
      split <;> exact ⟨rfl, rfl, rfl, rfl, rfl, rfl, rfl⟩
    · exact ⟨rfl, rfl, rfl, rfl, rfl, rfl, rfl⟩
  · exact ⟨rfl, rfl, rfl, rfl, rfl, rfl, rfl⟩

theorem takeLineAlert_cls {c : PreClass} (img : Image) (p : PeState) (hc : c ≠ .emergency) :
    (takeLineAlert img p).cls c = p.cls c := by
  have hset (r : Request) : (p.setRequest .emergency r).cls c = p.cls c := by rw [PeState.setRequest_cls, if_neg hc]
  unfold takeLineAlert raiseLineRequest
  split
  · split
    · dsimp only
      split
      · exact hset _
      · exact hset _
      · rfl
    · rfl
  · rfl

theorem endLineDwell_keeps (p : PeState) : RequestsOnly p (endLineDwell p) ∧ (endLineDwell p).lineDwell = p.lineDwell ∧
    (endLineDwell p).alert = p.alert := by
  unfold endLineDwell
  split <;> exact ⟨⟨rfl, rfl, rfl, rfl, rfl, rfl, rfl⟩, rfl, rfl⟩

theorem endLineDwell_cls {c : PreClass} (p : PeState) (hc : c ≠ .emergency) : (endLineDwell p).cls c = p.cls c := by
  unfold endLineDwell
  split
  · rw [PeState.setRequest_cls, if_neg hc]
  · rfl

theorem endLineDwell_emergency (p : PeState) : (endLineDwell p).cls .emergency =
    if (p.cls .emergency).request = .requestedLine ∧ p.lineDwell = 0 then { p.cls .emergency with request := .none }
    else p.cls .emergency := by
  unfold endLineDwell
  split
  · rw [PeState.setRequest_cls, if_pos rfl]
  · rfl

section LineTaken
variable {p : PeState} (img : Image)

theorem lineTaken_quiet (h : ¬LineRaises p) :
    (endLineDwell (takeLineAlert img p)).cls .emergency =
      (if (p.cls .emergency).request = .requestedLine ∧ p.lineDwell = 0 then { p.cls .emergency with request := .none }
        else p.cls .emergency) ∧
    (endLineDwell (takeLineAlert img p)).lineDwell = p.lineDwell ∧ (endLineDwell (takeLineAlert img p)).alert = p.alert := by
  obtain ⟨-, hline, halert⟩ := endLineDwell_keeps p
  rw [takeLineAlert_not img h]
  exact ⟨endLineDwell_emergency p, hline, halert⟩

theorem lineTaken_raised (h : LineRaises p)
    (hr : (p.cls .emergency).request = .none ∨ (p.cls .emergency).request = .requestedLine) :
    (endLineDwell (takeLineAlert img p)).cls .emergency = { p.cls .emergency with
      request := if 10 * (img.cls .emergency).lineDwell = 0 then .none else .requestedLine } ∧
    (endLineDwell (takeLineAlert img p)).lineDwell = 10 * (img.cls .emergency).lineDwell ∧
    (endLineDwell (takeLineAlert img p)).alert = none := by
  have htaken : takeLineAlert img p = { p.setRequest .emergency .requestedLine with
      lineDwell := 10 * (img.cls .emergency).lineDwell, alert := none } := by
    rw [takeLineAlert_raises img h, raiseLineRequest_raised img hr]
  have hcls : (takeLineAlert img p).cls .emergency = { p.cls .emergency with request := .requestedLine } := by
    rw [htaken]
    exact (PeState.setRequest_cls p .emergency .emergency .requestedLine).trans (if_pos rfl)
  have hdwell : (takeLineAlert img p).lineDwell = 10 * (img.cls .emergency).lineDwell := by rw [htaken]
  obtain ⟨-, hline, halert⟩ := endLineDwell_keeps (takeLineAlert img p)
  refine ⟨?_, hline.trans hdwell, halert.trans (by rw [htaken])⟩
  rw [endLineDwell_emergency, hcls, hdwell]
  simp only [true_and]
  split <;> rfl

theorem lineTaken_kept (h : LineRaises p)
    (hr : ¬((p.cls .emergency).request = .none ∨ (p.cls .emergency).request = .requestedLine)) :
    (endLineDwell (takeLineAlert img p)).cls .emergency = p.cls .emergency ∧
    (endLineDwell (takeLineAlert img p)).lineDwell = p.lineDwell ∧ (endLineDwell (takeLineAlert img p)).alert = none := by
  have htaken : takeLineAlert img p = { p with alert := none } := by
    rw [takeLineAlert_raises img h, raiseLineRequest_stands img hr]
  have hcls : (takeLineAlert img p).cls .emergency = p.cls .emergency := by
    rw [htaken]
    rfl
  obtain ⟨-, hline, halert⟩ := endLineDwell_keeps (takeLineAlert img p)
  refine ⟨?_, hline.trans (by rw [htaken]), halert.trans (by rw [htaken])⟩
  rw [endLineDwell_emergency, hcls, if_neg fun hn => hr (.inr hn.1)]

end LineTaken

/-! ## PE's evaluation before its decisions -/

/-- R148 to R151, R159: PE when its service decisions begin. -/
def evaluatedPe (img : Image) (s : State) : PeState := endLineDwell (takeLineAlert img (movedPe s (countedPe img s)))

theorem peWork_run {s : State} {img : Image} (hi : s.cf.image = some img) (hm : s.os.mode = .run) :
    peWork s = serviceDecisions img (s.withPe (evaluatedPe img s)) := by
  have hcounted : (if tenthMark (countInhibit s) then
      (sampleRequests img (countInhibit s)).withPe (countPeTimers (sampleRequests img (countInhibit s)).pe)
      else sampleRequests img (countInhibit s)) = s.withPe (countedPe img s) := by
    have hsampled : sampleRequests img (countInhibit s) = s.withPe (sampleRequests img (countInhibit s)).pe := by
      rw [countInhibit_eq]
      rfl
    have hmark : tenthMark (countInhibit s) = tenthMark s := by
      rw [countInhibit_eq]
      rfl
    rw [hmark]
    unfold countedPe
    dsimp only
    cases tenthMark s
    · exact hsampled
    · rw [if_pos rfl, if_pos rfl]
      conv_lhs => rw [hsampled]
      rfl
  unfold peWork peEvaluation
  simp only [hi, hm, if_true]
  rw [hcounted]
  rfl

theorem peWork_of_ne {s : State} {img : Image} (hi : s.cf.image = some img) (hm : s.os.mode ≠ .run) :
    peWork s = s.withPe { s.pe with inhibit := inhibitDown s } := by
  unfold peWork
  simp only [hi]
  rw [if_neg hm, countInhibit_eq]

section Evaluated
variable {img : Image} {s : State}

/-- The class's input after this tick's sample. -/
def sampledClass (img : Image) (s : State) (c : PreClass) : ClassState :=
  filterRequest (img.cls c).onDelay (rawInput s c) (s.pe.cls c)

/-- Table 9.2: where the rows that read the input lead. -/
def movedRequest (img : Image) (s : State) (c : PreClass) : Request :=
  nextRequest (sampledClass img s c) (rawInput s c) (inhibitDown s)

theorem sampledClass_request (c : PreClass) : (sampledClass img s c).request = (s.pe.cls c).request :=
  filterRequest_request ..

theorem sampledClass_off {c : PreClass} (h : rawInput s c = false) : (sampledClass img s c).filtered = false :=
  ((filterRequest_filtered img c (rawInput s c) (s.pe.cls c)).1 h).1

theorem moved_cls (c : PreClass) :
    (movedPe s (countedPe img s)).cls c = { sampledClass img s c with request := movedRequest img s c } := by
  have hinhibit : (countedPe img s).inhibit = inhibitDown s := by rw [countedPe_rest]
  rw [movedPe_cls, countedPe_cls, hinhibit]
  rfl

theorem counted_ok (law : RequestsOk s.pe) : RequestsOk (countedPe img s) := fun c => by
  have h := law c
  unfold ClassOk at *
  rwa [countedPe_cls, filterRequest_request]

theorem moved_lineDwell (law : RequestsOk s.pe) : (movedPe s (countedPe img s)).lineDwell =
    if (s.pe.cls .emergency).request = .requestedLine ∧ movedRequest img s .emergency = .requestedLocal then 0
    else tenthDown s s.pe.lineDwell := by
  have hinhibit : (countedPe img s).inhibit = inhibitDown s := by rw [countedPe_rest]
  have hline : (countedPe img s).lineDwell = tenthDown s s.pe.lineDwell := by rw [countedPe_rest]
  rw [movedPe_lineDwell s (counted_ok law), countedPe_cls, filterRequest_request, hinhibit, hline]
  rfl

theorem moved_alert : (movedPe s (countedPe img s)).alert =
    s.pe.alert.map fun a => { a with countdown := tenthDown s a.countdown } := by
  rw [movedPe_alert, countedPe_rest]

theorem lineRaises_iff : LineRaises (movedPe s (countedPe img s)) ↔ AlertDue s := by
  unfold LineRaises AlertDue
  rw [moved_alert]
  constructor
  · rintro ⟨a, ha, hz⟩
    obtain ⟨b, hb, rfl⟩ := Option.map_eq_some_iff.mp ha
    exact ⟨b, hb, hz⟩
  · rintro ⟨b, hb, hz⟩
    exact ⟨_, Option.map_eq_some_iff.mpr ⟨b, hb, rfl⟩, hz⟩

theorem evaluated_other {c : PreClass} (hc : c ≠ .emergency) :
    (evaluatedPe img s).cls c = { sampledClass img s c with request := movedRequest img s c } := by
  rw [evaluatedPe, endLineDwell_cls _ hc, takeLineAlert_cls img _ hc, moved_cls]

/-- EMERGENCY without a line request that falls due. -/
theorem evaluated_quiet (law : RequestsOk s.pe) (h : ¬AlertDue s) :
    (evaluatedPe img s).cls .emergency = { sampledClass img s .emergency with
      request := if movedRequest img s .emergency = .requestedLine ∧ tenthDown s s.pe.lineDwell = 0 then .none
        else movedRequest img s .emergency } ∧
    (evaluatedPe img s).lineDwell = (movedPe s (countedPe img s)).lineDwell ∧
    (evaluatedPe img s).alert = s.pe.alert.map fun a => { a with countdown := tenthDown s a.countdown } := by
  obtain ⟨hcls, hline, halert⟩ := lineTaken_quiet img (mt lineRaises_iff.mp h)
  refine ⟨hcls.trans ?_, hline, halert.trans moved_alert⟩
  rw [moved_cls]
  dsimp only
  by_cases hr : movedRequest img s .emergency = .requestedLine
  · have hdwell : (movedPe s (countedPe img s)).lineDwell = tenthDown s s.pe.lineDwell := by
      rw [moved_lineDwell law, if_neg (by simp [hr])]
    rw [hdwell]
    split <;> rfl
  · rw [if_neg fun hn => hr hn.1, if_neg fun hn => hr hn.1]

/-- EMERGENCY with a line request raised. -/
theorem evaluated_raised (h : AlertDue s)
    (hr : movedRequest img s .emergency = .none ∨ movedRequest img s .emergency = .requestedLine) :
    (evaluatedPe img s).cls .emergency = { sampledClass img s .emergency with
      request := if 10 * (img.cls .emergency).lineDwell = 0 then .none else .requestedLine } ∧
    (evaluatedPe img s).lineDwell = 10 * (img.cls .emergency).lineDwell ∧ (evaluatedPe img s).alert = none := by
  obtain ⟨hcls, hline, halert⟩ := lineTaken_raised img (lineRaises_iff.mpr h) (by rw [moved_cls]; exact hr)
  refine ⟨hcls.trans ?_, hline, halert⟩
  rw [moved_cls]

/-- EMERGENCY where the line request that falls due raises nothing. -/
theorem evaluated_kept (h : AlertDue s)
    (hr : ¬(movedRequest img s .emergency = .none ∨ movedRequest img s .emergency = .requestedLine)) :
    (evaluatedPe img s).cls .emergency = { sampledClass img s .emergency with request := movedRequest img s .emergency } ∧
    (evaluatedPe img s).lineDwell = (movedPe s (countedPe img s)).lineDwell ∧ (evaluatedPe img s).alert = none := by
  obtain ⟨hcls, hline, halert⟩ := lineTaken_kept img (lineRaises_iff.mpr h) (by rw [moved_cls]; exact hr)
  exact ⟨hcls.trans (moved_cls _), hline, halert⟩

end Evaluated

/-! ## The rows of Table 9.2 -/

section Rows
variable {img : Image} {s : State} {c : PreClass}

/-- From NONE and REQUESTED-LOCAL. -/
theorem movedRequest_open (h : (s.pe.cls c).request = .none ∨ (s.pe.cls c).request = .requestedLocal) :
    movedRequest img s c = if (sampledClass img s c).filtered = true then .requestedLocal else .none := by
  unfold movedRequest nextRequest
  rw [sampledClass_request]
  rcases h with h | h <;> rw [h]

theorem movedRequest_line (h : (s.pe.cls c).request = .requestedLine) :
    movedRequest img s c = if (sampledClass img s c).filtered = true then .requestedLocal else .requestedLine := by
  unfold movedRequest nextRequest
  rw [sampledClass_request, h]

theorem movedRequest_lockedOut (h : (s.pe.cls c).request = .lockedOut) :
    movedRequest img s c = if rawInput s c = true then .lockedOut else .none := by
  unfold movedRequest nextRequest
  rw [sampledClass_request, h]

theorem movedRequest_inhibited (h : (s.pe.cls c).request = .inhibited) :
    movedRequest img s c = if 0 < inhibitDown s then .inhibited
      else if (sampledClass img s c).filtered = true then .requestedLocal else .none := by
  unfold movedRequest nextRequest
  rw [sampledClass_request, h]
  dsimp only
  rcases Nat.eq_zero_or_pos (inhibitDown s) with hz | hz
  · rw [if_pos hz, if_neg (show ¬0 < inhibitDown s by omega)]
  · rw [if_neg (show ¬inhibitDown s = 0 by omega), if_pos hz]

end Rows

section Moved
variable {img : Image} {s : State}

theorem evaluated_filtered (law : RequestsOk s.pe) (c : PreClass) :
    ((evaluatedPe img s).cls c).filtered = (sampledClass img s c).filtered ∧
      ((evaluatedPe img s).cls c).count = (sampledClass img s c).count := by
  by_cases hc : c = .emergency
  · subst hc
    by_cases hdue : AlertDue s
    · by_cases hr : movedRequest img s .emergency = .none ∨ movedRequest img s .emergency = .requestedLine
      · rw [(evaluated_raised hdue hr).1]
        exact ⟨rfl, rfl⟩
      · rw [(evaluated_kept hdue hr).1]
        exact ⟨rfl, rfl⟩
    · rw [(evaluated_quiet law hdue).1]
      exact ⟨rfl, rfl⟩
  · rw [evaluated_other hc]
    exact ⟨rfl, rfl⟩

/-- Table 9.2 for RAIL and TRANSIT. -/
theorem requestMoved_other (law : RequestsOk s.pe) {c : PreClass} (hc : c ≠ .emergency) :
    RequestMoved img c (rawInput s c) s (s.withPe (evaluatedPe img s)) := by
  have hinhibit : (evaluatedPe img s).inhibit = inhibitDown s := by
    rw [evaluatedPe, (endLineDwell_keeps _).1.1, (takeLineAlert_requestsOnly img _).1, (movedPe_requestsOnly s _).1, countedPe_rest]
  unfold RequestMoved
  rw [State.withPe_pe, evaluated_other hc, hinhibit]
  refine ⟨fun ⟨hx, hraw⟩ => ?_, movedRequest_inhibited, fun _ => ⟨movedRequest_open, fun hx hraw => ?_, fun hx => ?_⟩,
    fun h => absurd h hc⟩
  · rw [movedRequest_lockedOut hx, if_pos hraw]
  · rw [movedRequest_lockedOut hx, if_neg (by simp [hraw])]
  · exact absurd ((law c).1 hx) hc

/-- Table 9.2 and R159 for EMERGENCY. -/
theorem requestMoved_emergency (law : RequestsOk s.pe) :
    RequestMoved img .emergency (rawInput s .emergency) s (s.withPe (evaluatedPe img s)) := by
  have hnoInhibit : (s.pe.cls .emergency).request ≠ .inhibited := fun h => absurd ((law .emergency).2 h) (by decide)
  have hfiltered := (evaluated_filtered (img := img) law .emergency).1
  unfold RequestMoved
  rw [State.withPe_pe]
  dsimp only
  rw [hfiltered]
  refine ⟨fun ⟨hx, hraw⟩ => ?_, fun hx => absurd hx hnoInhibit, fun hno => ?_, fun _ hdue hdwell hheld => ?_⟩
  · have hmoved : movedRequest img s .emergency = .lockedOut := by rw [movedRequest_lockedOut hx, if_pos hraw]
    by_cases hdue : AlertDue s
    · rw [(evaluated_kept hdue (by simp [hmoved])).1, hmoved]
    · rw [(evaluated_quiet law hdue).1, hmoved]
      simp
  · have hquiet := hno.resolve_left fun h => h rfl
    have hline : ∀ {r : Request}, movedRequest img s .emergency = r → r ≠ .requestedLine →
        ((evaluatedPe img s).cls .emergency).request = r := fun hr hne => by
      rw [(evaluated_quiet law hquiet).1]
      exact (if_neg fun h => hne (hr.symm.trans h.1)).trans hr
    refine ⟨fun hx => hline (movedRequest_open hx) (by split <;> simp), fun hx hraw => ?_, fun hx => ?_⟩
    · exact hline ((movedRequest_lockedOut hx).trans (if_neg (by simp [hraw]))) (by simp)
    · by_cases hon : (sampledClass img s .emergency).filtered = true
      · rw [if_pos hon]
        exact hline ((movedRequest_line hx).trans (if_pos hon)) (by simp)
      · rw [if_neg hon, (evaluated_quiet law hquiet).1, (movedRequest_line hx).trans (if_neg hon)]
        simp
  · have hraises {r : Request} (hr : movedRequest img s .emergency = r) (hopen : r = .none ∨ r = .requestedLine) :
        ((evaluatedPe img s).cls .emergency).request = .requestedLine := by
      rw [(evaluated_raised hdue (by rw [hr]; exact hopen)).1]
      exact if_neg (by omega)
    by_cases hon : (sampledClass img s .emergency).filtered = true
    · have hmoved : movedRequest img s .emergency = .requestedLocal := by
        cases hx : (s.pe.cls .emergency).request with
        | none => exact (movedRequest_open (.inl hx)).trans (if_pos hon)
        | requestedLocal => exact (movedRequest_open (.inr hx)).trans (if_pos hon)
        | requestedLine => exact (movedRequest_line hx).trans (if_pos hon)
        | lockedOut =>
          have hraw : rawInput s .emergency = true := by
            by_contra hraw
            rw [sampledClass_off (by simpa using hraw)] at hon
            simp at hon
          exact absurd ⟨hx, hraw⟩ hheld
        | inhibited => exact absurd hx hnoInhibit
      rw [if_pos hon, (evaluated_kept hdue (by simp [hmoved])).1, hmoved]
    · rw [if_neg hon]
      cases hx : (s.pe.cls .emergency).request with
      | none => exact hraises ((movedRequest_open (.inl hx)).trans (if_neg hon)) (.inl rfl)
      | requestedLocal => exact hraises ((movedRequest_open (.inr hx)).trans (if_neg hon)) (.inl rfl)
      | requestedLine => exact hraises ((movedRequest_line hx).trans (if_neg hon)) (.inr rfl)
      | lockedOut =>
        have hraw : ¬rawInput s .emergency = true := fun hraw => hheld ⟨hx, hraw⟩
        exact hraises ((movedRequest_lockedOut hx).trans (if_neg hraw)) (.inl rfl)
      | inhibited => exact absurd hx hnoInhibit

/-- R159: the pending line alert and the line dwell timer. -/
theorem lineRequestMoved (law : RequestsOk s.pe) :
    LineRequestMoved img ((s.pe.cls .emergency).request = .lockedOut ∧ rawInput s .emergency = true) s
      (s.withPe (evaluatedPe img s)) := by
  have hnoInhibit : (s.pe.cls .emergency).request ≠ .inhibited := fun h => absurd ((law .emergency).2 h) (by decide)
  have hfiltered := (evaluated_filtered (img := img) law .emergency).1
  have hdwell : (movedPe s (countedPe img s)).lineDwell = if (s.pe.cls .emergency).request = .requestedLine ∧
      (sampledClass img s .emergency).filtered = true then 0 else tenthDown s s.pe.lineDwell := by
    rw [moved_lineDwell law]
    refine if_congr (and_congr_right fun hx => ?_) rfl rfl
    rw [movedRequest_line hx]
    cases (sampledClass img s .emergency).filtered <;> simp
  have hcounted (h : (evaluatedPe img s).lineDwell = (movedPe s (countedPe img s)).lineDwell) :
      ((s.pe.cls .emergency).request = .requestedLine → (sampledClass img s .emergency).filtered = true →
        (evaluatedPe img s).lineDwell = 0) ∧
      ((s.pe.cls .emergency).request ≠ .requestedLine ∨ ¬(sampledClass img s .emergency).filtered = true →
        (evaluatedPe img s).lineDwell = tenthDown s s.pe.lineDwell) := by
    rw [h, hdwell]
    exact ⟨fun hx hon => if_pos ⟨hx, hon⟩, fun hno => if_neg fun ⟨hx, hon⟩ => hno.elim (fun hn => hn hx) fun hn => hn hon⟩
  unfold LineRequestMoved
  rw [State.withPe_pe]
  dsimp only
  rw [hfiltered]
  have hdue_alert (hdue : AlertDue s) : (evaluatedPe img s).alert = none := by
    by_cases hr : movedRequest img s .emergency = .none ∨ movedRequest img s .emergency = .requestedLine
    · exact (evaluated_raised hdue hr).2.2
    · exact (evaluated_kept hdue hr).2.2
  refine ⟨hdue_alert, fun hdue => (evaluated_quiet law hdue).2.2, fun hdue hon hheld => ?_, fun hno => ?_⟩
  · have hopen : movedRequest img s .emergency = .none ∨ movedRequest img s .emergency = .requestedLine := by
      cases hx : (s.pe.cls .emergency).request with
      | none => exact .inl ((movedRequest_open (.inl hx)).trans (if_neg hon))
      | requestedLocal => exact .inl ((movedRequest_open (.inr hx)).trans (if_neg hon))
      | requestedLine => exact .inr ((movedRequest_line hx).trans (if_neg hon))
      | lockedOut => exact .inl ((movedRequest_lockedOut hx).trans (if_neg fun hraw => hheld ⟨hx, hraw⟩))
      | inhibited => exact absurd hx hnoInhibit
    exact (evaluated_raised hdue hopen).2.1
  · by_cases hdue : AlertDue s
    · have hkept : ¬(movedRequest img s .emergency = .none ∨ movedRequest img s .emergency = .requestedLine) := by
        rcases hno.resolve_left (not_not.mpr hdue) with hon | ⟨hx, hraw⟩
        · cases hx : (s.pe.cls .emergency).request with
          | none => simp [(movedRequest_open (img := img) (.inl hx)).trans (if_pos hon)]
          | requestedLocal => simp [(movedRequest_open (img := img) (.inr hx)).trans (if_pos hon)]
          | requestedLine => simp [(movedRequest_line (img := img) hx).trans (if_pos hon)]
          | lockedOut =>
            have hraw : rawInput s .emergency = true := by
              by_contra hraw
              rw [sampledClass_off (by simpa using hraw)] at hon
              simp at hon
            simp [(movedRequest_lockedOut (img := img) hx).trans (if_pos hraw)]
          | inhibited => exact absurd hx hnoInhibit
        · simp [(movedRequest_lockedOut (img := img) hx).trans (if_pos hraw)]
      exact hcounted (evaluated_kept hdue hkept).2.1
    · exact hcounted (evaluated_quiet law hdue).2.1

theorem evaluated_requestsOnly (img : Image) (s : State) : RequestsOnly (countedPe img s) (evaluatedPe img s) :=
  ((movedPe_requestsOnly s _).trans (takeLineAlert_requestsOnly img _)).trans (endLineDwell_keeps _).1

/-- R148 to R151, R159: what PE's evaluation does before its service decisions. -/
theorem peEvaluated (law : RequestsOk s.pe) : PeEvaluated img s (s.withPe (evaluatedPe img s)) := by
  obtain ⟨h1, h2, h3, h4, h5, h6, h7⟩ := evaluated_requestsOnly img s
  rw [countedPe_rest] at h1 h2 h3 h4 h5 h6 h7
  refine ⟨withPe_only s _, h1, h2, h3, h4, h5, h6, h7, fun c => ⟨?_, ?_⟩, lineRequestMoved law⟩
  · obtain ⟨hf, hn⟩ := evaluated_filtered (img := img) law c
    have h := filterRequest_filtered img c (rawInput s c) (s.pe.cls c)
    unfold RequestFiltered
    rw [State.withPe_pe]
    dsimp only
    rw [hf, hn]
    exact h
  · by_cases hc : c = .emergency
    · subst hc
      exact requestMoved_emergency law
    · exact requestMoved_other law hc

end Moved

end Sys2Proof.Machine


/-!
# The service decisions of the Preemption Unit, and the rows that raise and end requests (O50)

An evaluation that leaves a service in ENTRY or DWELL makes one decision at most: it starts a service, pushes one or ends one
(`decisions_settle`, `decisions_push`). From the state that this decision leads to (`Steady`) only the entry into DWELL follows,
whichever free order the decisions are taken in.
-/

namespace Sys2Proof.Machine

/-! ## The decisions that leave PE as it is -/

theorem requested_of_classes {p q : PeState} (h : q.classes = p.classes) (c : PreClass) : q.requested c = p.requested c := by
  rw [PeState.requested, PeState.requested, show q.cls c = p.cls c from congrArg (·[classIndex c]) h]

theorem enterDwell_idle {img : Image} {s : State} (h : s.pe.service = none) : enterDwell img s = s :=
  enterDwell_away fun v y hv => absurd (h.symm.trans hv) (by simp)

theorem enterDwell_of_ne {img : Image} {s : State} {v : Service} (hv : s.pe.service = some v) (hp : v.phase ≠ .entry) :
    enterDwell img s = s :=
  enterDwell_away fun _ _ hw hp' => absurd (Option.some.inj (hv.symm.trans hw) ▸ hp') hp

theorem enterDwell_targetAway {img : Image} {s : State} {v : Service} (hv : s.pe.service = some v)
    (haway : TargetAway img s v.cls) : enterDwell img s = s :=
  enterDwell_away fun _ y hw _ hy => haway y (Option.some.inj (hv.symm.trans hw) ▸ hy)

/-- R152: the entry into DWELL is complete or does nothing. -/
theorem enterDwell_cases (img : Image) (s : State) : enterDwell img s = s ∨
    ∃ v y, s.pe.service = some v ∧ v.phase = .entry ∧ (img.cls v.cls).target = some y ∧ stageComplete s y = true := by
  by_cases h : ∃ v y, s.pe.service = some v ∧ v.phase = .entry ∧ (img.cls v.cls).target = some y ∧ stageComplete s y = true
  · exact .inr h
  · refine .inl (enterDwell_away fun v y hv hp hy => ?_)
    by_contra hn
    exact h ⟨v, y, hv, hp, hy, by simpa using hn⟩

theorem enterDwell_twice (img : Image) (s : State) : enterDwell img (enterDwell img s) = enterDwell img s := by
  rcases enterDwell_cases img s with h | ⟨v, y, hv, hp, hy, hc⟩
  · rw [h]
    exact h
  · obtain ⟨-, -, b, hservice⟩ := enterDwell_complete hv hp hy hc
    exact enterDwell_of_ne hservice (nofun)

theorem exitDwell_idle {img : Image} {s : State} (h : s.pe.service = none) : exitDwell img s = s := by
  unfold exitDwell
  rw [h]

theorem exitDwell_of_ne {img : Image} {s : State} {v : Service} (hv : s.pe.service = some v) (hp : v.phase ≠ .dwell) :
    exitDwell img s = s := by
  unfold exitDwell
  rw [hv]
  dsimp only
  rw [if_neg fun h => hp h.1, if_neg fun h => hp h.1]

/-- R153: neither end of DWELL holds. -/
theorem exitDwell_stays {img : Image} {s : State} {v : Service} (hv : s.pe.service = some v) (hr : 0 < v.remaining)
    (hd : s.pe.requested v.cls = true ∨ v.elapsed < 10 * (img.cls v.cls).minDwell) : exitDwell img s = s := by
  unfold exitDwell
  rw [hv]
  dsimp only
  rw [if_neg (by omega), if_neg]
  rintro ⟨-, hreq, helapsed⟩
  rcases hd with hd | hd
  · exact absurd (hd.symm.trans hreq) (by decide)
  · omega

theorem finishExit_stands {img : Image} {s : State} (h : ∀ v, s.pe.service = some v → v.phase ≠ .exit) :
    finishExit img s = s := by
  refine if_neg fun hseen => ?_
  unfold exitSeen at hseen
  split at hseen
  next v hv =>
    rw [Bool.and_eq_true, beq_iff_eq] at hseen
    exact h v hv hseen.1
  next => exact absurd hseen (by decide)

theorem takeOver_stands {img : Image} {s : State}
    (h : ∀ v c, s.pe.service = some v → s.pe.requested c = true → higherClass c v.cls = false) : takeOver img s = s := by
  unfold takeOver
  split
  next v c hv hc =>
    rw [if_neg]
    rw [h v c hv ((highestRequested_eq _ c).mp hc).1]
    decide
  next => rfl

theorem startIfIdle_serving {img : Image} {s : State} {v : Service} (hv : s.pe.service = some v) : startIfIdle img s = s := by
  unfold startIfIdle
  rw [hv]

theorem startIfIdle_quiet {img : Image} {s : State} (h : ∀ c, s.pe.requested c = false) : startIfIdle img s = s := by
  unfold startIfIdle
  rw [(highestRequested_none _).mpr h]
  split
  next hc => exact absurd hc (by simp)
  next => rfl

theorem startIfIdle_starts {img : Image} {s : State} {c : PreClass} (hv : s.pe.service = none)
    (hc : s.pe.highestRequested = some c) : startIfIdle img s = startService img c s := by
  unfold startIfIdle
  rw [hv, hc]

/-! ## From a steady state only the entry into DWELL follows -/

/-- R153 to R155: the active service is overtaken by no class, is not in EXIT, and does not leave DWELL at this evaluation, also
where it enters DWELL there. -/
structure Steady (img : Image) (s : State) : Prop where
  first : ∀ v c, s.pe.service = some v → s.pe.requested c = true → higherClass c v.cls = false
  notExit : ∀ v, s.pe.service = some v → v.phase ≠ .exit
  entry : ∀ v, s.pe.service = some v → v.phase = .entry →
    TargetAway img s v.cls ∨ (0 < v.remaining ∧ s.pe.requested v.cls = true)
  dwell : ∀ v, s.pe.service = some v → v.phase = .dwell →
    0 < v.remaining ∧ (s.pe.requested v.cls = true ∨ v.elapsed < 10 * (img.cls v.cls).minDwell)

theorem Steady.of_idle {img : Image} {s : State} (h : s.pe.service = none) : Steady img s where
  first _ _ hv := absurd (h.symm.trans hv) (by simp)
  notExit _ hv := absurd (h.symm.trans hv) (by simp)
  entry _ hv := absurd (h.symm.trans hv) (by simp)
  dwell _ hv := absurd (h.symm.trans hv) (by simp)

/-- A service in ENTRY. -/
theorem Steady.of_entry {img : Image} {s : State} {v : Service} (hv : s.pe.service = some v) (hp : v.phase = .entry)
    (hfirst : ∀ c, s.pe.requested c = true → higherClass c v.cls = false)
    (hstays : TargetAway img s v.cls ∨ (0 < v.remaining ∧ s.pe.requested v.cls = true)) : Steady img s := by
  have hw {w : Service} (h : s.pe.service = some w) : w = v := Option.some.inj (h.symm.trans hv)
  exact {
    first := fun w c h => hw h ▸ hfirst c
    notExit := fun w h => by rw [hw h, hp]; decide
    entry := fun w h _ => hw h ▸ hstays
    dwell := fun w h hd => absurd (hd.symm.trans (hw h ▸ hp)) (by decide) }

theorem Steady.exitDwell {img : Image} {s : State} (h : Steady img s) : exitDwell img s = s := by
  cases hv : s.pe.service with
  | none => exact exitDwell_idle hv
  | some v =>
    by_cases hp : v.phase = .dwell
    · obtain ⟨hr, hd⟩ := h.dwell v hv hp
      exact exitDwell_stays hv hr hd
    · exact exitDwell_of_ne hv hp

theorem Steady.enterDwell {img : Image} {s : State} (h : Steady img s) : Steady img (enterDwell img s) := by
  rcases enterDwell_cases img s with heq | ⟨v, y, hv, hp, hy, hc⟩
  · rwa [heq]
  · obtain ⟨⟨hclasses, -⟩, -, b, hservice⟩ := enterDwell_complete hv hp hy hc
    have hw {w : Service} (hw : (Machine.enterDwell img s).pe.service = some w) :
        w = { v with phase := .dwell, elapsed := 0, alertSent := b } := Option.some.inj (hw.symm.trans hservice)
    obtain ⟨hr, hreq⟩ := (h.entry v hv hp).resolve_left fun haway => by
      rw [haway y hy] at hc
      exact absurd hc (by decide)
    exact {
      first := fun w c hs hreq => by
        rw [requested_of_classes hclasses] at hreq
        rw [hw hs]
        exact h.first v c hv hreq
      notExit := fun w hs => by rw [hw hs]; exact nofun
      entry := fun w hs hentry => by rw [hw hs] at hentry; exact nomatch hentry
      dwell := fun w hs _ => by
        rw [hw hs, requested_of_classes hclasses]
        exact ⟨hr, .inl hreq⟩ }

section Decisions
variable {img : Image} {q p : State}

/-- The rest of an evaluation after the steady state `p` has been reached, with the entry into DWELL made or still to be made. -/
theorem Steady.finished {t : State} {b : Bool} (h : Steady img p) (ht : t = p ∨ t = Machine.enterDwell img p) :
    Machine.enterDwell img (if b then finishExit img t else t) = Machine.enterDwell img p := by
  rcases ht with rfl | rfl
  · rw [finishExit_stands h.notExit, ite_self]
  · rw [finishExit_stands h.enterDwell.notExit, ite_self, enterDwell_twice]

/-- No service is taken over: where none was active the highest requested class has started, and what is active goes on. -/
theorem decisions_settle (hstart : startIfIdle img q = p) (h : Steady img p) :
    serviceDecisions img q = nextFree (enterDwell img p) := by
  unfold serviceDecisions
  dsimp only
  rw [hstart, takeOver_stands h.first, h.enterDwell.exitDwell, takeOver_stands h.enterDwell.first, ite_self]
  exact congrArg nextFree (h.finished (.inr rfl))

/-- The active service is taken over, in either order. -/
theorem decisions_push {v : Service} (hv : q.pe.service = some v) (henter : enterDwell img q = q) (hexit : exitDwell img q = q)
    (hover : takeOver img q = p) (h : Steady img p) : serviceDecisions img q = nextFree (enterDwell img p) := by
  unfold serviceDecisions
  dsimp only
  rw [startIfIdle_serving hv, henter, hexit, hover, h.enterDwell.exitDwell]
  refine congrArg nextFree (h.finished ?_)
  split
  · exact .inr rfl
  · exact .inl rfl

end Decisions

/-! ## A service begins -/

theorem stageComplete_placeCommand (y : Option Stage) (b : Bool) (s : State) (st : Stage) :
    stageComplete (placeCommand y b s) st = stageComplete s st := by cases y <;> rfl

theorem startService_eq (img : Image) (c : PreClass) (s : State) : startService img c s =
    placeCommand (img.cls c).target (truncates c)
      (s.withPe { s.pe with service := some (newService img c (s.pe.cls c).request) }) := by
  simp only [startService, newService, beq_line]

theorem startService_service (img : Image) (c : PreClass) (s : State) :
    (startService img c s).pe.service = some (newService img c (s.pe.cls c).request) := by
  rw [startService_eq, placeCommand_service]
  rfl

theorem startService_requested (img : Image) (c d : PreClass) (s : State) :
    (startService img c s).pe.requested d = s.pe.requested d :=
  requested_of_classes (placeCommand_same _ _ _).1 d

/-- A class requested while none above it is requested is overtaken by none. -/
theorem not_higher_of_noneAbove {s : State} {c d : PreClass} (h : NoneAbove s c) (hd : s.pe.requested d = true) :
    higherClass d c = false := by
  cases hh : higherClass d c with
  | false => rfl
  | true => exact absurd ((h d hh).symm.trans hd) (by decide)

theorem highest_of_noneAbove {s : State} {c : PreClass} (hreq : s.pe.requested c = true) (h : NoneAbove s c) :
    s.pe.highestRequested = some c := (highestRequested_eq _ c).mpr ⟨hreq, h⟩

theorem startService_steady {img : Image} {c : PreClass} {s : State} (hreq : s.pe.requested c = true) (habove : NoneAbove s c)
    (hstays : TargetAway img s c ∨ 0 < (img.cls c).maxDwell) : Steady img (startService img c s) := by
  refine .of_entry (startService_service img c s) rfl (fun d hd => ?_) (hstays.imp (fun haway y hy => ?_) fun hdwell => ?_)
  · rw [startService_requested] at hd
    exact not_higher_of_noneAbove habove hd
  · exact (stageComplete_placeCommand _ _ _ y).trans (haway y hy)
  · refine ⟨show 0 < 10 * (img.cls c).maxDwell by omega, ?_⟩
    rw [startService_requested]
    exact hreq

/-- R152: the new service, with the entry into DWELL at the same evaluation. -/
theorem startService_begun {img : Image} {c : PreClass} {y : Stage} (s : State) (hy : (img.cls c).target = some y) :
    SameButService s.pe (enterDwell img (startService img c s)).pe ∧
      ServiceBegun (newService img c (s.pe.cls c).request) y s (enterDwell img (startService img c s)) := by
  rw [startService_eq]
  exact enterDwell_begun (v := newService img c (s.pe.cls c).request) s.pe s rfl hy

/-- R155: the active service put on the stack. -/
def stackService (v : Service) (s : State) : State :=
  s.withPe { s.pe with
    stack := { cls := v.cls, remaining := v.remaining, phase := v.phase, fromLine := v.fromLine } :: s.pe.stack }

theorem takeOver_pushes {img : Image} {s : State} {v : Service} {c : PreClass} (hv : s.pe.service = some v)
    (hp : v.phase ≠ .exit) (hc : s.pe.highestRequested = some c) (hhigh : higherClass c v.cls = true) :
    takeOver img s = startService img c (stackService v s) := by
  unfold takeOver
  rw [hv, hc]
  dsimp only
  rw [if_pos hhigh, if_neg hp]
  rfl

theorem takeOver_ends {img : Image} {s : State} {v : Service} {c : PreClass} (hv : s.pe.service = some v)
    (hp : v.phase = .exit) (hc : s.pe.highestRequested = some c) (hhigh : higherClass c v.cls = true) :
    takeOver img s = endService img s := by
  unfold takeOver
  rw [hv, hc]
  dsimp only
  rw [if_pos hhigh, if_pos hp]

/-! ## A service in EXIT ends for a higher class -/

theorem higherClass_trans {a b c : PreClass} (h : higherClass a b = true) (k : higherClass b c = true) :
    higherClass a c = true := by
  simp only [higherClass, decide_eq_true_eq] at *
  omega

theorem ne_of_higherClass {a b : PreClass} (h : higherClass a b = true) : a ≠ b := by
  rintro rfl
  simp [higherClass] at h

theorem examineStack_cls {c : PreClass} : ∀ (l : List Stacked) (pe : PeState), (∀ r ∈ l, r.cls ≠ c) →
    (examineStack pe l).cls c = pe.cls c
  | [], _, _ => rfl
  | r :: rest, pe, h => by
    obtain ⟨hr, hrest⟩ := List.forall_mem_cons.mp h
    unfold examineStack
    split
    · exact examineStack_cls rest pe hrest
    · split
      · rw [examineStack_cls rest _ hrest, PeState.setRequest_cls, if_neg (Ne.symm hr)]
      · rfl

theorem loadInhibit_stack (img : Image) (v : Service) (pe : PeState) : (loadInhibit img v pe).stack = pe.stack := by
  unfold loadInhibit
  split <;> rfl

theorem loadInhibit_cls {img : Image} {v : Service} {c : PreClass} (pe : PeState) (h : v.cls = .transit → c ≠ .transit) :
    (loadInhibit img v pe).cls c = pe.cls c := by
  unfold loadInhibit
  split
  next ht => exact (PeState.setRequest_cls pe .transit c _).trans (if_neg (h ht.1))
  next => rfl

/-- PE when the service that follows `v` is chosen. -/
def endedPe (img : Image) (v : Service) (pe : PeState) : PeState :=
  examineStack { loadInhibit img v pe with service := none } (loadInhibit img v pe).stack

theorem endService_eq {img : Image} {s : State} {v : Service} (hv : s.pe.service = some v) :
    endService img s = chooseService img (s.withPe (endedPe img v s.pe)) := by
  unfold endService
  rw [hv]
  rfl

theorem endedPe_cls {img : Image} {v : Service} {c : PreClass} {pe : PeState} (h : v.cls = .transit → c ≠ .transit)
    (hc : ∀ r ∈ pe.stack, r.cls ≠ c) : (endedPe img v pe).cls c = pe.cls c :=
  (examineStack_cls _ _ (by rwa [loadInhibit_stack])).trans (loadInhibit_cls pe h)

/-- R155, R157: a class above the active service's is above every stacked one, so its service follows at once. -/
theorem endService_starts {img : Image} {s : State} {v : Service} {c : PreClass} (hv : s.pe.service = some v)
    (law : StackLaw s) (hhigh : higherClass c v.cls = true) (hreq : s.pe.requested c = true) (habove : NoneAbove s c) :
    endService img s = startService img c (s.withPe (endedPe img v s.pe)) ∧
      (endedPe img v s.pe).requested c = true ∧ NoneAbove (s.withPe (endedPe img v s.pe)) c := by
  have hlower : ∀ r ∈ s.pe.stack, higherClass v.cls r.cls = true := fun r hr =>
    (List.pairwise_cons.mp (((stackLaw_iff s).mp law).serving hv)).1 r.cls (List.mem_map_of_mem hr)
  have hkept {d : PreClass} (hd : higherClass d v.cls = true) : (endedPe img v s.pe).requested d = s.pe.requested d := by
    rw [PeState.requested, PeState.requested, endedPe_cls (fun ht => ht ▸ ne_of_higherClass hd)
      fun r hr => (ne_of_higherClass (higherClass_trans hd (hlower r hr))).symm]
  have hreq' : (endedPe img v s.pe).requested c = true := (hkept hhigh).trans hreq
  have habove' : NoneAbove (s.withPe (endedPe img v s.pe)) c := fun d hd =>
    (hkept (higherClass_trans hd hhigh)).trans (habove d hd)
  refine ⟨?_, hreq', habove'⟩
  rw [endService_eq hv]
  unfold chooseService
  rw [highest_of_noneAbove hreq' habove']
  split
  next r rest d hstack hd =>
    obtain rfl := Option.some.inj hd
    have hmem : r ∈ (loadInhibit img v s.pe).stack :=
      (examineStack_kept _ { loadInhibit img v s.pe with service := none }).1.subset (hstack ▸ List.mem_cons_self ..)
    rw [loadInhibit_stack] at hmem
    rw [if_pos (higherClass_trans hhigh (hlower r hmem))]
  next hd => exact absurd hd (by simp)
  next d _ hd => rw [Option.some.inj hd]
  next hd => exact absurd hd (by simp)

/-! ## What an evaluation decides -/

section Decided
variable {img : Image} {q : State} {c : PreClass} {v : Service}

theorem decisions_idle (hv : q.pe.service = none) (h : ∀ d, q.pe.requested d = false) :
    serviceDecisions img q = nextFree q := by
  rw [decisions_settle (startIfIdle_quiet h) (.of_idle hv), enterDwell_idle hv]

/-- A service in ENTRY that waits for its target, with no class above it requested. -/
theorem decisions_entry (hv : q.pe.service = some v) (hp : v.phase = .entry) (haway : TargetAway img q v.cls)
    (habove : NoneAbove q v.cls) : serviceDecisions img q = nextFree q := by
  rw [decisions_settle (startIfIdle_serving hv) (.of_entry hv hp (fun d => not_higher_of_noneAbove habove) (.inl haway)),
    enterDwell_targetAway hv haway]

theorem decisions_start (hv : q.pe.service = none) (hreq : q.pe.requested c = true) (habove : NoneAbove q c)
    (hstays : TargetAway img q c ∨ 0 < (img.cls c).maxDwell) :
    serviceDecisions img q = nextFree (enterDwell img (startService img c q)) :=
  decisions_settle (startIfIdle_starts hv (highest_of_noneAbove hreq habove)) (startService_steady hreq habove hstays)

/-- R155: a service in ENTRY or DWELL pushed. -/
theorem decisions_stack (hv : q.pe.service = some v) (hp : v.phase ≠ .exit) (henter : enterDwell img q = q)
    (hexit : exitDwell img q = q) (hhigh : higherClass c v.cls = true) (hreq : q.pe.requested c = true) (habove : NoneAbove q c)
    (hstays : TargetAway img q c ∨ 0 < (img.cls c).maxDwell) :
    serviceDecisions img q = nextFree (enterDwell img (startService img c (stackService v q))) :=
  decisions_push hv henter hexit (takeOver_pushes hv hp (highest_of_noneAbove hreq habove) hhigh)
    (startService_steady (s := stackService v q) hreq habove hstays)

/-- R155: a service in EXIT ended. -/
theorem decisions_end (hv : q.pe.service = some v) (hp : v.phase = .exit) (law : StackLaw q)
    (hhigh : higherClass c v.cls = true) (hreq : q.pe.requested c = true) (habove : NoneAbove q c)
    (hdwell : 0 < (img.cls c).maxDwell) : serviceDecisions img q = nextFree (enterDwell img (endService img q)) := by
  obtain ⟨hends, hreq', habove'⟩ := endService_starts (img := img) hv law hhigh hreq habove
  refine decisions_push hv (enterDwell_of_ne hv (by simp [hp])) (exitDwell_of_ne hv (by simp [hp]))
    (takeOver_ends hv hp (highest_of_noneAbove hreq habove) hhigh) ?_
  rw [hends]
  exact startService_steady hreq' habove' (.inr hdwell)

end Decided

/-! ## A higher class takes over (R155) -/

theorem higherClassTakesOver {img : Image} {s : State} {v : Service} {c : PreClass} {y : Stage} (hv : s.pe.service = some v)
    (hhigh : higherClass c v.cls = true) (hreq : s.pe.requested c = true) (habove : NoneAbove s c)
    (hy : (img.cls c).target = some y) (hdwell : 0 < (img.cls c).maxDwell) :
    let t := serviceDecisions img s
    ((v.phase = .entry ∧ TargetAway img s v.cls) ∨ (v.phase = .dwell ∧ 0 < v.remaining ∧
        (s.pe.requested v.cls = true ∨ v.elapsed < 10 * (img.cls v.cls).minDwell)) →
      t.pe.stack = { cls := v.cls, remaining := v.remaining, phase := v.phase, fromLine := v.fromLine } :: s.pe.stack ∧
        t.pe.classes = s.pe.classes ∧ t.pe.inhibit = s.pe.inhibit ∧
        ServiceBegun (newService img c (s.pe.cls c).request) y s t) ∧
    (v.phase = .exit → StackLaw s → ∃ pe, InhibitApplied img v s.pe pe ∧ AfterService img pe s t) := by
  intro t
  refine ⟨fun hphase => ?_, fun hp law => ⟨_, loadInhibit_applied img v s.pe, ?_⟩⟩
  · have hstays : v.phase ≠ .exit ∧ enterDwell img s = s ∧ exitDwell img s = s := by
      rcases hphase with ⟨hp, haway⟩ | ⟨hp, hr, hd⟩
      · exact ⟨by simp [hp], enterDwell_targetAway hv haway, exitDwell_of_ne hv (by simp [hp])⟩
      · exact ⟨by simp [hp], enterDwell_of_ne hv (by simp [hp]), exitDwell_stays hv hr hd⟩
    obtain ⟨hp, henter, hexit⟩ := hstays
    have ht : t = nextFree (enterDwell img (startService img c (stackService v s))) :=
      decisions_stack hv hp henter hexit hhigh hreq habove (.inr hdwell)
    obtain ⟨⟨hclasses, hinhibit, -, -, hstack⟩, hbegun⟩ := startService_begun (stackService v s) hy
    rw [ht]
    exact ⟨hstack, hclasses, hinhibit, hbegun⟩
  · have ht : t = nextFree (enterDwell img (endService img s)) := decisions_end hv hp law hhigh hreq habove hdwell
    rw [ht]
    exact endService_after img v s hv law

/-! ## Filters and the pending line alert stand at every decision -/

/-- The service decisions leave the filters of the inputs and the pending line alert. -/
def FiltersKept (p q : PeState) : Prop :=
  q.alert = p.alert ∧ ∀ d, (q.cls d).filtered = (p.cls d).filtered ∧ (q.cls d).count = (p.cls d).count

theorem FiltersKept.of_same {p q : PeState} (ha : q.alert = p.alert) (hc : q.classes = p.classes) : FiltersKept p q :=
  ⟨ha, fun d => by rw [show q.cls d = p.cls d from congrArg (·[classIndex d]) hc]; exact ⟨rfl, rfl⟩⟩

theorem FiltersKept.of_sameButService {p q : PeState} (h : SameButService p q) : FiltersKept p q := by
  obtain ⟨hclasses, -, -, halert, -⟩ := h
  exact .of_same halert hclasses

theorem FiltersKept.refl (p : PeState) : FiltersKept p p := .of_same rfl rfl

theorem FiltersKept.trans {p q r : PeState} (h : FiltersKept p q) (k : FiltersKept q r) : FiltersKept p r :=
  ⟨k.1.trans h.1, fun d => ⟨(k.2 d).1.trans (h.2 d).1, (k.2 d).2.trans (h.2 d).2⟩⟩

theorem setRequest_filtersKept (p : PeState) (c : PreClass) (r : Request) : FiltersKept p (p.setRequest c r) := by
  refine ⟨rfl, fun d => ?_⟩
  rw [PeState.setRequest_cls]
  split
  next h => exact h ▸ ⟨rfl, rfl⟩
  next => exact ⟨rfl, rfl⟩

theorem startService_filtersKept (img : Image) (c : PreClass) (s : State) : FiltersKept s.pe (startService img c s).pe :=
  .of_sameButService (placeCommand_same _ _ (s.withPe { s.pe with service := _ }))

theorem resumeService_filtersKept (img : Image) (r : Stacked) (s : State) : FiltersKept s.pe (resumeService img r s).pe :=
  .of_sameButService (placeCommand_same _ _ (s.withPe { s.pe with service := _ }))

theorem startIfIdle_filtersKept (img : Image) (s : State) : FiltersKept s.pe (startIfIdle img s).pe := by
  unfold startIfIdle
  split
  · exact startService_filtersKept img _ s
  · exact .refl _

theorem enterDwell_filtersKept (img : Image) (s : State) : FiltersKept s.pe (enterDwell img s).pe :=
  .of_sameButService (enterDwell_same img s)

theorem loadInhibit_filtersKept (img : Image) (v : Service) (pe : PeState) : FiltersKept pe (loadInhibit img v pe) := by
  unfold loadInhibit
  split
  · exact setRequest_filtersKept pe .transit _
  · exact .refl pe

theorem examineStack_filtersKept : ∀ (l : List Stacked) (pe : PeState), FiltersKept pe (examineStack pe l)
  | [], _ => .of_same rfl rfl
  | r :: rest, pe => by
    unfold examineStack
    split
    · exact examineStack_filtersKept rest pe
    · split
      · exact (setRequest_filtersKept pe r.cls .lockedOut).trans (examineStack_filtersKept rest _)
      · exact .of_same rfl rfl

theorem chooseService_filtersKept (img : Image) (s : State) : FiltersKept s.pe (chooseService img s).pe := by
  unfold chooseService
  split
  next r rest c _ _ =>
    split
    · exact startService_filtersKept img c s
    · exact resumeService_filtersKept img r (s.withPe { s.pe with stack := rest })
  next r rest _ _ => exact resumeService_filtersKept img r (s.withPe { s.pe with stack := rest })
  next c _ _ => exact startService_filtersKept img c s
  next => exact .of_same rfl rfl

theorem endService_filtersKept (img : Image) (s : State) : FiltersKept s.pe (endService img s).pe := by
  cases hv : s.pe.service with
  | none =>
    unfold endService
    rw [hv]
    exact .refl _
  | some v =>
    rw [endService_eq hv]
    exact ((loadInhibit_filtersKept img v s.pe).trans
      (examineStack_filtersKept _ { loadInhibit img v s.pe with service := none })).trans
      (chooseService_filtersKept img (s.withPe (endedPe img v s.pe)))

theorem enterExit_filtersKept (img : Image) (v : Service) (s : State) : FiltersKept s.pe (enterExit img v s).pe := by
  unfold enterExit
  dsimp only
  split
  · exact .of_same rfl rfl
  · exact endService_filtersKept img (s.withPe { s.pe with service := some { v with phase := .exit } })

theorem exitDwell_filtersKept (img : Image) (s : State) : FiltersKept s.pe (exitDwell img s).pe := by
  unfold exitDwell
  split
  · exact .refl _
  next v _ =>
    split
    · unfold maxDwellExit
      refine FiltersKept.trans ?_ (enterExit_filtersKept img { v with byMax := true } (s.withPe _))
      split <;> exact setRequest_filtersKept s.pe v.cls .lockedOut
    · split
      · exact enterExit_filtersKept img v s
      · exact .refl _

theorem finishExit_filtersKept (img : Image) (s : State) : FiltersKept s.pe (finishExit img s).pe := by
  unfold finishExit
  split
  · exact endService_filtersKept img s
  · exact .refl _

theorem takeOver_filtersKept (img : Image) (s : State) : FiltersKept s.pe (takeOver img s).pe := by
  unfold takeOver
  split
  next v c _ _ =>
    split
    · split
      · exact endService_filtersKept img s
      · exact startService_filtersKept img c (stackService v s)
    · exact .refl _
  next => exact .refl _

theorem serviceDecisions_filtersKept (img : Image) (s : State) : FiltersKept s.pe (serviceDecisions img s).pe := by
  unfold serviceDecisions
  dsimp only
  refine (startIfIdle_filtersKept img s).trans ?_
  generalize startIfIdle img s = u
  refine FiltersKept.trans ?_ (enterDwell_filtersKept img _)
  have decided : FiltersKept u.pe (if Config.higherClassFirst s.free then exitDwell img (enterDwell img (takeOver img u))
      else takeOver img (exitDwell img (enterDwell img u))).pe := by
    split
    · exact ((takeOver_filtersKept img u).trans (enterDwell_filtersKept img _)).trans (exitDwell_filtersKept img _)
    · exact ((enterDwell_filtersKept img u).trans (exitDwell_filtersKept img _)).trans (takeOver_filtersKept img _)
  refine decided.trans ?_
  generalize (if Config.higherClassFirst s.free then exitDwell img (enterDwell img (takeOver img u))
      else takeOver img (exitDwell img (enterDwell img u))) = t
  split
  · exact finishExit_filtersKept img t
  · exact .refl _

/-! ## The rows -/

theorem peEvent_due {due : Image → Bool} {act : Image → State → State} {s : State} {img : Image}
    (hi : s.cf.image = some img) (hm : s.os.mode = .run) (hdue : due img = true) : peEvent due act s = .next (act img s) := by
  unfold peEvent
  rw [hi]
  exact congrArg Host.Outcome.next (whenDue_true (by simp [hm, hdue]) _ _)

theorem targetAway_of_incomplete {img : Image} {s : State} {c : PreClass} {y : Stage} (hy : (img.cls c).target = some y)
    (h : stageComplete s y = false) : TargetAway img s c := fun _ hz => Option.some.inj (hy.symm.trans hz) ▸ h

/-- R152: a service whose target is not yet current and COMPLETE waits in ENTRY. -/
theorem startService_started {img : Image} {c : PreClass} {y : Stage} {s : State} (pe : PeState)
    (hy : (img.cls c).target = some y) (h : stageComplete s y = false) :
    ServiceStarted img c y (decide ((pe.cls c).request = .requestedLine)) s
      (nextFree (enterDwell img (startService img c (s.withPe pe)))) := by
  obtain ⟨hservice, hplaced, hlu⟩ := (startService_begun (s.withPe pe) hy).2.1 h
  exact ⟨hservice, hplaced, hlu⟩

section InputOn
variable {img : Image} {s : State} {c : PreClass}

/-- R148, R149: PE when the input of class `c` has gone on, before its decisions. -/
def inputOnPe (c : PreClass) (pe : PeState) : PeState :=
  let p := pe.setCls c { pe.cls c with filtered := true, count := 0 }
  let q := p.setRequest c (nextRequest (p.cls c) true p.inhibit)
  if (p.cls c).request = .requestedLine then { q with lineDwell := 0 } else q

theorem inputOnPe_cls (c d : PreClass) (pe : PeState) : (inputOnPe c pe).cls d =
    if d = c then
      { request := nextRequest { pe.cls c with filtered := true, count := 0 } true pe.inhibit, filtered := true, count := 0 }
    else pe.cls d := by
  have hset (p : PeState) (r : Request) : ((pe.setCls c { pe.cls c with filtered := true, count := 0 }).setRequest c r).cls d =
      if d = c then { request := r, filtered := true, count := 0 } else pe.cls d := by
    rw [PeState.setRequest_cls, PeState.setCls_cls, PeState.setCls_cls, if_pos rfl]
    split <;> rfl
  have hself : (pe.setCls c { pe.cls c with filtered := true, count := 0 }).cls c =
      { pe.cls c with filtered := true, count := 0 } := by
    rw [PeState.setCls_cls, if_pos rfl]
  unfold inputOnPe
  dsimp only
  rw [hself]
  split
  · exact hset pe _
  · exact hset pe _

theorem inputOnPe_rest (c : PreClass) (pe : PeState) : inputOnPe c pe = { pe with
    classes := (inputOnPe c pe).classes, lineDwell := if (pe.cls c).request = .requestedLine then 0 else pe.lineDwell } := by
  have hself : (pe.setCls c { pe.cls c with filtered := true, count := 0 }).cls c =
      { pe.cls c with filtered := true, count := 0 } := by
    rw [PeState.setCls_cls, if_pos rfl]
  unfold inputOnPe
  dsimp only
  rw [hself]
  dsimp only
  split <;> rfl

theorem inputOnPe_requested_ne {d : PreClass} {pe : PeState} (h : d ≠ c) : (inputOnPe c pe).requested d = pe.requested d := by
  rw [PeState.requested, PeState.requested, inputOnPe_cls, if_neg h]

/-- Table 9.2: an input that goes on raises a request where none stood. -/
theorem inputOnPe_raises {pe : PeState} (h : (pe.cls c).request = .none) :
    ((inputOnPe c pe).cls c).request = .requestedLocal ∧ (inputOnPe c pe).requested c = true := by
  have hrequest : ((inputOnPe c pe).cls c).request = .requestedLocal := by simp [inputOnPe_cls, nextRequest, h]
  exact ⟨hrequest, by simp [PeState.requested, hrequest]⟩

theorem execRequestInputOn_due (hi : s.cf.image = some img) (hm : s.os.mode = .run) (hf : (s.pe.cls c).filtered = false)
    (hcount : 10 * (img.cls c).onDelay ≤ (s.pe.cls c).count) :
    exec (.requestInputOn c) s = .next (serviceDecisions img (s.withPe (inputOnPe c s.pe))) := by
  show execRequestInputOn c s = _
  unfold execRequestInputOn
  exact peEvent_due hi hm (by simp [hf, hcount])

/-- The row leaves the filter on and its count 0. -/
theorem inputOn_filtered :
    let t := serviceDecisions img (s.withPe (inputOnPe c s.pe))
    (t.pe.cls c).filtered = true ∧ (t.pe.cls c).count = 0 := by
  intro t
  have hself := inputOnPe_cls c c s.pe
  rw [if_pos rfl] at hself
  obtain ⟨hfiltered, hzero⟩ := (serviceDecisions_filtersKept img (s.withPe (inputOnPe c s.pe))).2 c
  rw [State.withPe_pe, hself] at hfiltered hzero
  exact ⟨hfiltered, hzero⟩

/-- R149, R152: the input starts the service of its class. -/
theorem inputOn_starts {st : Stage} (hr : (s.pe.cls c).request = .none) (hv : s.pe.service = none)
    (hnone : ∀ d, s.pe.requested d = false) (hst : (img.cls c).target = some st) (hinc : stageComplete s st = false) :
    let t := serviceDecisions img (s.withPe (inputOnPe c s.pe))
    (t.pe.cls c).request = .requestedLocal ∧ ServiceStarted img c st false s t := by
  intro t
  obtain ⟨hrequest, hreq⟩ := inputOnPe_raises hr
  have hidle : (s.withPe (inputOnPe c s.pe)).pe.service = none := by
    rw [State.withPe_pe, inputOnPe_rest]
    exact hv
  have ht : t = nextFree (enterDwell img (startService img c (s.withPe (inputOnPe c s.pe)))) :=
    decisions_start hidle hreq (fun d hd => (inputOnPe_requested_ne (ne_of_higherClass hd)).trans (hnone d))
      (.inl (targetAway_of_incomplete hst hinc))
  obtain ⟨⟨hclasses, -⟩, -⟩ := startService_begun (s.withPe (inputOnPe c s.pe)) hst
  have hstarted := startService_started (s := s) (inputOnPe c s.pe) hst hinc
  rw [hrequest] at hstarted
  rw [ht]
  exact ⟨(congrArg (fun x : Vector ClassState 3 => x[classIndex c].request) hclasses).trans hrequest, hstarted⟩

/-- R155: the input pushes a lower class's service. -/
theorem inputOn_pushes {v : Service} {st : Stage} (hr : (s.pe.cls c).request = .none) (hv : s.pe.service = some v)
    (hp : v.phase = .entry) (haway : TargetAway img s v.cls) (hhigh : higherClass c v.cls = true) (habove : NoneAbove s v.cls)
    (hst : (img.cls c).target = some st) (hinc : stageComplete s st = false) :
    let t := serviceDecisions img (s.withPe (inputOnPe c s.pe))
    (t.pe.cls c).request = .requestedLocal ∧ ServiceStarted img c st false s t ∧
      t.pe.stack = { cls := v.cls, remaining := v.remaining, phase := v.phase, fromLine := v.fromLine } :: s.pe.stack := by
  intro t
  obtain ⟨hrequest, hreq⟩ := inputOnPe_raises hr
  have hservice : (s.withPe (inputOnPe c s.pe)).pe.service = some v := by
    rw [State.withPe_pe, inputOnPe_rest]
    exact hv
  have hstack : (inputOnPe c s.pe).stack = s.pe.stack := by rw [inputOnPe_rest]
  have habove' : NoneAbove (s.withPe (inputOnPe c s.pe)) c := fun d hd =>
    (inputOnPe_requested_ne (ne_of_higherClass hd)).trans (habove d (higherClass_trans hd hhigh))
  have ht : t = nextFree (enterDwell img (startService img c (stackService v (s.withPe (inputOnPe c s.pe))))) :=
    decisions_stack hservice (by simp [hp]) (enterDwell_targetAway hservice haway) (exitDwell_of_ne hservice (by simp [hp])) hhigh
      hreq habove' (.inl (targetAway_of_incomplete hst hinc))
  obtain ⟨⟨hclasses, -, -, -, hpushed⟩, -⟩ := startService_begun (stackService v (s.withPe (inputOnPe c s.pe))) hst
  have hstarted := startService_started (s := s) (stackService v (s.withPe (inputOnPe c s.pe))).pe hst hinc
  have hline : decide (((stackService v (s.withPe (inputOnPe c s.pe))).pe.cls c).request = .requestedLine) = false :=
    (congrArg (fun r : Request => decide (r = .requestedLine)) hrequest).trans rfl
  rw [hline] at hstarted
  rw [ht]
  refine ⟨(congrArg (fun x : Vector ClassState 3 => x[classIndex c].request) hclasses).trans hrequest, hstarted, ?_⟩
  exact hpushed.trans (congrArg _ hstack)

/-- R155: the input of a class that is not above the active service's waits. -/
theorem inputOn_waits {v : Service} (hv : s.pe.service = some v) (hp : v.phase = .entry) (haway : TargetAway img s v.cls)
    (hhigh : higherClass c v.cls = false) (habove : NoneAbove s v.cls) :
    let t := serviceDecisions img (s.withPe (inputOnPe c s.pe))
    t.pe.service = some v ∧ t.pe.stack = s.pe.stack ∧ t.pe.command = s.pe.command ∧ t.sq = s.sq ∧ t.lu = s.lu ∧
      ((s.pe.cls c).request = .none → (t.pe.cls c).request = .requestedLocal ∧ t.pe.lineDwell = s.pe.lineDwell) ∧
      ((s.pe.cls c).request = .requestedLine → (t.pe.cls c).request = .requestedLocal ∧ t.pe.lineDwell = 0) ∧
      ((s.pe.cls c).request = .lockedOut → (t.pe.cls c).request = .lockedOut) := by
  intro t
  have hrest := inputOnPe_rest c s.pe
  have hservice : (inputOnPe c s.pe).service = some v := (congrArg PeState.service hrest).trans hv
  have hline : (inputOnPe c s.pe).lineDwell = if (s.pe.cls c).request = .requestedLine then 0 else s.pe.lineDwell :=
    congrArg PeState.lineDwell hrest
  have ht : t = nextFree (s.withPe (inputOnPe c s.pe)) := decisions_entry hservice hp haway fun d hd => by
    have hne : d ≠ c := by
      rintro rfl
      exact absurd (hd.symm.trans hhigh) (by decide)
    exact (inputOnPe_requested_ne hne).trans (habove d hd)
  have hself : (t.pe.cls c).request = nextRequest { s.pe.cls c with filtered := true, count := 0 } true s.pe.inhibit := by
    rw [ht]
    exact congrArg ClassState.request ((inputOnPe_cls c c s.pe).trans (if_pos rfl))
  rw [hself, ht]
  have hstack : (inputOnPe c s.pe).stack = s.pe.stack := by rw [inputOnPe_rest]
  have hcommand : (inputOnPe c s.pe).command = s.pe.command := by rw [inputOnPe_rest]
  refine ⟨hservice, hstack, hcommand, rfl, rfl, fun hr => ?_, fun hr => ?_, fun hr => ?_⟩
  · exact ⟨by simp [nextRequest, hr], hline.trans (if_neg (by simp [hr]))⟩
  · exact ⟨by simp [nextRequest, hr], hline.trans (if_pos hr)⟩
  · simp [nextRequest, hr]

end InputOn

/-! ### LINE_ALERT_COUNTDOWN_EXPIRY (R159) -/

section LineAlert
variable {img : Image} {s : State}

/-- R159: PE when the pending line alert has run out, before its decisions. -/
def alertTakenPe (img : Image) (pe : PeState) : PeState := { raiseLineRequest img pe with alert := none }

theorem execLineAlert_due {a : LineAlert} (hi : s.cf.image = some img) (hm : s.os.mode = .run) (ha : s.pe.alert = some a)
    (hdue : a.countdown ≤ 1) :
    exec .lineAlertCountdownExpiry s = .next (serviceDecisions img (s.withPe (alertTakenPe img s.pe))) := by
  show execLineAlertCountdownExpiry s = _
  unfold execLineAlertCountdownExpiry
  exact peEvent_due hi hm (by simp [ha, hdue])

theorem alertTaken_alert : (serviceDecisions img (s.withPe (alertTakenPe img s.pe))).pe.alert = none :=
  (serviceDecisions_filtersKept img (s.withPe (alertTakenPe img s.pe))).1

theorem alertTakenPe_raised {pe : PeState} (h : (pe.cls .emergency).request = .none ∨ (pe.cls .emergency).request = .requestedLine) :
    alertTakenPe img pe = { pe.setRequest .emergency .requestedLine with
      lineDwell := 10 * (img.cls .emergency).lineDwell, alert := none } := by
  rw [alertTakenPe, raiseLineRequest_raised img h]

theorem alertTakenPe_stands {pe : PeState}
    (h : ¬((pe.cls .emergency).request = .none ∨ (pe.cls .emergency).request = .requestedLine)) :
    alertTakenPe img pe = { pe with alert := none } := by
  rw [alertTakenPe, raiseLineRequest_stands img h]

theorem alertTakenPe_requested_ne {c : PreClass} {pe : PeState} (hc : c ≠ .emergency) :
    (alertTakenPe img pe).requested c = pe.requested c := by
  have hset : (pe.setRequest .emergency .requestedLine).requested c = pe.requested c := by
    rw [PeState.setRequest_requested, if_neg hc]
  by_cases h : (pe.cls .emergency).request = .none ∨ (pe.cls .emergency).request = .requestedLine
  · rw [alertTakenPe_raised h]
    exact hset
  · rw [alertTakenPe_stands h]
    rfl

theorem alertTakenPe_service {pe : PeState} : (alertTakenPe img pe).service = pe.service := by
  unfold alertTakenPe raiseLineRequest
  dsimp only
  split <;> rfl

theorem alertTakenPe_cls_raised {pe : PeState}
    (h : (pe.cls .emergency).request = .none ∨ (pe.cls .emergency).request = .requestedLine) :
    (alertTakenPe img pe).cls .emergency = { pe.cls .emergency with request := .requestedLine } := by
  rw [alertTakenPe_raised h]
  exact (PeState.setRequest_cls pe .emergency .emergency .requestedLine).trans (if_pos rfl)

/-- R159, R152: the line request starts an EMERGENCY service. -/
theorem alertTaken_starts {st : Stage} (hr : (s.pe.cls .emergency).request = .none) (hv : s.pe.service = none)
    (hnone : ∀ d, s.pe.requested d = false) (hst : (img.cls .emergency).target = some st) (hinc : stageComplete s st = false) :
    let t := serviceDecisions img (s.withPe (alertTakenPe img s.pe))
    (t.pe.cls .emergency).request = .requestedLine ∧ t.pe.lineDwell = 10 * (img.cls .emergency).lineDwell ∧
      ServiceStarted img .emergency st true s t := by
  intro t
  have hrequest : ((alertTakenPe img s.pe).cls .emergency).request = .requestedLine := by
    rw [alertTakenPe_cls_raised (.inl hr)]
  have hreq : (alertTakenPe img s.pe).requested .emergency = true := by simp [PeState.requested, hrequest]
  have ht : t = nextFree (enterDwell img (startService img .emergency (s.withPe (alertTakenPe img s.pe)))) :=
    decisions_start (alertTakenPe_service.trans hv) hreq
      (fun d hd => (alertTakenPe_requested_ne (ne_of_higherClass hd)).trans (hnone d))
      (.inl (targetAway_of_incomplete hst hinc))
  obtain ⟨⟨hclasses, -, hline, -⟩, -⟩ := startService_begun (s.withPe (alertTakenPe img s.pe)) hst
  have hstarted := startService_started (s := s) (alertTakenPe img s.pe) hst hinc
  rw [hrequest] at hstarted
  rw [ht]
  refine ⟨(congrArg (fun x : Vector ClassState 3 => x[classIndex .emergency].request) hclasses).trans hrequest, hline.trans ?_, hstarted⟩
  rw [State.withPe_pe, alertTakenPe_raised (.inl hr)]

/-- R155, R159: the line request waits behind a RAIL service. -/
theorem alertTaken_waits {v : Service} (hv : s.pe.service = some v) (hc : v.cls = .rail) (hp : v.phase = .entry)
    (haway : TargetAway img s .rail) :
    let t := serviceDecisions img (s.withPe (alertTakenPe img s.pe))
    t.pe.service = some v ∧ t.sq = s.sq ∧ t.lu = s.lu ∧
      ((s.pe.cls .emergency).request = .none ∨ (s.pe.cls .emergency).request = .requestedLine →
        (t.pe.cls .emergency).request = .requestedLine ∧ t.pe.lineDwell = 10 * (img.cls .emergency).lineDwell) ∧
      ((s.pe.cls .emergency).request = .requestedLocal ∨ (s.pe.cls .emergency).request = .lockedOut →
        t.pe = { s.pe with alert := none }) := by
  intro t
  have hservice : (alertTakenPe img s.pe).service = some v := alertTakenPe_service.trans hv
  have ht : t = nextFree (s.withPe (alertTakenPe img s.pe)) :=
    decisions_entry hservice hp (hc ▸ haway) (hc ▸ fun d hd => absurd hd (by cases d <;> decide))
  rw [ht]
  refine ⟨hservice, rfl, rfl, fun hr => ⟨?_, ?_⟩, fun hr => ?_⟩
  · exact congrArg ClassState.request (alertTakenPe_cls_raised hr)
  · exact congrArg PeState.lineDwell (alertTakenPe_raised hr)
  · exact alertTakenPe_stands (by rcases hr with hr | hr <;> simp [hr])

end LineAlert

/-! ### LINE_DWELL_EXPIRY and INHIBIT_EXPIRY (R149, R150) -/

section Expiry
variable {img : Image} {s : State}

/-- Where EMERGENCY and TRANSIT alone move, PE has nothing to decide: no class is requested, or a RAIL service waits for its
target. -/
theorem decisions_stand {pe : PeState} (hservice : pe.service = s.pe.service)
    (h : (s.pe.service = none ∧ ∀ d, pe.requested d = false) ∨
      (∃ v, s.pe.service = some v ∧ v.cls = .rail ∧ v.phase = .entry ∧ TargetAway img s .rail)) :
    serviceDecisions img (s.withPe pe) = nextFree (s.withPe pe) := by
  rcases h with ⟨hv, hnone⟩ | ⟨v, hv, hc, hp, haway⟩
  · exact decisions_idle (hservice.trans hv) hnone
  · exact decisions_entry (hservice.trans hv) hp (hc ▸ haway) (hc ▸ fun d hd => absurd hd (by cases d <;> decide))

/-- R149: PE when the line dwell timer has run out, before its decisions. -/
def lineDwellOverPe (pe : PeState) : PeState := { pe.setRequest .emergency .none with lineDwell := 0 }

/-- R149: PE when the inhibit has run out, before its decisions. -/
def inhibitOverPe (r : Request) (pe : PeState) : PeState := { pe.setRequest .transit r with inhibit := 0 }

theorem inhibitOverPe_requested (r : Request) (pe : PeState) (d : PreClass) : (inhibitOverPe r pe).requested d =
    if d = .transit then (r == .requestedLocal || r == .requestedLine) else pe.requested d :=
  PeState.setRequest_requested pe .transit d r

theorem execLineDwell_due (hi : s.cf.image = some img) (hm : s.os.mode = .run)
    (hr : (s.pe.cls .emergency).request = .requestedLine) (hdue : s.pe.lineDwell ≤ 1) :
    exec .lineDwellExpiry s =
      .next (serviceDecisions img (s.withPe (lineDwellOverPe s.pe))) := by
  have hended : endLineDwell { s.pe with lineDwell := 0 } = lineDwellOverPe s.pe := if_pos ⟨hr, rfl⟩
  show execLineDwellExpiry s = _
  unfold execLineDwellExpiry
  rw [← hended]
  exact peEvent_due hi hm (by simp [hr, hdue])

theorem execInhibit_due (hi : s.cf.image = some img) (hm : s.os.mode = .run)
    (hr : (s.pe.cls .transit).request = .inhibited) (hdue : s.pe.inhibit ≤ 1) :
    exec .inhibitExpiry s = .next (serviceDecisions img
      (s.withPe (inhibitOverPe (if (s.pe.cls .transit).filtered then .requestedLocal else .none) s.pe))) := by
  have hnext : nextRequest (s.pe.cls .transit) true 0 = if (s.pe.cls .transit).filtered then .requestedLocal else .none := by
    simp [nextRequest, hr]
  show execInhibitExpiry s = _
  unfold execInhibitExpiry
  rw [← hnext]
  exact peEvent_due hi hm (by simp [hr, hdue])

theorem lineDwellExpiry_row (hi : s.cf.image = some img) (hm : s.os.mode = .run)
    (h : (s.pe.service = none ∧ (∀ d, d ≠ .emergency → s.pe.requested d = false)) ∨
      (∃ v, s.pe.service = some v ∧ v.cls = .rail ∧ v.phase = .entry ∧ TargetAway img s .rail))
    (hr : (s.pe.cls .emergency).request = .requestedLine) (hdue : s.pe.lineDwell ≤ 1) :
    exec .lineDwellExpiry s = .next (nextFree (s.withPe { s.pe.setRequest .emergency .none with lineDwell := 0 })) := by
  rw [execLineDwell_due hi hm hr hdue]
  refine congrArg Host.Outcome.next (decisions_stand rfl (h.imp_left fun ⟨hv, hnone⟩ => ⟨hv, fun d => ?_⟩))
  refine (PeState.setRequest_requested s.pe .emergency d .none).trans ?_
  split
  next => rfl
  next hd => exact hnone d hd

/-- The inhibit runs out with the input off. -/
theorem inhibitExpiry_off (hi : s.cf.image = some img) (hm : s.os.mode = .run)
    (h : (s.pe.service = none ∧ (∀ d, d ≠ .emergency → s.pe.requested d = false)) ∨
      (∃ v, s.pe.service = some v ∧ v.cls = .rail ∧ v.phase = .entry ∧ TargetAway img s .rail))
    (hr : (s.pe.cls .transit).request = .inhibited) (hdue : s.pe.inhibit ≤ 1) (hoff : (s.pe.cls .transit).filtered = false)
    (hemergency : s.pe.requested .emergency = false) :
    exec .inhibitExpiry s = .next (nextFree (s.withPe { s.pe.setRequest .transit .none with inhibit := 0 })) := by
  rw [execInhibit_due hi hm hr hdue, hoff, if_neg (by decide)]
  refine congrArg Host.Outcome.next (decisions_stand rfl (h.imp_left fun ⟨hv, hnone⟩ => ⟨hv, fun d => ?_⟩))
  rw [inhibitOverPe_requested]
  split
  next => rfl
  next =>
    by_cases hd : d = .emergency
    · exact hd ▸ hemergency
    · exact hnone d hd

/-- The inhibit runs out with the input on: TRANSIT is requested, and its service starts or waits. -/
theorem inhibitExpiry_on {st : Stage} (hi : s.cf.image = some img) (hm : s.os.mode = .run)
    (h : (s.pe.service = none ∧ (∀ d, d ≠ .emergency → s.pe.requested d = false)) ∨
      (∃ v, s.pe.service = some v ∧ v.cls = .rail ∧ v.phase = .entry ∧ TargetAway img s .rail))
    (hr : (s.pe.cls .transit).request = .inhibited) (hdue : s.pe.inhibit ≤ 1) (hon : (s.pe.cls .transit).filtered = true)
    (hemergency : s.pe.requested .emergency = false) (hst : (img.cls .transit).target = some st)
    (hinc : stageComplete s st = false) :
    ∃ t, exec .inhibitExpiry s = .next t ∧ Only [.free, .pe, .sq, .lu] s t ∧ t.pe.inhibit = 0 ∧
      (t.pe.cls .transit).request = .requestedLocal ∧ (s.pe.service = none → ServiceStarted img .transit st false s t) ∧
      (s.pe.service ≠ none → t.pe.service = s.pe.service ∧ t.sq = s.sq) := by
  have hdone := execInhibit_due hi hm hr hdue
  rw [hon, if_pos rfl] at hdone
  refine ⟨_, hdone, decided_only img (withPe_only s _), ?_⟩
  have hrequest : ((inhibitOverPe .requestedLocal s.pe).cls .transit).request = .requestedLocal :=
    congrArg ClassState.request ((PeState.setRequest_cls s.pe .transit .transit .requestedLocal).trans (if_pos rfl))
  rcases h with ⟨hv, hnone⟩ | hrail
  · have habove : NoneAbove (s.withPe (inhibitOverPe .requestedLocal s.pe)) .transit := fun d hd => by
      rw [State.withPe_pe, inhibitOverPe_requested, if_neg (ne_of_higherClass hd)]
      by_cases he : d = .emergency
      · exact he ▸ hemergency
      · exact hnone d he
    obtain ⟨⟨hclasses, hinhibit, -⟩, -⟩ := startService_begun (s.withPe (inhibitOverPe .requestedLocal s.pe)) hst
    have hstarted := startService_started (s := s) (inhibitOverPe .requestedLocal s.pe) hst hinc
    rw [hrequest] at hstarted
    rw [decisions_start (q := s.withPe (inhibitOverPe .requestedLocal s.pe)) (img := img) hv
      ((inhibitOverPe_requested ..).trans (if_pos rfl)) habove (.inl (targetAway_of_incomplete hst hinc))]
    exact ⟨hinhibit, (congrArg (fun x : Vector ClassState 3 => x[classIndex .transit].request) hclasses).trans hrequest,
      fun _ => hstarted, fun hsome => absurd hv hsome⟩
  · rw [decisions_stand (img := img) (s := s) (pe := inhibitOverPe .requestedLocal s.pe) rfl (.inr hrail)]
    obtain ⟨v, hv, -⟩ := hrail
    exact ⟨rfl, hrequest, fun hnone => absurd (hv.symm.trans hnone) (by simp), fun _ => ⟨rfl, rfl⟩⟩

end Expiry

/-- Settles O50: PE's evaluation is its counts and rows, then its decisions; from a state with at most one of them due, either free
order leads to the same end. -/
theorem requestsRaiseServices : Obligations.RequestsRaiseServices :=
  ⟨fun _ _ hi law => ⟨peWork_of_ne hi, fun hm => ⟨_, peEvaluated law, peWork_run hi hm⟩⟩,
    fun _ _ _ _ _ hv hhigh hreq habove hy hdwell => higherClassTakesOver hv hhigh hreq habove hy hdwell,
    fun _ s img hi hm hf hcount => ⟨_, execRequestInputOn_due hi hm hf hcount, decided_only img (withPe_only s _),
      inputOn_filtered.1, inputOn_filtered.2, fun _ => inputOn_starts, fun _ _ => inputOn_pushes, fun _ => inputOn_waits⟩,
    fun s img _ hi hm ha hdue => ⟨_, execLineAlert_due hi hm ha hdue, decided_only img (withPe_only s _), alertTaken_alert,
      fun _ => alertTaken_starts, fun _ => alertTaken_waits⟩,
    fun _ _ hi hm h => ⟨lineDwellExpiry_row hi hm h, inhibitExpiry_off hi hm h, fun _ => inhibitExpiry_on hi hm h⟩⟩

end Sys2Proof.Machine


/-!
# The phases of a service and what follows it (O51)

Every end of a service, by its exit stage or at once, leads to `serviceEnded`: the inhibit is applied, the stack is examined and
what follows is chosen. What it comes to is said once; the rows differ in the state in which it begins.
-/

namespace Sys2Proof.Machine

/-! ## The exit stage (R147) -/

theorem exitStage_eq_some {img : Image} {c : PreClass} {x : Stage} : exitStage img c = some x ↔ ExitsBy img c x := by
  unfold exitStage ExitsBy
  cases (img.cls c).exit with
  | none => simp
  | some y =>
    dsimp only
    split
    next h =>
      constructor
      · intro hx
        exact Option.some.inj hx ▸ ⟨rfl, h⟩
      · exact fun hx => hx.1
    next h =>
      constructor
      · exact fun hx => absurd hx (by simp)
      · rintro ⟨hx, hen⟩
        exact absurd (Option.some.inj hx ▸ hen) h

theorem exitStage_eq_none {img : Image} {c : PreClass} (h : ∀ x, ¬ExitsBy img c x) : exitStage img c = none :=
  Option.eq_none_iff_forall_not_mem.mpr fun x hx => h x (exitStage_eq_some.mp hx)

/-! ## What every end of a service leads to -/

/-- R154, R157: the service `v` has ended and what follows it has been chosen. -/
def serviceEnded (img : Image) (v : Service) (s : State) : State := chooseService img (s.withPe (endedPe img v s.pe))

theorem loadInhibit_service (img : Image) (v : Service) (x : Option Service) (pe : PeState) :
    loadInhibit img v { pe with service := x } = { loadInhibit img v pe with service := x } := by
  unfold loadInhibit
  split <;> rfl

/-- What has ended is told by its class and by how it left DWELL. -/
theorem endedPe_service (img : Image) (v : Service) (x : Option Service) (pe : PeState) :
    endedPe img v { pe with service := x } = endedPe img v pe := by
  unfold endedPe
  rw [loadInhibit_service]

theorem enterExit_continues {img : Image} {v : Service} (s : State) (h : ∀ x, ¬ExitsBy img v.cls x) :
    enterExit img v s = serviceEnded img v s := by
  have hend : enterExit img v s = endService img (s.withPe { s.pe with service := some { v with phase := .exit } }) := by
    unfold enterExit
    rw [exitStage_eq_none h]
  rw [hend, endService_eq (v := { v with phase := .exit }) rfl]
  exact congrArg (fun pe => chooseService img (s.withPe pe)) (endedPe_service img v (some { v with phase := .exit }) s.pe)

theorem enterExit_exits {img : Image} {v : Service} {x : Stage} (s : State) (h : ExitsBy img v.cls x) :
    enterExit img v s = placeCommand (some x) false (s.withPe { s.pe with service := some { v with phase := .exit } }) := by
  unfold enterExit
  rw [exitStage_eq_some.mpr h]

/-- R153 (2). -/
theorem maxDwellExit_eq (img : Image) (v : Service) (s : State) :
    maxDwellExit img v s = enterExit img { v with byMax := true } (s.withPe (lockedOutBy v s.pe)) := by
  unfold maxDwellExit lockedOutBy
  dsimp only
  split <;> rfl

/-- A service that is in EXIT, with the command toward its exit stage, stays so at this evaluation's entry into DWELL. -/
theorem enterDwell_exiting {img : Image} {v : Service} {x : Stage} {s : State} {pe : PeState} :
    enterDwell img (placeCommand (some x) false (s.withPe { pe with service := some { v with phase := .exit } })) =
      placeCommand (some x) false (s.withPe { pe with service := some { v with phase := .exit } }) :=
  enterDwell_of_ne (v := { v with phase := .exit }) rfl (nofun)

section Ended
variable {img : Image} {v : Service} {s : State}

theorem serviceEnded_after (law : Descending s.pe.stacked) :
    AfterService img (loadInhibit img v s.pe) s (enterDwell img (serviceEnded img v s)) :=
  afterService img (loadInhibit img v s.pe) s (by rw [loadInhibit_stack]; exact law)

theorem loadInhibit_stands (pe : PeState) (h : v.cls ≠ .transit ∨ v.byMax = true) : loadInhibit img v pe = pe :=
  (loadInhibit_applied img v pe).1 h

/-- The stack is empty. -/
theorem endedPe_empty (h : s.pe.stack = []) : endedPe img v s.pe = { loadInhibit img v s.pe with service := none } := by
  have hload : (loadInhibit img v s.pe).stack = [] := (loadInhibit_stack img v s.pe).trans h
  unfold endedPe
  rw [hload]
  unfold examineStack
  rw [← hload]

/-- R157: with nothing to follow the command is released. -/
theorem serviceEnded_gone {pe : PeState} (hload : loadInhibit img v s.pe = pe) (hstack : s.pe.stack = [])
    (hnone : ∀ d, pe.requested d = false) : ServiceGone pe s (enterDwell img (serviceEnded img v s)) := by
  have hended : endedPe img v s.pe = { pe with service := none } := (endedPe_empty hstack).trans (by rw [hload])
  have hempty : pe.stack = [] := by rw [← hload, loadInhibit_stack, hstack]
  have hreleased : serviceEnded img v s = releaseCommand (s.withPe { pe with service := none }) := by
    have hhigh : (PeState.highestRequested { pe with service := none }) = none := (highestRequested_none _).mpr hnone
    unfold serviceEnded chooseService
    rw [hended, State.withPe_pe, hhigh]
    dsimp only
    rw [hempty]
  rw [hreleased, enterDwell_idle rfl]
  exact ⟨rfl, rfl, rfl⟩

/-- R152, R157: with an empty stack the highest requested class starts its service. -/
theorem serviceEnded_starts {pe : PeState} {c : PreClass} (hload : loadInhibit img v s.pe = pe) (hstack : s.pe.stack = [])
    (hreq : pe.requested c = true) (habove : NoneAbove (s.withPe pe) c) :
    serviceEnded img v s = startService img c (s.withPe { pe with service := none }) := by
  have hended : endedPe img v s.pe = { pe with service := none } := (endedPe_empty hstack).trans (by rw [hload])
  have hempty : pe.stack = [] := by rw [← hload, loadInhibit_stack, hstack]
  have hhigh : (PeState.highestRequested { pe with service := none }) = some c := (highestRequested_eq _ c).mpr ⟨hreq, habove⟩
  unfold serviceEnded chooseService
  rw [hended, State.withPe_pe, hhigh]
  dsimp only
  rw [hempty]

/-- R157: the record on top of the stack, of the highest requested class, is resumed. -/
theorem serviceEnded_resumes {r : Stacked} {rest : List Stacked} (hload : loadInhibit img v s.pe = s.pe)
    (hstack : s.pe.stack = r :: rest) (hreq : s.pe.requested r.cls = true) (hr : 0 < r.remaining) (habove : NoneAbove s r.cls) :
    serviceEnded img v s = placeCommand (img.cls r.cls).target (truncates r.cls)
      (s.withPe { s.pe with stack := rest, service := some (resumedService r) }) := by
  have hended : endedPe img v s.pe = { s.pe with service := none, stack := r :: rest } := by
    have hreq' : PeState.requested { s.pe with service := none } r.cls = true := hreq
    unfold endedPe
    rw [hload, hstack]
    unfold examineStack
    rw [hreq', if_neg (by decide), if_neg (by omega)]
  have hhigh : (PeState.highestRequested { s.pe with service := none, stack := r :: rest }) = some r.cls :=
    (highestRequested_eq _ _).mpr ⟨hreq, habove⟩
  unfold serviceEnded chooseService
  rw [hended, State.withPe_pe, hhigh]
  dsimp only
  rw [if_neg (by simp [higherClass])]
  unfold resumeService resumedService
  cases r.phase <;> rfl

/-- R150: a TRANSIT service that did not leave DWELL at max dwell, with an inhibit. -/
theorem loadInhibit_inhibits (pe : PeState) (hc : v.cls = .transit) (hm : v.byMax = false) (h : 0 < (img.cls .transit).inhibit) :
    loadInhibit img v pe = { pe.setRequest .transit .inhibited with inhibit := (img.cls .transit).inhibit } :=
  ((loadInhibit_applied img v pe).2 hc hm).1 h

theorem loadInhibit_skips (pe : PeState) (hc : v.cls = .transit) (hm : v.byMax = false) (h : (img.cls .transit).inhibit = 0) :
    loadInhibit img v pe = { pe.setRequest .transit
      (if (pe.cls .transit).filtered = true then .requestedLocal else .none) with inhibit := 0 } :=
  ((loadInhibit_applied img v pe).2 hc hm).2 h

end Ended

/-! ## The entry into DWELL (R152, R158) -/

section Dwell
variable {img : Image} {v : Service} {y : Stage} {s : State}

theorem enterDwell_eq (hs : s.pe.service = some v) (hp : v.phase = .entry) (hy : (img.cls v.cls).target = some y)
    (hc : stageComplete s y = true) : enterDwell img s = sendAlert img { v with phase := .dwell, elapsed := 0 }
      (if truncates v.cls then placeCommand (some y) false (s.withPe { s.pe with
        service := some { v with phase := .dwell, elapsed := 0 } })
       else s.withPe { s.pe with service := some { v with phase := .dwell, elapsed := 0 } }) := by
  unfold enterDwell
  simp only [hs, Option.bind, hy, hp, hc, and_self, if_true]

/-- A TRANSIT service truncates nothing and sends no alert. -/
theorem enterDwell_transit (hs : s.pe.service = some v) (ht : v.cls = .transit) (hp : v.phase = .entry)
    (hy : (img.cls v.cls).target = some y) (hc : stageComplete s y = true) :
    enterDwell img s = s.withPe { s.pe with service := some { v with phase := .dwell, elapsed := 0 } } := by
  have htruncates : truncates v.cls = false := by rw [ht]; rfl
  rw [enterDwell_eq hs hp hy hc, htruncates, if_neg (by decide)]
  exact if_neg fun ⟨h, _⟩ => absurd (ht.symm.trans h) (by decide)

theorem stageComplete_enterDwell (st : Stage) : stageComplete (enterDwell img s) st = stageComplete s st := by
  rcases enterDwell_cases img s with h | ⟨v, y, hv, hp, hy, hc⟩
  · rw [h]
  · have hsq (t : State) (w : Service) : (sendAlert img w t).sq = t.sq := (sendAlert_only img w t).sq (by simp)
    unfold stageComplete
    rw [enterDwell_eq hv hp hy hc, hsq]
    split <;> rfl

end Dwell

section Transit
variable {img : Image} {v : Service} {s : State}

/-- R150, R154, R157: a TRANSIT service ends with an inhibit of 0. -/
theorem serviceEnded_skips (hc : v.cls = .transit) (hm : v.byMax = false) (hzero : (img.cls .transit).inhibit = 0)
    (hstack : s.pe.stack = []) (hnone : ∀ d, s.pe.requested d = false) :
    InhibitSkipped img s (enterDwell img (serviceEnded img v s)) := by
  have hload := loadInhibit_skips s.pe hc hm hzero
  refine ⟨fun hoff => ?_, fun st hon hst => ?_⟩
  · rw [hoff, if_neg (by decide)] at hload
    refine serviceEnded_gone hload hstack fun d => ?_
    refine (PeState.setRequest_requested s.pe .transit d .none).trans ?_
    split
    next => rfl
    next => exact hnone d
  · rw [hon, if_pos rfl] at hload
    have hreq (d : PreClass) : PeState.requested { s.pe.setRequest .transit .requestedLocal with inhibit := 0 } d =
        if d = .transit then true else s.pe.requested d := PeState.setRequest_requested s.pe .transit d .requestedLocal
    have hcls : (PeState.setRequest s.pe .transit .requestedLocal).cls .transit =
        { s.pe.cls .transit with request := .requestedLocal } := (PeState.setRequest_cls ..).trans (if_pos rfl)
    have hstarts := serviceEnded_starts (c := .transit) hload hstack ((hreq .transit).trans (if_pos rfl)) fun d hd =>
      (hreq d).trans ((if_neg (ne_of_higherClass hd)).trans (hnone d))
    have hplaced : serviceEnded img v s = placeCommand (some st) false (s.withPe { s.pe.setRequest .transit .requestedLocal with
        inhibit := 0, service := some (newService img .transit .requestedLocal) }) := by
      rw [hstarts, startService_eq, hst]
      exact congrArg (fun x : ClassState => placeCommand (some st) false (s.withPe { s.pe.setRequest .transit .requestedLocal with
        inhibit := 0, service := some (newService img .transit x.request) })) hcls
    have hcomplete : stageComplete (serviceEnded img v s) st = stageComplete s st := by
      rw [hplaced]
      exact stageComplete_placeCommand _ _ _ st
    have hservice : (serviceEnded img v s).pe.service = some (newService img .transit .requestedLocal) := by
      rw [hplaced]
      rfl
    cases hs : stageComplete s st with
    | false =>
      have haway : TargetAway img (serviceEnded img v s) .transit := targetAway_of_incomplete hst (hcomplete.trans hs)
      rw [enterDwell_targetAway hservice haway, hplaced]
      exact ⟨⟨rfl, rfl⟩, rfl, rfl⟩
    | true =>
      rw [enterDwell_transit hservice rfl rfl hst (hcomplete.trans hs), hplaced]
      exact ⟨⟨rfl, rfl⟩, rfl, rfl⟩

end Transit

section Alert
variable {img : Image} {v : Service} {st : Stage} {s : State}

/-- R158: the pinned neighbor in place `p` carries the alert mark. -/
def Marked (s : State) (p : Place) (e : Entry) : Prop := s.nt.places[p] = some e ∧ ∃ l, e.link = some l ∧ l.alert = true

theorem alertEntry_marked {e : Entry} (h : alertEntry s = some e) : ∃ p, Marked s p e := by
  unfold alertEntry at h
  obtain ⟨hmark, hmem⟩ := And.intro (List.find?_some h) (List.mem_of_find?_eq_some h)
  obtain ⟨p, -, hp⟩ := List.mem_filterMap.mp hmem
  refine ⟨p, hp, ?_⟩
  cases hl : e.link with
  | none => simp [hl] at hmark
  | some l => exact ⟨l, rfl, by simpa [hl] using hmark⟩

theorem alertEntry_of_marked {p : Place} {e : Entry} (h : Marked s p e) : ∃ f, alertEntry s = some f := by
  obtain ⟨hp, l, hl, hmark⟩ := h
  refine Option.isSome_iff_exists.mp (List.find?_isSome.mpr ⟨e, ?_, by simp [hl, hmark]⟩)
  exact List.mem_filterMap.mpr ⟨p, List.mem_finRange p, hp⟩

theorem alertEntry_none (h : ∀ p e, ¬Marked s p e) : alertEntry s = none :=
  Option.eq_none_iff_forall_not_mem.mpr fun e he =>
    let ⟨p, hp⟩ := alertEntry_marked he
    h p e hp

theorem alertEntry_unique {p : Place} {e : Entry} (h : Marked s p e) (hone : ∀ q f, Marked s q f → q = p) :
    alertEntry s = some e := by
  obtain ⟨f, hf⟩ := alertEntry_of_marked h
  obtain ⟨q, hq⟩ := alertEntry_marked hf
  obtain rfl := hone q f hq
  rw [hf, ← hq.1, h.1]

/-- R158: a service that alerts. -/
def Alerts (v : Service) : Prop := v.cls = .emergency ∧ v.fromLine = false ∧ v.alertSent = false

theorem sendAlert_silent (h : ¬Alerts v ∨ alertEntry s = none) : sendAlert img v s = s := by
  by_cases ha : Alerts v
  · have hnone : alertEntry s = none := h.resolve_left (not_not_intro ha)
    unfold Alerts at ha
    unfold sendAlert
    rw [if_pos ha, hnone]
  · exact if_neg ha

theorem sendAlert_heard {e : Entry} (ha : Alerts v) (he : alertEntry s = some e) (hheard : e.state = .heard) :
    sendAlert img v s = offer (.preemptAlert e.address ((s.pe.alertSerial + 1) % 256) (img.cls .emergency).alertEta)
      (s.withPe { s.pe with service := some { v with alertSent := true }, alertSerial := (s.pe.alertSerial + 1) % 256 }) := by
  unfold Alerts at ha
  unfold sendAlert
  rw [if_pos ha, he]
  dsimp only
  rw [if_pos hheard]
  rfl

theorem sendAlert_unheard {e : Entry} (ha : Alerts v) (he : alertEntry s = some e) (hheard : e.state ≠ .heard) :
    sendAlert img v s =
      s.withPe { s.pe with service := some { v with alertSent := true }, withheld := satInc 65535 s.pe.withheld } := by
  unfold Alerts at ha
  unfold sendAlert
  rw [if_pos ha, he]
  dsimp only
  rw [if_neg hheard]
  rfl

/-- The state in which a service that enters DWELL sends its alert. -/
def dwelling (v : Service) (st : Stage) (s : State) : State :=
  if truncates v.cls then placeCommand (some st) false (s.withPe { s.pe with
    service := some { v with phase := .dwell, elapsed := 0 } })
  else s.withPe { s.pe with service := some { v with phase := .dwell, elapsed := 0 } }

theorem dwelling_pe : ∃ command, (dwelling v st s).pe =
    { s.pe with service := some { v with phase := .dwell, elapsed := 0 }, command := command } := by
  unfold dwelling
  split
  · exact ⟨_, rfl⟩
  · exact ⟨_, rfl⟩

theorem dwelling_rest : (dwelling v st s).nt = s.nt ∧ (dwelling v st s).lu = s.lu := by
  unfold dwelling
  split <;> exact ⟨rfl, rfl⟩

/-- R152, R153, R158: what the entry into DWELL does. -/
theorem dwellEntered (hs : s.pe.service = some v) (hp : v.phase = .entry) (hy : (img.cls v.cls).target = some st)
    (hc : stageComplete s st = true) : DwellEntered img v st s (enterDwell img s) := by
  obtain ⟨⟨hclasses, hinhibit, hline, halert, hstack⟩, hcommand, -⟩ := enterDwell_complete hs hp hy hc
  have hu : enterDwell img s = sendAlert img { v with phase := .dwell, elapsed := 0 } (dwelling v st s) :=
    enterDwell_eq hs hp hy hc
  obtain ⟨command, hpe⟩ := dwelling_pe (v := v) (st := st) (s := s)
  obtain ⟨hnt, hlu⟩ := dwelling_rest (v := v) (st := st) (s := s)
  have hentry : alertEntry (dwelling v st s) = alertEntry s := by
    unfold alertEntry
    rw [hnt]
  have hsq : (enterDwell img s).sq = (dwelling v st s).sq := by
    rw [hu]
    exact (sendAlert_only img _ _).sq (by simp)
  refine ⟨hstack, hclasses, hinhibit, hline, halert, fun ht => ?_, fun ht => ⟨hcommand.trans (if_neg ht), ?_⟩,
    fun hsilent => ?_, fun p e ha hmark hone => ?_⟩
  · rw [enterDwell_transit hs ht hp hy hc]
    exact ⟨rfl, rfl⟩
  · rw [hsq, dwelling, truncates_eq, decide_eq_true ht, if_pos rfl]
    rfl
  · rw [hu, sendAlert_silent (v := { v with phase := .dwell, elapsed := 0 })
      (hsilent.imp id fun hnone => hentry.trans (alertEntry_none hnone)), hpe]
    exact ⟨rfl, hlu, rfl, rfl⟩
  · have he : alertEntry (dwelling v st s) = some e := hentry.trans (alertEntry_unique hmark hone)
    by_cases hheard : e.state = .heard
    · rw [hu, sendAlert_heard (v := { v with phase := .dwell, elapsed := 0 }) ha he hheard, offer_pe, hpe]
      exact ⟨rfl, fun _ => ⟨rfl, rfl, offered_offer _ hlu⟩, fun hn => absurd hheard hn⟩
    · rw [hu, sendAlert_unheard (v := { v with phase := .dwell, elapsed := 0 }) ha he hheard, hpe]
      exact ⟨rfl, fun hh => absurd hh hheard, fun _ => ⟨rfl, hlu, rfl⟩⟩

end Alert

/-! ## The end of DWELL (R153, R154) -/

/-- R153 (2): PE when a service that leaves DWELL enters EXIT; max dwell locks its class out. -/
def dwellLeftPe (v : Service) (pe : PeState) : PeState := if v.remaining = 0 then lockedOutBy v pe else pe

/-- The service that leaves DWELL. -/
def leavingDwell (v : Service) : Service := if v.remaining = 0 then { v with byMax := true } else v

theorem leavingDwell_cls (v : Service) : (leavingDwell v).cls = v.cls := by
  unfold leavingDwell
  split <;> rfl

theorem dwellLeftPe_stack (v : Service) (pe : PeState) : (dwellLeftPe v pe).stack = pe.stack := by
  unfold dwellLeftPe
  split <;> rfl

section Leaves
variable {img : Image} {v : Service} {s : State} {pe : PeState}

theorem exitDwell_leaves (hv : s.pe.service = some v) (hp : v.phase = .dwell)
    (h : v.remaining = 0 ∨ (s.pe.requested v.cls = false ∧ 10 * (img.cls v.cls).minDwell ≤ v.elapsed)) :
    exitDwell img s = enterExit img (leavingDwell v) (s.withPe (dwellLeftPe v s.pe)) := by
  unfold exitDwell leavingDwell dwellLeftPe
  rw [hv]
  dsimp only
  by_cases hr : v.remaining = 0
  · rw [if_pos ⟨hp, hr⟩, if_pos hr, if_pos hr, maxDwellExit_eq]
  · rw [if_neg fun hmax => hr hmax.2, if_pos ⟨hp, h.resolve_left hr⟩, if_neg hr, if_neg hr]
    rfl

/-- R154: EXIT with an exit stage: its command is placed. -/
theorem enterExit_placed {x : Stage} (h : ExitsBy img v.cls x) : enterDwell img (enterExit img v (s.withPe pe)) =
    placeCommand (some x) false (s.withPe { pe with service := some { v with phase := .exit } }) := by
  rw [enterExit_exits _ h]
  exact enterDwell_exiting (s := s)

/-- R154, R157: EXIT without an exit stage ends the service at once. -/
theorem enterExit_after (h : ∀ x, ¬ExitsBy img v.cls x) (law : Descending pe.stacked) :
    AfterService img (loadInhibit img v pe) s (enterDwell img (enterExit img v (s.withPe pe))) := by
  rw [enterExit_continues _ h]
  exact serviceEnded_after (s := s.withPe pe) law

end Leaves

/-- R157: what follows a service with an empty stack. -/
theorem AfterService.of_empty {img : Image} {pe : PeState} {s t : State} (h : AfterService img pe s t) (hstack : pe.stack = []) :
    (∀ c, t.pe.cls c = pe.cls c) ∧ ((∀ c, pe.requested c = false) → t.pe.service = none ∧ t.pe.command = none) ∧
    ∀ c y, pe.requested c = true → (∀ d, higherClass d c = true → pe.requested d = false) → (img.cls c).target = some y →
      ServiceBegun (newService img c (pe.cls c).request) y s t := by
  obtain ⟨-, -, -, hsame, -, hgone, -, hstarts⟩ := h [] [] hstack (by simp) (by simp)
  refine ⟨fun c => hsame c ?_, fun hnone => ?_, fun c y hreq habove hy => ?_⟩
  · cases hreq : pe.requested c with
    | true => exact .inl ⟨hreq, by simp⟩
    | false => exact .inr rfl
  · obtain ⟨hservice, hcommand, -⟩ := hgone fun c hc => absurd ((hnone c).symm.trans hc.1) (by decide)
    exact ⟨hservice, hcommand⟩
  · exact (hstarts c y ⟨hreq, by simp⟩ (fun d hd hw => absurd ((habove d hd).symm.trans hw.1) (by decide)) (by simp) hy).2

/-- R156 holds of a service with an empty stack. -/
theorem descending_empty {pe : PeState} (h : pe.stack = []) : Descending pe.stacked := by
  simp [Descending, PeState.stacked, h]

/-! ## DWELL_ENTRY -/

section DwellEntry
variable {img : Image} {s : State} {v : Service} {st : Stage}

theorem execDwellEntry_due (hi : s.cf.image = some img) (hm : s.os.mode = .run) (hs : s.pe.service = some v)
    (hp : v.phase = .entry) (hy : (img.cls v.cls).target = some st) (hc : stageComplete s st = true) :
    exec .dwellEntry s = .next (enterDwell img (exitDwell img (enterDwell img s))) := by
  show execDwellEntry s = _
  unfold execDwellEntry
  exact peEvent_due hi hm (by simp [hs, hp, hy, hc])

/-- The service that has entered DWELL. -/
def dwelt (v : Service) (alertSent : Bool) : Service := { v with phase := .dwell, elapsed := 0, alertSent := alertSent }

theorem enterDwell_dwelt (hs : s.pe.service = some v) (hp : v.phase = .entry) (hy : (img.cls v.cls).target = some st)
    (hc : stageComplete s st = true) : ∃ b, (enterDwell img s).pe.service = some (dwelt v b) :=
  (enterDwell_complete hs hp hy hc).2.2

variable {b : Bool}

/-- R153: the service goes on in DWELL. -/
theorem dwellEntry_stays (hd : (enterDwell img s).pe.service = some (dwelt v b)) (hr : 0 < v.remaining)
    (h : s.pe.requested v.cls = true ∨ 0 < (img.cls v.cls).minDwell) :
    enterDwell img (exitDwell img (enterDwell img s)) = enterDwell img s := by
  have hreq : (enterDwell img s).pe.requested v.cls = s.pe.requested v.cls := requested_of_classes (enterDwell_same img s).1 _
  have hstays : exitDwell img (enterDwell img s) = enterDwell img s := by
    refine exitDwell_stays hd hr (h.imp (fun hq => hreq.trans hq) fun hdwell => ?_)
    show 0 < 10 * (img.cls v.cls).minDwell
    omega
  rw [hstays, enterDwell_twice]

/-- R153: the service leaves DWELL at the same evaluation. -/
theorem dwellEntry_leaves (hd : (enterDwell img s).pe.service = some (dwelt v b))
    (h : v.remaining = 0 ∨ (s.pe.requested v.cls = false ∧ (img.cls v.cls).minDwell = 0)) :
    exitDwell img (enterDwell img s) =
      enterExit img (leavingDwell (dwelt v b)) ((enterDwell img s).withPe (dwellLeftPe v (enterDwell img s).pe)) := by
  have hreq : (enterDwell img s).pe.requested v.cls = s.pe.requested v.cls := requested_of_classes (enterDwell_same img s).1 _
  refine exitDwell_leaves hd rfl (h.imp_right fun ⟨hq, hz⟩ => ⟨hreq.trans hq, ?_⟩)
  show 10 * (img.cls v.cls).minDwell ≤ 0
  omega

/-- R154: the exit stage's command. -/
theorem dwellEntry_exits {x : Stage} (hd : (enterDwell img s).pe.service = some (dwelt v b))
    (h : v.remaining = 0 ∨ (s.pe.requested v.cls = false ∧ (img.cls v.cls).minDwell = 0)) (hx : ExitsBy img v.cls x) :
    enterDwell img (exitDwell img (enterDwell img s)) = placeCommand (some x) false ((enterDwell img s).withPe
      { dwellLeftPe v (enterDwell img s).pe with service := some { leavingDwell (dwelt v b) with phase := .exit } }) := by
  rw [dwellEntry_leaves hd h]
  exact enterExit_placed (by rw [leavingDwell_cls]; exact hx)

/-- R154, R157: the service ends at once. -/
theorem dwellEntry_ends (hd : (enterDwell img s).pe.service = some (dwelt v b))
    (h : v.remaining = 0 ∨ (s.pe.requested v.cls = false ∧ (img.cls v.cls).minDwell = 0)) (hx : ∀ x, ¬ExitsBy img v.cls x)
    (law : Descending s.pe.stacked) :
    AfterService img (loadInhibit img (leavingDwell (dwelt v b)) (dwellLeftPe v (enterDwell img s).pe)) (enterDwell img s)
      (enterDwell img (exitDwell img (enterDwell img s))) := by
  have hstack : (dwellLeftPe v (enterDwell img s).pe).stack = s.pe.stack :=
    (dwellLeftPe_stack v _).trans (enterDwell_same img s).2.2.2.2
  rw [dwellEntry_leaves hd h]
  refine enterExit_after (by rw [leavingDwell_cls]; exact hx) ?_
  rwa [stacked_eq hstack]

/-- R153 (2): max dwell has run already at the entry, and nothing is stacked. -/
theorem dwellEntry_max (hd : (enterDwell img s).pe.service = some (dwelt v b)) (hr : v.remaining = 0)
    (hx : ∀ x, ¬ExitsBy img v.cls x) (hstack : s.pe.stack = []) :
    let t := enterDwell img (exitDwell img (enterDwell img s))
    (t.pe.cls v.cls).request = .lockedOut ∧
      ((∀ d, d ≠ v.cls → s.pe.requested d = false) → t.pe.service = none ∧ t.pe.command = none) ∧
      ∀ c y, c ≠ v.cls → s.pe.requested c = true → (∀ d, higherClass d c = true → d ≠ v.cls → s.pe.requested d = false) →
        (img.cls c).target = some y →
        t.pe.service.map (fun w => (w.cls, w.phase)) = some (c, if stageComplete s y = true then .dwell else .entry) := by
  intro t
  have hbyMax : (leavingDwell (dwelt v b)).byMax = true := congrArg Service.byMax (if_pos (show (dwelt v b).remaining = 0 from hr))
  have hleft : dwellLeftPe v (enterDwell img s).pe = lockedOutBy v (enterDwell img s).pe := if_pos hr
  have hends := dwellEntry_ends hd (.inl hr) hx (descending_empty hstack)
  rw [loadInhibit_stands _ (.inr hbyMax), hleft] at hends
  have hempty : (lockedOutBy v (enterDwell img s).pe).stack = [] := (enterDwell_same img s).2.2.2.2.trans hstack
  obtain ⟨hcls, hgone, hstarts⟩ := hends.of_empty hempty
  have hlocked : ((lockedOutBy v (enterDwell img s).pe).cls v.cls).request = .lockedOut :=
    congrArg ClassState.request ((PeState.setRequest_cls (enterDwell img s).pe v.cls v.cls .lockedOut).trans (if_pos rfl))
  have hreq (d : PreClass) : (lockedOutBy v (enterDwell img s).pe).requested d =
      if d = v.cls then false else s.pe.requested d :=
    (PeState.setRequest_requested (enterDwell img s).pe v.cls d .lockedOut).trans (by
      rw [requested_of_classes (enterDwell_same img s).1]
      rfl)
  refine ⟨(congrArg ClassState.request (hcls v.cls)).trans hlocked, fun hnone => hgone fun c => ?_,
    fun c y hc hcreq habove hy => ?_⟩
  · rw [hreq]
    split
    next => rfl
    next hne => exact hnone c hne
  · have hbegun := hstarts c y ((hreq c).trans ((if_neg hc).trans hcreq)) (fun d hdc => (hreq d).trans (by
      split
      next => rfl
      next hne => exact habove d hdc hne)) hy
    obtain ⟨hwaits, hdwells⟩ := hbegun
    rw [stageComplete_enterDwell] at hwaits hdwells
    cases hcomplete : stageComplete s y with
    | false =>
      obtain ⟨hservice, -⟩ := hwaits hcomplete
      rw [hservice]
      rfl
    | true =>
      obtain ⟨-, hservice⟩ := hdwells hcomplete
      obtain ⟨w, hw, heq⟩ := Option.map_eq_some_iff.mp hservice
      rw [hw]
      obtain ⟨hwc, hwp, -⟩ := Prod.mk.inj heq |>.imp_right Prod.mk.inj
      simp [hwc, hwp, newService]

end DwellEntry

/-! ## MIN_DWELL_EXPIRY, MAX_DWELL_EXPIRY and SERVICE_END -/

section Rows
variable {img : Image} {s : State} {v : Service}

theorem descending_of_stackLaw (law : StackLaw s) : Descending s.pe.stacked := ((stackLaw_iff s).mp law).below

/-- R150, R154, R157: a service ends with an empty stack and no class requested. -/
theorem serviceEnded_alone (hstack : s.pe.stack = []) (hnone : ∀ d, s.pe.requested d = false) :
    let t := enterDwell img (serviceEnded img v s)
    (v.cls ≠ .transit ∨ v.byMax = true → ServiceGone s.pe s t) ∧
    (v.cls = .transit → v.byMax = false → 0 < (img.cls .transit).inhibit →
      ServiceGone { s.pe.setRequest .transit .inhibited with inhibit := (img.cls .transit).inhibit } s t) ∧
    (v.cls = .transit → v.byMax = false → (img.cls .transit).inhibit = 0 → InhibitSkipped img s t) := by
  refine ⟨fun h => serviceEnded_gone (loadInhibit_stands s.pe h) hstack hnone, fun hc hm hpos => ?_,
    fun hc hm hzero => serviceEnded_skips hc hm hzero hstack hnone⟩
  refine serviceEnded_gone (loadInhibit_inhibits s.pe hc hm hpos) hstack fun d => ?_
  refine (PeState.setRequest_requested s.pe .transit d .inhibited).trans ?_
  split
  next => rfl
  next => exact hnone d

/-- R153: the service at the count that brings dwell elapsed to the min dwell. -/
def dwellCounted (v : Service) : Service := { v with elapsed := satInc 6000 v.elapsed }

theorem execMinDwell_due (hi : s.cf.image = some img) (hm : s.os.mode = .run) (hs : s.pe.service = some v) (hp : v.phase = .dwell)
    (hreq : s.pe.requested v.cls = false) (hr : 0 < v.remaining) (hdue : 10 * (img.cls v.cls).minDwell ≤ v.elapsed + 1) :
    exec .minDwellExpiry s = .next (enterDwell img (enterExit img (dwellCounted v) s)) := by
  show execMinDwellExpiry s = _
  unfold execMinDwellExpiry
  refine (peEvent_due hi hm (by simp [hs, hp, hreq, hr, hdue])).trans ?_
  rw [hs]
  rfl

/-- The service at the count that brings its max dwell to 0. -/
def dwellRunOut (v : Service) : Service := { v with remaining := 0, byMax := true }

theorem execMaxDwell_due (hi : s.cf.image = some img) (hm : s.os.mode = .run) (hs : s.pe.service = some v) (hp : v.phase = .dwell)
    (hdue : v.remaining ≤ 1) :
    exec .maxDwellExpiry s = .next (enterDwell img (enterExit img (dwellRunOut v) (s.withPe (lockedOutBy v s.pe)))) := by
  show execMaxDwellExpiry s = _
  unfold execMaxDwellExpiry
  refine (peEvent_due hi hm (by simp [hs, hp, hdue])).trans ?_
  rw [hs]
  dsimp only
  rw [maxDwellExit_eq]
  rfl

theorem execServiceEnd_due {x : Stage} (hi : s.cf.image = some img) (hm : s.os.mode = .run) (hs : s.pe.service = some v)
    (hp : v.phase = .exit) (hx : ExitsBy img v.cls x) (hc : stageComplete s x = true) :
    exec .serviceEnd s = .next (enterDwell img (serviceEnded img v s)) := by
  have hseen : exitSeen img s = true := by
    unfold exitSeen
    rw [hs]
    dsimp only
    rw [exitStage_eq_some.mpr hx]
    simp [hp, hc]
  rw [serviceEnded, ← endService_eq hs]
  exact peEvent_due (act := fun img s => enterDwell img (endService img s)) hi hm hseen

theorem exited_only (w : Service) {u : State} (h : Only [.pe] s u) : Only [.pe, .sq, .lu] s (enterDwell img (enterExit img w u)) :=
  (h.mono (by simp)).trans (((enterExit_only img w u).mono (by simp)).trans (enterDwell_only img _))

theorem ended_only : Only [.pe, .sq, .lu] s (enterDwell img (serviceEnded img v s)) :=
  ((withPe_only s _).mono (by simp)).trans (((chooseService_only img _).mono (by simp)).trans (enterDwell_only img _))

end Rows

section Settled
variable {img : Image} {s : State} {v : Service}

/-- DWELL_ENTRY where the service leaves DWELL at once. -/
theorem dwellEntry_left {st : Stage} (hs : s.pe.service = some v) (hp : v.phase = .entry)
    (hy : (img.cls v.cls).target = some st) (hc : stageComplete s st = true)
    (h : v.remaining = 0 ∨ (s.pe.requested v.cls = false ∧ (img.cls v.cls).minDwell = 0)) :
    let t := enterDwell img (exitDwell img (enterDwell img s))
    ∃ u, Only [.pe, .sq, .lu] s u ∧ DwellEntered img v st s u ∧
      u.pe.service.map (fun w => (w.cls, w.phase, w.elapsed, w.remaining)) = some (v.cls, .dwell, 0, v.remaining) ∧
      let pe := if v.remaining = 0 then lockedOutBy v u.pe else u.pe
      (∀ x, ExitsBy img v.cls x → CommandPlaced x false u t ∧ t.pe.stack = s.pe.stack ∧ t.pe.classes = pe.classes ∧
        t.pe.lineDwell = pe.lineDwell ∧ t.pe.service.map (fun w => (w.cls, w.phase)) = some (v.cls, .exit)) ∧
      ((∀ x, ¬ExitsBy img v.cls x) → StackLaw s → ∃ pe', AfterService img pe' u t ∧
        (v.remaining = 0 → pe' = pe) ∧ (0 < v.remaining → InhibitApplied img v pe pe')) := by
  intro t
  obtain ⟨b, hd⟩ := enterDwell_dwelt hs hp hy hc
  refine ⟨enterDwell img s, enterDwell_only img s, dwellEntered hs hp hy hc, by rw [hd]; rfl, fun x hx => ?_, fun hx law => ?_⟩
  · have ht := dwellEntry_exits hd h hx
    have hstack : (dwellLeftPe v (enterDwell img s).pe).stack = s.pe.stack :=
      (dwellLeftPe_stack v _).trans (enterDwell_same img s).2.2.2.2
    have hcls : (leavingDwell (dwelt v b)).cls = v.cls := leavingDwell_cls _
    rw [show t = _ from ht]
    exact ⟨⟨rfl, rfl⟩, hstack, rfl, rfl, congrArg (fun c => some (c, ServicePhase.exit)) hcls⟩
  · refine ⟨_, dwellEntry_ends hd h hx (descending_of_stackLaw law), fun hr => ?_, fun hr => ?_⟩
    · exact loadInhibit_stands _ (.inr (congrArg Service.byMax (if_pos (show (dwelt v b).remaining = 0 from hr))))
    · have hleaving : leavingDwell (dwelt v b) = dwelt v b := if_neg (show ¬v.remaining = 0 by omega)
      rw [hleaving]
      exact loadInhibit_applied img (dwelt v b) _

/-- R157: a record on top of the stack is resumed and waits for its target. -/
theorem serviceEnded_resumed {r : Stacked} {rest : List Stacked} {y : Stage} (hstack : s.pe.stack = r :: rest)
    (hc : v.cls ≠ .transit) (hreq : s.pe.requested r.cls = true) (hr : 0 < r.remaining) (habove : NoneAbove s r.cls)
    (hy : (img.cls r.cls).target = some y) (hinc : stageComplete s y = false) :
    let t := enterDwell img (serviceEnded img v s)
    CommandPlaced y (decide (r.cls ≠ .transit)) s t ∧ t.lu = s.lu ∧ t.pe = { s.pe with
      stack := rest, command := some (y, decide (r.cls ≠ .transit)), service := some (resumedService r) } := by
  intro t
  have hplaced : serviceEnded img v s = placeCommand (some y) (truncates r.cls)
      (s.withPe { s.pe with stack := rest, service := some (resumedService r) }) := by
    rw [serviceEnded_resumes (loadInhibit_stands s.pe (.inl hc)) hstack hreq hr habove, hy]
  have ht : t = serviceEnded img v s := by
    refine enterDwell_targetAway (v := resumedService r) (by rw [hplaced]; rfl) (targetAway_of_incomplete hy ?_)
    rw [hplaced]
    exact (stageComplete_placeCommand _ _ _ y).trans hinc
  rw [ht, hplaced, truncates_eq]
  exact ⟨⟨rfl, rfl⟩, rfl, rfl⟩

/-- R157, R152: with an empty stack the service of another requested class follows and waits for its target. -/
theorem serviceEnded_followed {c : PreClass} {y : Stage} (hstack : s.pe.stack = []) (hc : v.cls ≠ .transit)
    (hreq : s.pe.requested c = true) (habove : NoneAbove s c) (hy : (img.cls c).target = some y)
    (hinc : stageComplete s y = false) :
    ServiceStarted img c y (decide ((s.pe.cls c).request = .requestedLine)) s (enterDwell img (serviceEnded img v s)) := by
  rw [serviceEnded_starts (loadInhibit_stands s.pe (.inl hc)) hstack hreq habove]
  exact startService_started { s.pe with service := none } hy hinc

end Settled

/-- Settles O51: a service leaves DWELL through its exit stage, whose command is placed, or ends at once; every end applies the
inhibit, examines the stack and serves the highest class that waits. -/
theorem servicesDwellAndEnd : Obligations.ServicesDwellAndEnd := by
  refine ⟨fun s img v st hi hm hs hp hy hc => ?_, fun s img v hi hm hs hp => ⟨fun hreq hr hdue => ?_, fun hdue hx law => ?_,
    fun hdue x hx => ?_⟩, fun s img v x hi hm hs hp hx hc => ?_⟩
  · obtain ⟨b, hd⟩ := enterDwell_dwelt hs hp hy hc
    refine ⟨_, execDwellEntry_due hi hm hs hp hy hc, (enterDwell_only img s).trans
      (((exitDwell_only img _).mono (by simp)).trans (enterDwell_only img _)), fun hr h => ?_, dwellEntry_left hs hp hy hc,
      fun x hr hx => ?_, fun hr hx hstack => dwellEntry_max hd hr hx hstack⟩
    · rw [dwellEntry_stays hd hr h]
      exact dwellEntered hs hp hy hc
    · rw [dwellEntry_exits hd (.inl hr) hx, dwellLeftPe, if_pos hr]
      exact ⟨congrArg ClassState.request ((PeState.setRequest_cls (enterDwell img s).pe v.cls v.cls .lockedOut).trans (if_pos rfl)),
        rfl, rfl⟩
  · refine ⟨_, execMinDwell_due hi hm hs hp hreq hr hdue, exited_only _ (.refl _ s), fun hx law => ?_, fun x hx => ?_,
      fun hx hstack hnone => ?_⟩
    · exact ⟨_, loadInhibit_applied img (dwellCounted v) s.pe,
        enterExit_after (v := dwellCounted v) (s := s) hx (descending_of_stackLaw law)⟩
    · rw [show enterDwell img (enterExit img (dwellCounted v) s) = _ from
        enterExit_placed (v := dwellCounted v) (s := s) (pe := s.pe) hx]
      exact ⟨⟨rfl, rfl⟩, rfl, rfl⟩
    · rw [enterExit_continues (v := dwellCounted v) s hx]
      obtain ⟨hgone, hinhibits, hskips⟩ := serviceEnded_alone (img := img) (v := dwellCounted v) hstack hnone
      exact ⟨fun hc => hgone (.inl hc), hinhibits, hskips⟩
  · have hafter := enterExit_after (v := dwellRunOut v) (s := s) (pe := lockedOutBy v s.pe) hx (descending_of_stackLaw law)
    rw [loadInhibit_stands _ (.inr rfl)] at hafter
    exact ⟨_, execMaxDwell_due hi hm hs hp hdue, exited_only _ (withPe_only s _), hafter⟩
  · refine ⟨_, execMaxDwell_due hi hm hs hp hdue, exited_only _ (withPe_only s _), ?_⟩
    rw [enterExit_placed (v := dwellRunOut v) hx]
    exact ⟨⟨rfl, rfl⟩, rfl, rfl⟩
  · exact ⟨_, execServiceEnd_due hi hm hs hp hx hc, ended_only,
      fun law => ⟨_, loadInhibit_applied img v s.pe, serviceEnded_after (descending_of_stackLaw law)⟩, serviceEnded_alone,
      fun r rest y => serviceEnded_resumed, fun c y => serviceEnded_followed⟩

end Sys2Proof.Machine
